-- ==== Sys2Proof/Word.lean ====
section
/-! DEFINITION. Word.lean: the plain data types the whole model is built from. Operations on them stand in
`Sys2Proof/Machine/Tab.lean` and `Sys2Proof/Machine/Bits.lean`. -/

namespace Sys2Proof

/-- One byte (00 R3). -/
abbrev Byte := BitVec 8

/-- A register of the register map (21 R494): 32 bits. -/
abbrev Word := BitVec 32

/-- A general register of a facet (02 Table 02.1). -/
abbrev W64 := BitVec 64

/-- A block: a lens operand, a block register (02 Table 02.1). -/
abbrev Block := BitVec 128

/-- A vector register (02 Table 02.1), and a key of the longest symmetric kind. -/
abbrev W256 := BitVec 256

/-- A byte string; the first byte stands at the lowest address (00 R3). -/
abbrev Bytes := List Byte

/-- A sparse table: pairs of a key and an entry, keys strictly rising, no entry equal to the table's default. -/
abbrev Tab (α : Type) := List (Nat × α)

end Sys2Proof
end

