-- ==== Sys2Proof/Syntax.lean ====
section
/-! DEFINITION. Syntax.lean: the commands the block takes, one constructor per row of the table of operations and
events, with the row's operands. An index of a unit is a `Fin`, so that no command names a unit that does not exist. -/

namespace Sys2Proof

/-- A function of a host port (14 R355): PF, or VF number n. -/
structure FnId where
  port : Fin 4
  vf : Option (Fin 1024)
  deriving DecidableEq, Repr

/-- Who reads or writes a register (21 R497). -/
inductive Agent where
  | fn (f : FnId)
  | steward
  | psc
  deriving DecidableEq, Repr

/-- Where a register access goes: PF BAR0, or the doorbell page of a function. -/
inductive RegAddr where
  | bar0 (off : Nat)
  | page (f : FnId) (off : Nat)
  /-- PCI configuration of a function: bit 0 Bus Master Enable, bit 1 MSI-X Enable, bit 2 MSI-X function mask (16 Table 16.2). -/
  | cfg (f : FnId)
  deriving DecidableEq, Repr

/-- What the data SRAM's ECC finds at an access (02 R25). -/
inductive Ecc where
  | ok | corrected | uncorrectable
  deriving DecidableEq, Repr

/-- A cause that ends a work in the same facet cycle as another one (20 R482); the causes are those of 03 Table 03.4. -/
inductive Cause where
  | lens (l : Fin 2)
  | keyUse | keyEmpty | sealedUse | address | encoding | budget | sram | parity
  deriving DecidableEq, Repr

/-- A facet cycle in which something other than an instruction comes about at a physical facet, with the other causes that end the
facet's work in that cycle (20 R482). `ecc`: what the data SRAM's ECC finds, where the event reads or writes it (02 R25); one that does not
passes it over. -/
structure FacetCycle where
  p : Fin 72
  ecc : Ecc
  also : List Cause
  deriving DecidableEq, Repr

/-- What every facet instruction carries: the physical facet it issues on, whether its fetch meets an instruction
parity error (02 R24), what the data SRAM's ECC finds (02 R25), whether another instruction is dual-issued behind
it in the same cycle (03 R56), and the other causes that end the facet's work in that cycle (20 R482). -/
structure Slot where
  p : Fin 72
  parity : Bool
  ecc : Ecc
  paired : Bool
  also : List Cause
  deriving DecidableEq, Repr

/-- A general register g0 to g31. -/
abbrev GR := Fin 32

/-- A vector register v0 to v15. -/
abbrev VR := Fin 16

/-- A block register b0 to b7. -/
abbrev BR := Fin 8

/-- A request that arrives at an arbiter: master ID and arrival stamp (15 R395). -/
structure ArbArrival where
  master : BitVec 10
  stamp : BitVec 16
  deriving DecidableEq, Repr

/-- A 64-byte chunk a conditioner took from a noise source (12 R318). -/
structure Chunk where
  source : Fin 28
  data : Bytes
  deriving DecidableEq, Repr

/-- The check-value units (12 R324): one per facet, key store, steward, ring engine. -/
inductive CvUnit where
  | facet (p : Fin 72)
  | keyStore
  | steward
  | ring
  deriving DecidableEq, Repr


/-- Where BCTR takes its counter from (03 R56). -/
inductive CtrSrc where
  | imm (v : BitVec 32)
  | reg (g : GR)
  deriving DecidableEq, Repr

/-- What HUPD feeds: g[s2] bytes at the address in g[s1], or a block register. -/
inductive HashSrc where
  | mem (s1 s2 : GR)
  | blk (b : BR)
  deriving DecidableEq, Repr

/-- Where HFIN writes: the address in g[s1], or a block register. -/
inductive HashDst where
  | mem (s1 : GR)
  | blk (b : BR)
  deriving DecidableEq, Repr

/-- The register an FLD fills or an FST stores: 8 bytes of a general, 32 of a vector, 16 of a block register. -/
inductive FrameReg where
  | g (r : GR)
  | v (r : VR)
  | b (r : BR)
  deriving DecidableEq, Repr

/-- A facet register as a debug access names it: 8 bytes of an open register, or one that no access reads (17 R428). -/
inductive DbgReg where
  | reg (r : FrameReg) (piece : Fin 4)
  | key | deriv | subkey | acc | hash
  deriving DecidableEq, Repr

/-- What DBG_ACCESS reaches: a global address, or a register of a halted facet (17 R427, R428). -/
inductive DbgTarget where
  | mem (addr : BitVec 64)
  | reg (p : Fin 72) (r : DbgReg)
  deriving DecidableEq, Repr

/-- An ageing measurement (20 R486): the facet and its measured frequency ratio. -/
structure Ageing where
  p : Fin 72
  ratio : BitVec 16
  deriving DecidableEq, Repr


/-- A command of a queue pair as it executes (06 Table 06.9, 07 R176): the submitting owner, version, flags byte, work tag, handles, the
inline bytes 48 to 63, the whole input, the output capacity, the acceptance time in nanoseconds of Prolith time, and whether
the input and output ranges overlap (07 R182). -/
structure Work where
  owner : Fin 4096
  ver : BitVec 8
  flags : BitVec 8
  tag : BitVec 48
  a : Word
  b : Word
  c : Word
  inl : Bytes
  input : Bytes
  cap : Word
  acc : Nat
  overlap : Bool
  deriving DecidableEq, Repr

/-- A focus entry as a ring frame carries it (10 Table 10.8): type, state, adding owner, instant in nanoseconds of Prolith time, node,
action parameters, and the work tag of its command. -/
structure FocusArg where
  typ : Fin 256
  st : Fin 5
  owner : Fin 4096
  instant : Nat
  node : Fin 16
  params : Bytes
  tag : BitVec 48
  deriving DecidableEq, Repr

/-- What a FOCUS frame says (10 R289, R290): an addition on its way to the time source; a numbered copy; a node holds it; it is
ARMED; it is removed; a node has removed it; its instant moves; an addition found the table full; the whole table has been copied; it is
FREE and to be added again. -/
inductive FocusMsg where
  | add (x : FocusArg)
  | copy (e : Fin 4096) (x : FocusArg)
  | held (e : Fin 4096) (node : Fin 16)
  | armed (e : Fin 4096)
  | remove (e : Fin 4096)
  | removed (e : Fin 4096) (node : Fin 16)
  | move (e : Fin 4096) (instant : Nat)
  | full (x : FocusArg)
  | table (n : Nat)
  | again (e : Fin 4096)
  deriving DecidableEq, Repr

/-- A PTP message for the port's own clock (10 R278; IEEE 1588-2019): an Announce with the fields that the best master
clock algorithm compares, in its order; a Sync, the Follow_Up of a two-step master, and a Delay_Resp. Stamps at the PCS count 0.625 ns,
origin and receive times nanoseconds, corrections 2^-16 ns. -/
inductive PtpMsg where
  | announce (rank : List Nat)
  | sync (seq : BitVec 16) (twoStep : Bool) (stamp origin : Nat) (corr : Int)
  | followUp (seq : BitVec 16) (origin : Nat) (corr : Int)
  | delayResp (seq : BitVec 16) (received : Nat) (corr : Int)
  deriving DecidableEq, Repr

/-- A request to an SPDM responder (14 R378; the requests of SPDM 1.3), and the TDISP requests that travel in it and have no row of
their own. `ok` of FINISH: the requester's MAC and, where it was asked for, its signature verify. -/
inductive SpdmMsg where
  | getVersion
  | getCapabilities
  | negotiateAlgorithms (common : Bool)
  | getDigests
  | getCertificate (slot : Nat) (off len : Nat)
  | challenge (slot : Nat) (nonce : Bytes)
  | getMeasurements (index : Nat) (signed : Bool) (nonce : Bytes)
  | keyExchange (slot : Nat) (share : Bytes)
  | finish (ok : Bool)
  | heartbeat
  | keyUpdate (op : Fin 4)
  | endSession
  | chunk (seq : Nat)
  | pskExchange
  | getCsr
  | setCertificate
  | startInterface (vf : Fin 1024)
  | interfaceReport (vf : Fin 1024)
  | interfaceState (vf : Fin 1024)
  deriving DecidableEq, Repr

/-- An IDE_KM message (14 R379): stream 0 is the link stream, 1 to 64 are selective; a key is of a sub-stream (0 posted, 1
non-posted, 2 completion) and a direction. -/
inductive IdeMsg where
  | query
  | keyProg (stream : Fin 65) (sub : Fin 3) (tx : Bool) (key : Bytes)
  | setGo (stream : Fin 65)
  | setStop (stream : Fin 65)
  deriving DecidableEq, Repr


/-- A valid alignment marker as a lane receives it (13 Table 13.3): sender node ID (0xFF for none), version, marker count. -/
structure Marker where
  node : Fin 256
  ver : Fin 256
  count : Word
  deriving DecidableEq, Repr

/-- The header of a ring frame as it arrives (13 Table 13.5): the port, the link sequence number, whether its CRC and GCM tag are
good, source, destination (255 for every node), hop count. -/
structure RHead where
  port : Fin 2
  seq : Nat
  good : Bool
  src : Fin 16
  dst : Fin 256
  hop : Fin 256
  deriving DecidableEq, Repr

/-- A time block (13 Table 13.4) with what the node knows of its source and of its path: the port and lane, the source's node ID,
discipline state and PRIORITY, active hops, departure time and correction, the measured delay of the link, the Prolith time of its
arrival, and whether its CRC and GMAC are valid. Times in nanoseconds. -/
structure TimeBlock where
  port : Fin 2
  lane : Fin 4
  node : Fin 16
  disc : Fin 4
  prio : Fin 16
  hops : Nat
  depart : Nat
  corr : Int
  delay : Int
  arrival : Nat
  ok : Bool
  deriving DecidableEq, Repr

/-- What a JOIN frame says (13 R339): a request or an answer; the sender is active; an answer accepts; version range, table digest,
command-set version; and how many members within reach have still to answer. -/
structure JoinMsg where
  request : Bool
  active : Bool
  accept : Bool
  lo : Nat
  hi : Nat
  digest : Bytes
  cmds : Nat
  left : Nat
  deriving DecidableEq, Repr

/-- How an MCTP message reaches the Periscope port: its packets pass their PEC (SMBus mode), its length in bytes, and how many other messages are
being reassembled as it starts (19 R469, R470). -/
structure Packet where
  pecOk : Bool
  size : Nat
  others : Nat
  deriving DecidableEq, Repr

/-- A Periscope vendor request: its packets, and the header of 19 Table 19.6 but for the opcode, which the row names. -/
structure VendorHead where
  pkt : Packet
  version : BitVec 8
  tag : BitVec 8
  flags : BitVec 8
  status : BitVec 16
  bodyLen : BitVec 16
  deriving DecidableEq, Repr


/-- The commands: one constructor per row of the table. -/
inductive Instr where
  /-- ADD (R55): Facet A-format instruction that adds two general registers. -/
  | add (h : Slot) (d s1 s2 : GR)
  /-- SUB (R55): Facet instruction that subtracts two general registers. -/
  | sub (h : Slot) (d s1 s2 : GR)
  /-- ADDC (R55): Facet add with carry, which writes flag C. -/
  | addc (h : Slot) (d s1 s2 : GR)
  /-- SUBB (R55): Facet subtract with borrow, which writes flag C. -/
  | subb (h : Slot) (d s1 s2 : GR)
  /-- AND (R55): Facet bitwise AND of general registers. -/
  | and (h : Slot) (d s1 s2 : GR)
  /-- OR (R55): Facet bitwise OR of general registers. -/
  | or (h : Slot) (d s1 s2 : GR)
  /-- XOR (R55): Facet bitwise XOR of general registers. -/
  | xor (h : Slot) (d s1 s2 : GR)
  /-- SHL (R55): Facet logical shift left. -/
  | shl (h : Slot) (d s1 s2 : GR)
  /-- SHR (R55): Facet logical shift right. -/
  | shr (h : Slot) (d s1 s2 : GR)
  /-- SAR (R55): Facet arithmetic shift right. -/
  | sar (h : Slot) (d s1 s2 : GR)
  /-- SLT (R55): Facet signed set-less-than. -/
  | slt (h : Slot) (d s1 s2 : GR)
  /-- SLTU (R55): Facet unsigned set-less-than. -/
  | sltu (h : Slot) (d s1 s2 : GR)
  /-- MUL (R55): Facet multiply, issued on the B pipe only. -/
  | mul (h : Slot) (d s1 s2 : GR)
  /-- MULH (R55): Facet multiply returning the high half, issued on the B pipe only. -/
  | mulh (h : Slot) (d s1 s2 : GR)
  /-- JR (R56): Facet jump to an address held in a register. -/
  | jr (h : Slot) (s1 : GR)
  /-- ADDI (R55): Facet add of a sign-extended immediate. -/
  | addi (h : Slot) (d s1 : GR) (imm : BitVec 16)
  /-- ANDI (R55): Facet AND with an immediate. -/
  | andi (h : Slot) (d s1 : GR) (imm : BitVec 16)
  /-- ORI (R55): Facet OR with an immediate. -/
  | ori (h : Slot) (d s1 : GR) (imm : BitVec 16)
  /-- XORI (R55): Facet XOR with an immediate. -/
  | xori (h : Slot) (d s1 : GR) (imm : BitVec 16)
  /-- SLTI (R55): Facet set-less-than against an immediate. -/
  | slti (h : Slot) (d s1 : GR) (imm : BitVec 16)
  /-- LUI (R55): Facet load of an immediate shifted left by 16. -/
  | lui (h : Slot) (d : GR) (imm : BitVec 16)
  /-- BEQ (R56): Facet branch if equal; when taken it discards the paired instruction. -/
  | beq (h : Slot) (s1 s2 : GR) (off : BitVec 16)
  /-- BNE (R56): Facet branch if not equal. -/
  | bne (h : Slot) (s1 s2 : GR) (off : BitVec 16)
  /-- BLT (R56): Facet branch if less than. -/
  | blt (h : Slot) (s1 s2 : GR) (off : BitVec 16)
  /-- BGE (R56): Facet branch if greater than or equal. -/
  | bge (h : Slot) (s1 s2 : GR) (off : BitVec 16)
  /-- J (R56): Facet unconditional jump. -/
  | j (h : Slot) (off : BitVec 16)
  /-- LDB (R53): Facet byte load, checked against the address map and the apertures. -/
  | ldb (h : Slot) (d s1 : GR) (imm : BitVec 16)
  /-- LDH (R53): Facet halfword load. -/
  | ldh (h : Slot) (d s1 : GR) (imm : BitVec 16)
  /-- LDW (R53): Facet word load. -/
  | ldw (h : Slot) (d s1 : GR) (imm : BitVec 16)
  /-- LDD (R53): Facet doubleword load. -/
  | ldd (h : Slot) (d s1 : GR) (imm : BitVec 16)
  /-- STB (R53): Facet byte store; a sealed source is refused under R46. -/
  | stb (h : Slot) (d s1 : GR) (imm : BitVec 16)
  /-- STH (R53): Facet halfword store. -/
  | sth (h : Slot) (d s1 : GR) (imm : BitVec 16)
  /-- STW (R53): Facet word store. -/
  | stw (h : Slot) (d s1 : GR) (imm : BitVec 16)
  /-- STD (R53): Facet doubleword store. -/
  | std (h : Slot) (d s1 : GR) (imm : BitVec 16)
  /-- VLD (R53): Facet vector register load. -/
  | vld (h : Slot) (v : VR) (s1 : GR) (imm : BitVec 16)
  /-- VST (R53): Facet vector register store. -/
  | vst (h : Slot) (v : VR) (s1 : GR) (imm : BitVec 16)
  /-- BLD (R44): Facet block register load; the result is open. -/
  | bld (h : Slot) (b : BR) (s1 : GR) (imm : BitVec 16)
  /-- BST (R46): Facet block register store; refused for a sealed register. -/
  | bst (h : Slot) (b : BR) (s1 : GR) (imm : BitVec 16)
  /-- AMOSWAP (R76): Facet atomic swap on an aligned 64-bit word of HBM or shared SRAM. -/
  | amoswap (h : Slot) (d s1 s2 : GR)
  /-- AMOADD (R76): Facet atomic add. -/
  | amoadd (h : Slot) (d s1 s2 : GR)
  /-- AMOCAS (R76): Facet atomic compare-and-swap, which writes EQ. -/
  | amocas (h : Slot) (d s1 s2 : GR)
  /-- FENCE_SL (R75): Facet fence that stalls later loads until earlier stores are visible. -/
  | fenceSl (h : Slot)
  /-- FENCE_SS (R75): Facet fence that orders earlier stores before later stores. -/
  | fenceSs (h : Slot)
  /-- FENCE_FULL (R75): Facet fence with the effect of both FENCE_SL and FENCE_SS. -/
  | fenceFull (h : Slot)
  /-- VXOR (R55): Facet vector XOR. -/
  | vxor (h : Slot) (d s1 s2 : VR)
  /-- VAND (R55): Facet vector AND. -/
  | vand (h : Slot) (d s1 s2 : VR)
  /-- VADD (R55): Facet vector add. -/
  | vadd (h : Slot) (d s1 s2 : VR)
  /-- VPERM (R55): Facet vector permute. -/
  | vperm (h : Slot) (d s1 s2 : VR)
  /-- VMOVG (R55): Facet move between vector and general registers. -/
  | vmovg (h : Slot) (toVector : Bool) (v : VR) (g : GR)
  /-- LENS (R35): Facet issue of one or two raw block operations under K, checked against the use code locked in K. -/
  | lens (h : Slot) (bd bs1 bs2 : BR) (sel : BitVec 2) (dir dest : BitVec 3) (subj : Bool)
  /-- HSET (R47): Facet issue of the all-zero block under K; the result is written only to H. -/
  | hset (h : Slot)
  /-- BXOR (R44): Facet block XOR, which propagates the seal. -/
  | bxor (h : Slot) (bd bs1 bs2 : BR)
  /-- BAND (R44): Facet block AND. -/
  | band (h : Slot) (bd bs1 bs2 : BR)
  /-- BSHL (R44): Facet block shift left. -/
  | bshl (h : Slot) (bd bs1 : BR) (n : Fin 128)
  /-- BSHR (R44): Facet block shift right. -/
  | bshr (h : Slot) (bd bs1 : BR) (n : Fin 128)
  /-- BMOVB (R44): Facet block byte move. -/
  | bmovb (h : Slot) (bd bs1 : BR) (dstByte srcByte : Fin 16)
  /-- BMOVN (R44): Facet block nibble move. -/
  | bmovn (h : Slot) (bd bs1 : BR) (dstNib srcNib : Fin 32)
  /-- BCTR (R44): Facet write of a big-endian counter into bytes 12-15 of a block. -/
  | bctr (h : Slot) (bd bs1 : BR) (ctr : CtrSrc)
  /-- BMULX (R44): Facet multiply of a block by x in GF(2^128). -/
  | bmulx (h : Slot) (bd bs1 : BR) (gcmOrder : Bool)
  /-- BCMP (R63): Facet compare of two block registers, which writes EQ and AUTH. -/
  | bcmp (h : Slot) (bs1 bs2 : BR)
  /-- BINS (R44): Facet move of a g register into one half of a block register, which is then open. -/
  | bins (h : Slot) (bd : BR) (high : Bool) (g : GR)
  /-- BEXT (R46): Facet move of one half of an open block register to a g register. -/
  | bext (h : Slot) (g : GR) (bs1 : BR) (high : Bool)
  /-- PEXT (R45): Facet conversion of a PIN field to the canonical sealed form. -/
  | pext (h : Slot) (bd bs1 : BR) (fmt : BitVec 3)
  /-- PINS (R212): Facet build of a PIN field, drawing random fill from the entropy source. -/
  | pins (h : Slot) (bd bs1 : BR) (fmt : BitVec 3)
  /-- PCHK (R211): Facet field check of a clear PIN field, which writes PINOK. -/
  | pchk (h : Slot) (bs1 : BR) (fmt : BitVec 3)
  /-- PPAN (R45): Facet build of an open PAN field. -/
  | ppan (h : Slot) (bd : BR) (g : GR) (fmt : BitVec 3)
  /-- GMUL (R47): Facet GF(2^128) multiply of two open block registers. -/
  | gmul (h : Slot) (bd bs1 bs2 : BR)
  /-- GHASH (R78): Facet fold of a block into the GHASH accumulator. -/
  | ghash (h : Slot) (bs1 : BR)
  /-- TAG (R47): Facet write of the accumulator XOR a released lens result to a block register. -/
  | tag (h : Slot) (bd bs1 : BR)
  /-- SEQLD (R55): Facet load of a sequencer slot from a 64-byte recipe. -/
  | seqld (h : Slot) (q : Fin 4) (s1 : GR) (imm : BitVec 16)
  /-- SEQGO (R55): Facet start of a sequencer slot for a given block count. -/
  | seqgo (h : Slot) (q : Fin 4) (ctr : BR) (count : Fin 65536)
  /-- SEQWAIT (R55): Facet stall until the last block of a sequencer slot is released. -/
  | seqwait (h : Slot) (q : Fin 4)
  /-- LDK (R36): Facet request that the key store load K from a handle under a declared use code, with the checks of Table 02.5. -/
  | ldk (h : Slot) (d s1 : GR) (use : BitVec 8)
  /-- KSET (R39): Facet move of the derivation buffer into K under a declared use code and algorithm. -/
  | kset (h : Slot) (use : BitVec 8) (alg : BitVec 4)
  /-- KVAR (R39): Facet write of K XOR a mask into the derivation buffer. -/
  | kvar (h : Slot) (v : VR)
  /-- KCOMMIT (R34): Facet instruction that makes the key store write a new record from the subject lane. -/
  | kcommit (h : Slot) (d : GR) (attr : Bytes)
  /-- HINIT (R48): Facet start of a hash or HMAC computation. -/
  | hinit (h : Slot) (alg : Fin 12) (keyed : Bool)
  /-- HUPD (R48): Facet feed of input to the hash unit. -/
  | hupd (h : Slot) (src : HashSrc)
  /-- HFIN (R48): Facet finish of a hash or HMAC computation. -/
  | hfin (h : Slot) (dst : HashDst)
  /-- HSAVE (R48): Facet save of unkeyed hash state; refused for keyed state. -/
  | hsave (h : Slot) (s1 : GR)
  /-- HREST (R48): Facet restore of saved hash state. -/
  | hrest (h : Slot) (s1 : GR)
  /-- CVINIT (R327): Facet start of a check-value computation with a polynomial and an optional context. -/
  | cvinit (h : Slot) (s1 s2 : GR)
  /-- CVUPD (R327): Facet feed of bytes to the check-value unit. -/
  | cvupd (h : Slot) (s1 s2 : GR)
  /-- CVFIN (R327): Facet write of the finished check value to a g register. -/
  | cvfin (h : Slot) (d : GR)
  /-- FLD (R61): Facet load from the current frame by offset. -/
  | fld (h : Slot) (dst : FrameReg) (off : BitVec 16)
  /-- FST (R61): Facet store into the current frame by offset. -/
  | fst (h : Slot) (src : FrameReg) (off : BitVec 16)
  /-- FDONE (R62): Facet end of a stream frame with a verdict and a new start and length. -/
  | fdone (h : Slot)
  /-- CMDIN (R58): Facet copy of command input from the host into the work region. -/
  | cmdin (h : Slot) (d s1 s2 s3 : GR)
  /-- CMDOUT (R58): Facet copy of output to the host output address. -/
  | cmdout (h : Slot) (d s1 s2 s3 : GR)
  /-- DONE (R59): Facet end of a command, with host output written and the completion prepared. -/
  | done (h : Slot)
  /-- WCALL (R72): Facet entry into a gate of the gate table in the inner world. -/
  | wcall (h : Slot) (n : BitVec 16)
  /-- WRET (R73): Facet return from a gate to the outer world, with state scrubbed. -/
  | wret (h : Slot)
  /-- ECALL (R71): Facet call of another entry in the same world. -/
  | ecall (h : Slot) (id : BitVec 16)
  /-- ERET (R71): Facet return from an ECALL. -/
  | eret (h : Slot)
  /-- RNGLD (R320): Facet draw of 64 bits of full-entropy output into a g register. -/
  | rngld (h : Slot) (d : GR)
  /-- GATE_KEY_INFO (R72): Gate 0x00, which returns the state, use and algorithm of a handle. -/
  | gateKeyInfo (h : Slot)
  /-- GATE_OWNER_INFO (R72): Gate 0x01, which returns the owner's key counts and durability mode. -/
  | gateOwnerInfo (h : Slot)
  /-- AUDIT_NOTE (R72): Gate 0x02, which records an owner-attributed event at severity 0. -/
  | auditNote (h : Slot)
  /-- KCV (R123): Gate 0x03, which returns a key check value by the named method. -/
  | kcv (h : Slot)
  /-- FF1 (R233): Vendor entry 0x0100, reached by ECALL, that computes NIST FF1 over numerals in place. -/
  | ff1 (h : Slot)
  /-- LENS_BLOCK_RELEASE (R30): A lens block reaches its compare and is released, or is withheld as a lens mismatch. -/
  | lensBlockRelease (c : FacetCycle) (good : Bool)
  /-- LENS_SELF_TEST (R33): Once per mt, each lens tests its comparator with a forced mismatch. -/
  | lensSelfTest (p : Fin 72) (lens : Fin 2) (good : Bool)
  /-- CYCLE_BUDGET_EXHAUSTED (R70): The work's facet cycle count reaches the entry's budget and the work is abandoned. -/
  | cycleBudgetExhausted (c : FacetCycle)
  /-- FACET_HANG (R480): A transaction or custody facet has not ended its work 65,536 cycles after budget exhaustion, and it is stopped and retired. -/
  | facetHang (p : Fin 72)
  /-- CVU_SELF_TEST (R328): Once per mt, each check-value unit verifies its check values. -/
  | cvuSelfTest (which : CvUnit) (pass : Bool)
  /-- FACET_DRAINED (R51): A draining facet finishes its held work and takes up its new role, or is handed to substitution. -/
  | facetDrained (p : Fin 72)
  /-- SUBSTITUTION (R52): Steward firmware starts replacing a retired physical facet with the lowest spare. -/
  | substitution
  /-- SPARE_TESTED (R52): The spare's known-answer tests end, and the logical number moves to it or the spare is retired. -/
  | spareTested (pass : Bool)
  /-- AGEING_MEASUREMENT (R486): Every 1,600 mt the steward measures facet slowdown and decides ageing retirement. -/
  | ageingMeasurement (ratios : List Ageing)
  /-- KEY_GENERATE (R124): Custody command 0x0101, which creates a record from the entropy source. -/
  | keyGenerate (w : Work)
  /-- KEY_IMPORT (R132): Custody command 0x0102, which creates a record from an X9.143 key block under quorum. -/
  | keyImport (w : Work)
  /-- KEY_IMPORT_WORKING (R134): Command 0x0103, which imports a working key from a key block without quorum. -/
  | keyImportWorking (w : Work)
  /-- KEY_EXPORT (R133): Command 0x0104, which exports an exportable key as a key block. -/
  | keyExport (w : Work)
  /-- KEY_ACTIVATE (R135): Command 0x0105, which moves a PENDING key to ACTIVE after its KCV verifies. -/
  | keyActivate (w : Work)
  /-- KEY_SCHEDULE (R136): Command 0x0106, which arms a FOCUS_BOUND key for a KEY_ACTIVATE instant. -/
  | keySchedule (w : Work)
  /-- KEY_CANCEL (R138): Command 0x0107, which destroys a PENDING key. -/
  | keyCancel (w : Work)
  /-- KEY_SET_LIMIT (R141): Command 0x0108, which lowers a counted key's use limit. -/
  | keySetLimit (w : Work)
  /-- KEY_DESTROY (R89): Command 0x0109, which destroys a live record. -/
  | keyDestroy (w : Work)
  /-- COMP_OPEN (R127): Command 0x0110, which opens a component session with an ML-KEM key. -/
  | compOpen (w : Work)
  /-- COMP_ADD (R128): Command 0x0111, which adds one encrypted component to a session. -/
  | compAdd (w : Work)
  /-- COMP_COMBINE (R129): Command 0x0112, which XORs the components into a new record. -/
  | compCombine (w : Work)
  /-- QUORUM_OPEN (R118): Command 0x0120, which issues a quorum challenge. -/
  | quorumOpen (w : Work)
  /-- CUST_ENROL (R114): Command 0x0130, which fills a custodian slot. -/
  | custEnrol (w : Work)
  /-- CUST_REMOVE (R115): Command 0x0131, which empties a custodian slot. -/
  | custRemove (w : Work)
  /-- QUORUM_POLICY (R115): Command 0x0132, which sets quorum thresholds. -/
  | quorumPolicy (w : Work)
  /-- OWNER_ERASE (R143): Command 0x0140, which crypto-erases one owner. -/
  | ownerErase (w : Work)
  /-- DEVICE_ERASE (R144): Command 0x0141, which zeroises the BBRAM share and causes S-reset. -/
  | deviceErase (w : Work)
  /-- ENCIPHER (R186): Command 0x0201, which enciphers data in the mode of inline byte 48. -/
  | encipher (w : Work)
  /-- DECIPHER (R186): Command 0x0202, which deciphers data. -/
  | decipher (w : Work)
  /-- TRANSLATE (R187): Command 0x0203, which deciphers under A and re-enciphers under B. -/
  | translate (w : Work)
  /-- V1_ENCIPHER_ECB (R179): Version-1 command 0x0210, ECB encipherment. -/
  | v1EncipherEcb (w : Work)
  /-- V1_ENCIPHER_CBC (R179): Version-1 command 0x0211, CBC encipherment. -/
  | v1EncipherCbc (w : Work)
  /-- V1_ENCIPHER_CTR (R179): Version-1 command 0x0212, CTR encipherment. -/
  | v1EncipherCtr (w : Work)
  /-- V1_DECIPHER_ECB (R179): Version-1 command 0x0220, ECB decipherment. -/
  | v1DecipherEcb (w : Work)
  /-- V1_DECIPHER_CBC (R179): Version-1 command 0x0221, CBC decipherment. -/
  | v1DecipherCbc (w : Work)
  /-- V1_DECIPHER_CTR (R179): Version-1 command 0x0222, CTR decipherment. -/
  | v1DecipherCtr (w : Work)
  /-- MAC_GENERATE (R190): Command 0x0301, which computes a MAC. -/
  | macGenerate (w : Work)
  /-- MAC_VERIFY (R190): Command 0x0302, which verifies a MAC. -/
  | macVerify (w : Work)
  /-- PIN_TRANSLATE (R213): Command 0x0401, which translates a PIN block between keys and formats. -/
  | pinTranslate (w : Work)
  /-- PIN_VERIFY_OFFSET (R217): Command 0x0402, which verifies a PIN against an offset. -/
  | pinVerifyOffset (w : Work)
  /-- PIN_VERIFY_PVV (R218): Command 0x0403, which verifies a PIN against a PVV. -/
  | pinVerifyPvv (w : Work)
  /-- PIN_GENERATE (R219): Command 0x0404, which generates a random PIN enciphered. -/
  | pinGenerate (w : Work)
  /-- PIN_OFFSET_GENERATE (R220): Command 0x0405, which computes a PIN offset. -/
  | pinOffsetGenerate (w : Work)
  /-- AC_VERIFY (R225): Command 0x0501, which verifies an ARQC. -/
  | acVerify (w : Work)
  /-- AC_RESPOND (R225): Command 0x0502, which computes an ARPC. -/
  | acRespond (w : Work)
  /-- AC_VERIFY_RESPOND (R225): Command 0x0503, which verifies an ARQC and then computes an ARPC. -/
  | acVerifyRespond (w : Work)
  /-- CVC_VERIFY (R222): Command 0x0510, which verifies a card verification code. -/
  | cvcVerify (w : Work)
  /-- CVC_GENERATE (R222): Command 0x0511, which generates a card verification code. -/
  | cvcGenerate (w : Work)
  /-- DERIVED_ENCIPHER (R192): Command 0x0601, which enciphers under a KDF-derived key. -/
  | derivedEncipher (w : Work)
  /-- DERIVED_DECIPHER (R192): Command 0x0602, which deciphers under a derived key. -/
  | derivedDecipher (w : Work)
  /-- DERIVED_MAC_GENERATE (R192): Command 0x0603, which computes a MAC under a derived key. -/
  | derivedMacGenerate (w : Work)
  /-- DERIVED_MAC_VERIFY (R192): Command 0x0604, which verifies a MAC under a derived key. -/
  | derivedMacVerify (w : Work)
  /-- DUKPT_PIN_TRANSLATE (R229): Command 0x0610, which translates a PIN under a DUKPT-derived key. -/
  | dukptPinTranslate (w : Work)
  /-- DUKPT_MAC_VERIFY (R229): Command 0x0611, which verifies a MAC under a DUKPT key. -/
  | dukptMacVerify (w : Work)
  /-- DUKPT_DECIPHER (R229): Command 0x0612, which deciphers data under a DUKPT key. -/
  | dukptDecipher (w : Work)
  /-- SIGN (R193): Command 0x0701, which signs on a Huxel array. -/
  | sign (w : Work)
  /-- VERIFY (R194): Command 0x0702, which verifies a signature. -/
  | verify (w : Work)
  /-- KEY_AGREE (R196): Command 0x0703, which creates a working key from key agreement. -/
  | keyAgree (w : Work)
  /-- KEM_DECAPSULATE (R196): Command 0x0704, which creates a working key by ML-KEM decapsulation. -/
  | kemDecapsulate (w : Work)
  /-- KEM_ENCAPSULATE (R196): Command 0x0705, which creates a working key by ML-KEM encapsulation. -/
  | kemEncapsulate (w : Work)
  /-- PUBKEY_EXPORT (R196): Command 0x0706, which returns the public components of an extended record. -/
  | pubkeyExport (w : Work)
  /-- RANDOM (R197): Command 0x0801, which returns full-entropy bytes. -/
  | random (w : Work)
  /-- AC_VERIFY_PIN_TRANSLATE (R236): Bundle 0x0901: ARQC verification, then PIN translation. -/
  | acVerifyPinTranslate (w : Work)
  /-- DUKPT_PIN_TRANSLATE_MAC_VERIFY (R236): Bundle 0x0902: DUKPT PIN translation, then MAC verification. -/
  | dukptPinTranslateMacVerify (w : Work)
  /-- AC_VERIFY_PIN_VERIFY (R236): Bundle 0x0903: ARQC verification, then PIN verification. -/
  | acVerifyPinVerify (w : Work)
  /-- SA_INSTALL (R243): Command 0x0A01, which installs a stream association. -/
  | saInstall (w : Work)
  /-- SA_EPOCH_KEY (R199): Command 0x0A02, which installs a new epoch key into a slot. -/
  | saEpochKey (w : Work)
  /-- SA_WITHDRAW (R248): Command 0x0A03, which withdraws an association. -/
  | saWithdraw (w : Work)
  /-- SA_STATS (R270): Command 0x0A04, which returns flow counters. -/
  | saStats (w : Work)
  /-- FOCUS_ADD (R201): Command 0x0B01, which adds a focus entry and distributes it. -/
  | focusAdd (w : Work)
  /-- FOCUS_CANCEL (R201): Command 0x0B02, which removes a focus entry. -/
  | focusCancel (w : Work)
  /-- TIME_READ (R200): Command 0x0B03, which returns Prolith time and discipline state. -/
  | timeRead (w : Work)
  /-- FOCUS_READ (R201): Command 0x0B04, which returns a focus entry. -/
  | focusRead (w : Work)
  /-- OWNER_SET (R359): Command 0x0C01, which writes owner-table fields under a mask. -/
  | ownerSet (w : Work)
  /-- OWNER_RESET (R368): Command 0x0C02, which drains or squashes an owner's accepted work. -/
  | ownerReset (w : Work)
  /-- OWNER_FREEZE (R371): Command 0x0C03, which stops an owner's acceptance and dispatch. -/
  | ownerFreeze (w : Work)
  /-- OWNER_SAVE (R372): Command 0x0C04, which re-seals an owner under a transfer key and returns a migration blob. -/
  | ownerSave (w : Work)
  /-- OWNER_RESTORE (R375): Command 0x0C05, which installs an owner from a migration blob. -/
  | ownerRestore (w : Work)
  /-- OWNER_THAW (R376): Command 0x0C06, which returns a frozen or saved owner to ACTIVE. -/
  | ownerThaw (w : Work)
  /-- PROGRAM_INSTALL (R67): Command 0x0C10, which installs an owner program entry. -/
  | programInstall (w : Work)
  /-- PROGRAM_REMOVE (R202): Command 0x0C11, which removes an owner program entry. -/
  | programRemove (w : Work)
  /-- ROLE_SET (R16): Command 0x0C20, which sets a logical facet's role. -/
  | roleSet (w : Work)
  /-- QUERY_VERSION (R177): Command 0x0F00, which returns the implemented and common command-set versions. -/
  | queryVersion (w : Work)
  /-- KEY_INFO (R204): Command 0x0F01, which returns a record's attributes. -/
  | keyInfo (w : Work)
  /-- KEY_LIST (R204): Command 0x0F02, which lists the owner's handles. -/
  | keyList (w : Work)
  /-- OWNER_INFO (R204): Command 0x0F03, which returns the owner-table entry and counts. -/
  | ownerInfo (w : Work)
  /-- DEVICE_INFO (R204): Command 0x0F04, which returns device identity and facet counts. -/
  | deviceInfo (w : Work)
  /-- OWNER_ENTRY_COMMAND (R69): Commands 0x8000-0x83FF, which run the submitting owner's entry serving that opcode. -/
  | ownerEntryCommand (w : Work) (op : Fin 1024)
  /-- SQ_TAIL_DOORBELL (R148): Host write of QP_SQ_TAIL announcing new submissions. -/
  | sqTailDoorbell (a : Agent) (c : Fin 16384) (v : BitVec 16)
  /-- CQ_HEAD_DOORBELL (R160): Host write of QP_CQ_HEAD releasing completions. -/
  | cqHeadDoorbell (a : Agent) (c : Fin 16384) (v : BitVec 16)
  /-- QP_ENABLE (R147): Write of QP_CTRL.ENABLE = 1, which resets the indices and starts the queue pair. -/
  | qpEnable (a : Agent) (c : Fin 16384) (v : Word)
  /-- QP_DISABLE (R147): Write of QP_CTRL.ENABLE = 0, which stops the queue and releases posted completions. -/
  | qpDisable (a : Agent) (c : Fin 16384) (v : Word)
  /-- SQ_ENTRY_READ (R152): The scheduler takes an SQ entry, stamps it, gives it an ASEQ and classifies it. -/
  | sqEntryRead (c : Fin 16384) (entry : List (BitVec 8))
  /-- TOKEN_REFILL (R363): Every 100 ns each owner's token buckets gain tokens. -/
  | tokenRefill
  /-- ACCEPTANCE_CONDITION_MET (R151): An entry's durability condition holds and AH advances past it. -/
  | acceptanceConditionMet (i : Fin 1048576)
  /-- COMMAND_DISPATCH (R365): An accepted record is dispatched to a free facet by deficit round robin. -/
  | commandDispatch (p : Fin 72) (input : List (BitVec 8))
  /-- COMPLETION_CONDITION_MET (R158): A command's completion half becomes durable in its mode. -/
  | completionConditionMet (i : Fin 1048576)
  /-- COMPLETION_POST (R158): A completion entry is written to the CQ in ASEQ order when there is room. -/
  | completionPost (c : Fin 16384)
  /-- RELEASE_MARK_WRITE (R160): The device writes release marks within 2 µs of a CH write. -/
  | releaseMarkWrite (c : Fin 16384)
  /-- RELEASE_DURABLE (R160): A released record's release becomes durable, it becomes FREE and QP_CH_DUR advances. -/
  | releaseDurable (c : Fin 16384)
  /-- COMMAND_RESUME (R195): A parked command resumes on a transaction facet when its array finishes. -/
  | commandResume (p : Fin 72)
  /-- HUXEL_UNIT_DISPATCH (R309): A free array takes the next unit under the deficit arbiter. -/
  | huxelUnitDispatch (a : Fin 8)
  /-- HUXEL_UNIT_END (R305): An array finishes a unit, checks its invariant and releases or withholds the result. -/
  | huxelUnitEnd (a : Fin 8) (invariantOk seedOk passed : Bool)
  /-- HUXEL_ZEROING_END (R297): The 64-cycle zeroing after a unit ends and the array can take a new unit. -/
  | huxelZeroingEnd (a : Fin 8)
  /-- HX_OFFLINE_REQ (R504): Write of HX_ACTRL.OFFLINE_REQ, which takes an array offline after its running unit. -/
  | hxOfflineReq (a : Agent) (n : Fin 8)
  /-- UNSEAL_FILL_COMPLETE (R90): An unsealing pipeline finishes a record fill, checks it and delivers it to the cache. -/
  | unsealFillComplete (space : Fin 17) (index : Fin 33554432) (crcOk : Bool)
  /-- LEASE_MARK_COMMIT (R92): A lease mark's MRAM write commits and the waiting LDKs consume their uses. -/
  | leaseMarkCommit (space : Fin 17) (hd : Word)
  /-- PAGE_RESEAL (R96): The key store re-seals a page at a new version and queues its export entry. -/
  | pageReseal (page : Fin 17825792)
  /-- EXPORT_ENTRY_WRITE (R97): The key store writes an export entry into the ring when there is room. -/
  | exportEntryWrite
  /-- EXPORT_ACK (R98): Host write of KS_EXP_ACK, which allows entries to be made durable. -/
  | exportAck (a : Agent) (v : Word)
  /-- EXPORT_STALL (R97): The export ring has stayed full for 1,600 mt, and EXP_STALL is set. -/
  | exportStall
  /-- TREE_BATCH_COMMIT (R102): A batch of up to 64 pages is made durable in the page-version tree and KS_EXP_DUR advances. -/
  | treeBatchCommit
  /-- DESTROY_WIPE (R89): Once every holder of a destroyed key has ended its work, its material is zeroed and its page re-sealed. -/
  | destroyWipe (space : Fin 17) (index : Fin 33554432)
  /-- IMPORT_ENTRY (R103): The key store consumes and answers one import ring entry. -/
  | importEntry (slot : List (BitVec 8))
  /-- RELOAD_END (R104): Host write of KS_CTRL.RELOAD_END, which fails unverified groups and completes reload. -/
  | reloadEnd (a : Agent)
  /-- SCRUB_WORD_READ (R105): The scrubber reads an HBM ECC word and writes back a corrected error. -/
  | scrubWordRead (addr : Nat) (bad : Fin 3) (rewritten : Bool) (prog : Option (BitVec 32))
  /-- SCRUB_PASS_END (R105): The 4,096-mt scrub interval ends, with LATE set if the pass overran. -/
  | scrubPassEnd (finished : Bool)
  /-- UNCORRECTABLE_WORD (R106): An uncorrectable HBM word is found and handled by region. -/
  | uncorrectableWord (addr : Nat) (prog : Option (BitVec 32))
  /-- RECORD_RESTORE (R107): A poisoned record is restored from cache, mirror or host and its page re-sealed. -/
  | recordRestore (space : Fin 17) (index : Fin 33554432)
  /-- MRAM_REWRITE (R23): The steward rewrites MRAM words so each is rewritten within 30 days of powered time. -/
  | mramRewrite
  /-- COMP_SESSION_EXPIRY (R127): A component session closes 3,600 s after it opened. -/
  | compSessionExpiry
  /-- FRAME_RECEIVE (R258): A frame received on a stream sub-port passes the prism steps. -/
  | frameReceive (port : Fin 16) (sub : Fin 4) (stamp : Nat) (octets : List (BitVec 8)) (fcsOk overflow : Bool)
  /-- CONTEXT_FILL_COMPLETE (R246): A flow context fill ends and the frames waiting for it proceed. -/
  | contextFillComplete (flow : Fin 1048576)
  /-- FRAME_DISPATCH (R261): A ready frame is dispatched to the least-loaded eligible stream facet with K loaded. -/
  | frameDispatch
  /-- FRAME_RELEASE (R262): The collimator releases a flow's next frame in sequence, with the final replay check. -/
  | frameRelease (flow : Fin 1048576)
  /-- PN_MARK_WRITE (R260): The prism writes a slot's PN mark ahead of use, unblocking frames waiting for it. -/
  | pnMarkWrite (flow : Fin 1048576) (slot : Fin 2)
  /-- LAG_EPISODE_START (R272): A stream facet's age reaches PRM_LAG_LIMIT and dispatch to it stops. -/
  | lagEpisodeStart (p : Fin 72)
  /-- LAG_EPISODE_END (R272): A lagging facet holds no frames and dispatch resumes. -/
  | lagEpisodeEnd (p : Fin 72)
  /-- STREAM_FACET_HANG (R273): A stream facet's age reaches 4 × PRM_LAG_LIMIT, its frames are abandoned and it is retired. -/
  | streamFacetHang (p : Fin 72)
  /-- EPOCH_OVERLAP_END (R295): An ingress RETIRING slot becomes EMPTY at the instant plus the overlap. -/
  | epochOverlapEnd
  /-- FOCUS_KEY_ACTIVATE (R137): A KEY_ACTIVATE instant arrives: the key becomes ACTIVE and its predecessor RETIRED. -/
  | focusKeyActivate (e : Fin 4096)
  /-- EPOCH_SWITCH (R293): An EPOCH_SWITCH instant arrives and the STANDBY slots of the named flows become ACTIVE. -/
  | epochSwitch (e : Fin 4096)
  /-- BATCH_CUT (R296): A BATCH_CUT instant arrives and acceptances take the new batch number. -/
  | batchCut (e : Fin 4096)
  /-- ROLE_CHANGE (R16): A ROLE_CHANGE instant arrives and the masked facets start draining to the new role. -/
  | roleChange (e : Fin 4096)
  /-- PROGRAM_SWAP (R291): A PROGRAM_SWAP instant arrives and the held program versions take effect. -/
  | programSwap (e : Fin 4096)
  /-- RATE_CHANGE (R366): A RATE_CHANGE instant arrives and the owner's budget fields change. -/
  | rateChange (e : Fin 4096)
  /-- FOCUS_ADDING_TIMEOUT (R289): An ADDING entry is not held by every node 1 mt before its instant and is freed. -/
  | focusAddingTimeout (e : Fin 4096)
  /-- FOCUS_ENTRY_FREE (R289): A DONE or REFUSED entry becomes FREE 1,600 mt after its instant. -/
  | focusEntryFree (e : Fin 4096)
  /-- PTP_MESSAGE (R278): A PTP event message for the port's own clock is taken as a time sample. -/
  | ptpMessage (port : Fin 16) (sub : Fin 4) (transport : Fin 3) (domain : BitVec 7) (src : Nat) (m : PtpMsg)
  /-- PPS_EDGE (R279): A PPS_IN edge supplies a time sample. -/
  | ppsEdge (stamp : Nat)
  /-- TOD_MESSAGE (R279): A time-of-day message is received and checked. -/
  | todMessage (stamp : Nat) (octets : List (BitVec 8))
  /-- SAMPLE_TIMEOUT (R280): No valid time sample for 4 s moves discipline to HOLDOVER. -/
  | sampleTimeout
  /-- PPS_OUT_PULSE (R284): A PPS_OUT pulse starts at each whole second of Prolith time. -/
  | ppsOutPulse
  /-- TIME_FLOOR_WRITE (R283): Every 1,024 mt the steward writes the time floor to MRAM. -/
  | timeFloorWrite
  /-- TIME_SOURCE_WRITE (R280): Write of FOC_TCFG.SRC, which changes the discipline state. -/
  | timeSourceWrite (a : Agent) (v : Word)
  /-- SOURCE_TEST_FAILURE (R316): A noise source fails a health test and is excluded. -/
  | sourceTestFailure (n : Fin 28) (apt : Bool)
  /-- STARTUP_TEST_END (R315): A noise source's 4,096-sample start-up test ends with admission or exclusion. -/
  | startupTestEnd (n : Fin 28) (pass : Bool) (apt : Bool)
  /-- SOURCE_RETEST (R317): An excluded source retests 1 mt after its exclusion. -/
  | sourceRetest (n : Fin 28)
  /-- CONDITIONER_BLOCK_CLOSE (R318): A conditioner closes a block and pushes 256 bits into the output FIFO. -/
  | conditionerBlockClose (c : Fin 8) (chunks : List Chunk)
  /-- ENTROPY_REQUEST (R320): A consumer's entropy request is served from the FIFO or answered S_ENTROPY. -/
  | entropyRequest (consumer : Nat) (bits : Fin 257)
  /-- CVU_START (R329): Write of CVU_CTRL.START, which opens a steward check-value computation. -/
  | cvuStart (a : Agent)
  /-- CVU_DATA_WRITE (R329): Write of CVU_DATA, which feeds bytes to the steward unit. -/
  | cvuDataWrite (a : Agent) (v : Word)
  /-- ALIGNMENT_MARKER (R334): A ring lane receives an alignment marker position and hunts or keeps lock. -/
  | alignmentMarker (port : Fin 2) (lane : Fin 4) (pos : Nat) (m : Option Marker)
  /-- TIME_BLOCK (R333): A ring time block is received and used as a time sample if valid. -/
  | timeBlock (b : TimeBlock)
  /-- RING_LINK_UP (R336): A ring port comes up, authenticates and forms link keys. -/
  | ringLinkUp (port : Fin 2) (serial cert digest secrets : List (BitVec 8))
  /-- RING_LINK_DOWN (R335): A ring port's receive direction goes down and retrains. -/
  | ringLinkDown (port : Fin 2)
  /-- LINK_REKEY (R336): A link direction moves to a derived key before its sequence number reaches 2^31. -/
  | linkRekey (port : Fin 2) (at_ : Nat)
  /-- LINK_ACK_SEND (R337): The receiver sends a LINK_ACK every 64 frames or 100 ns. -/
  | linkAckSend (port : Fin 2)
  /-- LINK_ACK (R337): A cumulative link acknowledgement frees retry buffer space. -/
  | linkAck (h : RHead) (acked : Nat) (rekey : Option Nat)
  /-- LINK_NAK (R337): A link NAK makes the sender resend from the named frame. -/
  | linkNak (h : RHead) (first : Nat)
  /-- MIRROR (R342): A holder receives mirror entries and stores and acknowledges them. -/
  | mirror (h : RHead) (home : Fin 16) (n : Nat) (kind : Fin 9) (key : Nat) (data : List (BitVec 8))
  /-- MIRROR_ACK (R342): The holder's acknowledgement meets mode 2 and 3 durability conditions. -/
  | mirrorAck (h : RHead) (n : Nat)
  /-- LEASE_REQ_TIMER (R344): Every 250 µs a MEMBER node sends LEASE_REQ to its successor. -/
  | leaseReqTimer
  /-- LEASE_REQ (R344): A successor receives a lease request and answers with a grant. -/
  | leaseReq (h : RHead)
  /-- LEASE_GRANT (R344): A node receives a lease grant and renews its lease. -/
  | leaseGrant (h : RHead) (count : Nat)
  /-- LEASE_END (R345): A node's lease ends 1.9 ms after its last grant and it becomes FENCED. -/
  | leaseEnd
  /-- GRANTED_LEASE_EXPIRY (R346): A successor counts a predecessor's lease as expired and, with proof, takes it over. -/
  | grantedLeaseExpiry
  /-- TAKEOVER_RESEAL_DONE (R347): The taken-over set's re-sealed pages are durable and its copy epoch can start. -/
  | takeoverResealDone (home : Fin 16)
  /-- HOLDER_LOST (R343): A node learns its holder is lost and its mode 2 and 3 owners enter fallback. -/
  | holderLost (h : RHead) (home : Fin 16)
  /-- HOLDER_PORT_TIMEOUT (R343): The port toward the holder has been down 100 µs and the holder is treated as lost. -/
  | holderPortTimeout
  /-- TAKEOVER (R349): A TAKEOVER frame arrives and marks the named owners taken over. -/
  | takeover (h : RHead) (taker node : Fin 16) (owners : List (Fin 4096))
  /-- JOIN (R339): A join request or answer is received and checked for versions and table digest. -/
  | join (h : RHead) (m : JoinMsg)
  /-- MEMBERS (R339): A MEMBERS frame updates the member list and version in use. -/
  | members (h : RHead) (order : List (Fin 16)) (members : BitVec 16) (ver cmds : Nat) (homes : List (Fin 4096 × Fin 16))
  /-- COPY_DATA (R350): The holder stores bulk protected state of a copy epoch. -/
  | copyData (h : RHead) (home : Fin 16) (epoch : Nat) (kind : Fin 9) (key : Nat) (data : List (BitVec 8))
  /-- COPY_SEAL (R350): The holder verifies a copy epoch's digest and seals it. -/
  | copySeal (h : RHead) (home : Fin 16) (epoch n : Nat) (digest : List (BitVec 8))
  /-- COPY_SEAL_ACK (R350): The copier learns its set is sealed and leaves fallback. -/
  | copySealAck (h : RHead) (epoch : Nat)
  /-- COPY_ABORT (R351): Either end abandons a copy epoch and the half is freed. -/
  | copyAbort (h : RHead) (epoch : Nat) (digestFail : Bool)
  /-- COPY_LINK_TIMEOUT (R351): The copy link has stayed down 100 µs and the epoch ends unsealed. -/
  | copyLinkTimeout
  /-- COPY_RETRY_TIMER (R351): After two digest failures the copier retries after 1,600 mt. -/
  | copyRetryTimer
  /-- FOCUS (R290): A ring FOCUS frame adds or removes focus entries. -/
  | focus (h : RHead) (m : FocusMsg)
  /-- RECORD_REQ (R107): A holder receives a request for mirrored records. -/
  | recordReq (h : RHead) (space : Fin 17) (index : Fin 33554432)
  /-- RECORD_DATA (R107): A node receives records answering RECORD_REQ. -/
  | recordData (h : RHead) (space : Fin 17) (index : Fin 33554432) (data : List (BitVec 8))
  /-- PASS_MIRROR_INSERTED (R332): The sensor reports the pass mirror fully inserted. -/
  | passMirrorInserted
  /-- PASS_MIRROR_PASSED (R332): The sensor reports the pass mirror fully in pass. -/
  | passMirrorPassed
  /-- PASS_MIRROR_TIMEOUT (R332): The mirror does not reach its end position in time and goes to FAULT. -/
  | passMirrorTimeout
  /-- RING_ENABLE_WRITE (R338): Write of VR_CFG.ENABLE, which inserts or removes the node from the ring. -/
  | ringEnableWrite (a : Agent) (v : Word)
  /-- FORCE_OPEN (R340): Write of VR_CFG.FORCE_OPEN, which opens waiting mode 2 and 3 owners. -/
  | forceOpen (a : Agent)
  /-- OWNER_RESET_COMPLETE (R368): An owner reset's drain or squash ends and the owner returns to ACTIVE. -/
  | ownerResetComplete (o : Fin 4096)
  /-- FREEZE_DRAINED (R371): A frozen owner has no executing or parked work and OWNER_FREEZE completes. -/
  | freezeDrained (o : Fin 4096)
  /-- RESTORE_PAGES_LIVE (R375): Every page of a restoring owner is live or lost and the owner becomes FROZEN. -/
  | restorePagesLive (o : Fin 4096)
  /-- NUMVFS_WRITE (R357): A lower NumVFs makes VFs absent as a function level reset. -/
  | numvfsWrite (port : Fin 4) (n : Fin 1025)
  /-- FUNCTION_LEVEL_RESET (R358): A function level reset stops the function's queues and recovers their records. -/
  | functionLevelReset (f : FnId)
  /-- PORT_HOT_RESET (R358): A hot reset or link-down of a host port resets every function of the port. -/
  | portHotReset (port : Fin 4)
  /-- SPDM_REQUEST (R378): An SPDM request reaches the DOE or Periscope responder and is answered. -/
  | spdmRequest (port : Fin 4) (periscope : Bool) (m : SpdmMsg)
  /-- IDE_KM (R379): An IDE_KM message in a secured session programs IDE stream keys. -/
  | ideKm (port : Fin 4) (m : IdeMsg)
  /-- LOCK_INTERFACE (R380): TDISP LOCK_INTERFACE locks a VF's TDI. -/
  | lockInterface (port : Fin 4) (vf : Fin 1024) (stream : Fin 65)
  /-- STOP_INTERFACE (R380): TDISP STOP_INTERFACE returns a TDI to CONFIG_UNLOCKED. -/
  | stopInterface (port : Fin 4) (vf : Fin 1024)
  /-- APT_BAR_WRITE (R388): Write of APT_BAR, which checks and applies the named units' staged descriptors. -/
  | aptBarWrite (a : Agent) (units : BitVec 12)
  /-- APT_BAR_READ (R389): Read of APT_BAR, which stalls until the barrier settles and returns the units that refused. -/
  | aptBarRead (a : Agent)
  /-- APT_LOCK_WRITE (R390): Write of APT_LOCK, which applies the unit's set and locks a descriptor. -/
  | aptLockWrite (a : Agent) (u : Fin 12) (mask : Word)
  /-- ARB_HOLD_CUT (R397): A grant reaches HOLD fabric cycles and is cut off. -/
  | arbHoldCut (a : Fin 8) (now : BitVec 16) (arrivals : List ArbArrival)
  /-- ARB_BURST_END (R396): A holder uses up its BURST transfers and is re-stamped. -/
  | arbBurstEnd (a : Fin 8) (now : BitVec 16) (arrivals : List ArbArrival)
  /-- ARB_SATURATION (R395): A waiting request's age reaches 32,768 fabric cycles and it saturates. -/
  | arbSaturation (a : Fin 8) (master : BitVec 10) (arrivals : List ArbArrival)
  /-- HOLDOFF_EXPIRY (R401): A group's hold-off timer expires and its latched sources become pending. -/
  | holdoffExpiry (g : Fin 64)
  /-- EVR_CLAIM_READ (R407): Read of EVR_CLAIM, which claims the offered source. -/
  | evrClaimRead (a : Agent) (t : Fin 6)
  /-- EVR_COMPLETE_WRITE (R408): Write of EVR_COMPLETE, which pops a claimed source. -/
  | evrCompleteWrite (a : Agent) (t : Fin 6) (src : Fin 2048)
  /-- PRIGROUP_WRITE (R409): Write of EVR_PRIGROUP, applied once every stack is empty. -/
  | prigroupWrite (a : Agent) (v : BitVec 3)
  /-- PRIO_ENABLE (R410): Write of EVR_CTRL.PRIO_EN = 1, which checks the priority table and enters priority mode. -/
  | prioEnable (a : Agent)
  /-- PRIO_DISABLE (R410): Write of PRIO_EN = 0, which returns the router to fall-back mode. -/
  | prioDisable (a : Agent)
  /-- PRIO_TABLE_CHECK (R410): Once per mt the router re-checks the priority table CRC. -/
  | prioTableCheck (parityError : Bool)
  /-- EVR_SWSET_WRITE (R399): Write of EVR_SWSET, which latches software sources. -/
  | evrSwsetWrite (a : Agent) (mask : Word)
  /-- TARGET_UNAVAILABLE (R405): A router target becomes unavailable and its claims count as completed. -/
  | targetUnavailable (t : Fin 6)
  /-- EVENT_FLUSH_TIMER (R417): Every 1,024 mt the steward flushes unflushed event records to MRAM. -/
  | eventFlushTimer
  /-- LOG_FLUSH (R417): Write of LOG_CTRL.FLUSH, which starts an event flush. -/
  | logFlush (a : Agent)
  /-- LOG_SELECT (R419): Write of LOG_SEL_HI, which copies the selected record into LOG_WIN. -/
  | logSelect (a : Agent) (hi : Word)
  /-- LC_CMD_GO (R425): Write of LC_CMD.GO, which submits a life-cycle transition request. -/
  | lcCmdGo (a : Agent) (v : Word)
  /-- LC_PROGRAMMING_COMPLETE (R425): Life-cycle OTP programming ends and P-reset follows. -/
  | lcProgrammingComplete (ok : Bool)
  /-- TAMPER_ALARM (R434): A tamper sensor enters alarm with main power and the response runs. -/
  | tamperAlarm (n : Fin 8)
  /-- TAMPER_ALARM_CLEAR (R435): A sensor leaves alarm, ending its episode and any hold. -/
  | tamperAlarmClear (n : Fin 8)
  /-- UNPOWERED_TAMPER_EPISODE (R437): Without main power a sensor alarms, possibly zeroising the share, and the pending count rises. -/
  | unpoweredTamperEpisode (n : Fin 8)
  /-- CELL_LOW (R439): A cell falls below 2.6 V and CELL_LOW_SEEN is set. -/
  | cellLow (k : Fin 2)
  /-- LOUPE_EXTEST (R426): Loupe instruction EXTEST, with S-reset first in Production and End-of-life. -/
  | loupeExtest (pads : List (BitVec 8)) (drive : List (BitVec 8))
  /-- LOUPE_IDCODE (R426): Loupe instruction IDCODE. -/
  | loupeIdcode
  /-- LOUPE_SAMPLE_PRELOAD (R426): Loupe instruction SAMPLE/PRELOAD. -/
  | loupeSamplePreload (pads : List (BitVec 8)) (drive : List (BitVec 8))
  /-- LOUPE_CLAMP (R426): Loupe instruction CLAMP. -/
  | loupeClamp (pads : List (BitVec 8)) (drive : List (BitVec 8))
  /-- LOUPE_HIGHZ (R426): Loupe instruction HIGHZ. -/
  | loupeHighz
  /-- LOUPE_LC_READ (R426): Loupe instruction LC_READ, which returns LC_STATE. -/
  | loupeLcRead
  /-- LOUPE_LC_XFER (R424): Loupe instruction LC_XFER, which requests a life-cycle transition. -/
  | loupeLcXfer (target : Fin 4) (token : List (BitVec 8))
  /-- LOUPE_DBG_CHAL (R429): Loupe instruction DBG_CHAL, which draws a fresh debug challenge. -/
  | loupeDbgChal
  /-- LOUPE_DBG_CERT (R430): Loupe instruction DBG_CERT, which presents a debug certificate. -/
  | loupeDbgCert (cert : List (BitVec 8))
  /-- LOUPE_DBG_ACCESS (R427): Loupe instruction DBG_ACCESS, which issues an access as master 0x0B8. -/
  | loupeDbgAccess (t : DbgTarget) (write : Bool) (data : BitVec 64)
  /-- LOUPE_DBG_CTRL (R428): Loupe instruction DBG_CTRL: halt, step, resume or trace select. -/
  | loupeDbgCtrl (unit : Fin 73) (op : Fin 4) (sel : Nat)
  /-- LOUPE_BYPASS (R426): Loupe instruction BYPASS and any undefined code. -/
  | loupeBypass
  /-- P_RESET (R444): A P-reset takes effect, followed by release steps 1 to 7. -/
  | pReset (mirrorPass : Bool)
  /-- S_RESET (R444): An S-reset begins after its flush or 1 ms, followed by steps 2 to 7. -/
  | sReset (mirrorPass : Bool)
  /-- C_RESET (R445): A C-reset stops the engines, restarts the steward and resumes within 5 ms. -/
  | cReset (digestOk : Bool)
  /-- PWRGOOD_LOW (R446): PWRGOOD falls and requests P-reset. -/
  | pwrgoodLow
  /-- RST_N_ASSERT (R446): RST_N is low for 1 µs and requests P-reset. -/
  | rstNAssert
  /-- SUPPLY_POR (R446): A main rail falls below its POR threshold and requests P-reset. -/
  | supplyPor
  /-- PERST_ASSERT (R446): PERST# is asserted on a host port, resetting the port or the device. -/
  | perstAssert (port : Fin 4)
  /-- WATCHDOG_EXPIRY (R446): The steward watchdog has gone 32 mt unserviced and S-reset is requested. -/
  | watchdogExpiry
  /-- CRITICAL_STATE_ERROR (R483): A critical-state condition records an event and requests S-reset. -/
  | criticalStateError (row : Fin 10)
  /-- SOFTWARE_C_RESET (R446): Write of RST_CTRL.REQ = 1, requesting a C-reset. -/
  | softwareCReset (a : Agent)
  /-- SOFTWARE_S_RESET (R446): Write of RST_CTRL.REQ = 2, requesting an S-reset. -/
  | softwareSReset (a : Agent)
  /-- SOFTWARE_P_RESET (R446): Write of RST_CTRL.REQ = 3, requesting a P-reset. -/
  | softwarePReset (a : Agent)
  /-- RING_FENCING_RESET (R446): A TAKEOVER naming a MEMBER node requests its S-reset. -/
  | ringFencingReset
  /-- PLL_LOCKED (R443): The root PLL locks and release step 2 ends. -/
  | pllLocked
  /-- PLL_LOCK_TIMEOUT (R443): The PLL has not locked in 1 ms, so it restarts or start fails with FAIL = 8. -/
  | pllLockTimeout
  /-- PLL_LOSS_OF_LOCK (R443): The PLL loses lock while running, a critical-state error. -/
  | pllLossOfLock
  /-- START_STEP_1 (R451): Release step 1: battery domain, OTP, life-cycle decode and tamper counter. -/
  | startStep1 (bad : Nat)
  /-- START_STEP_3 (R451): Release step 3: MRAM and HBM domains powered, HBM trained and zeroised. -/
  | startStep3 (hbmOk mramOk : Bool)
  /-- START_STEP_4 (R455): Release step 4: steward self-test and image load and verification. -/
  | startStep4 (image : List (BitVec 8))
  /-- START_STEP_5 (R451): Release step 5: keys formed, key store reloaded and FCT_MAP rebuilt. -/
  | startStep5 (treeOk : Bool)
  /-- START_STEP_6 (R451): Release step 6: ring join and focus table copy. -/
  | startStep6 (late : Bool) (kat : List (BitVec 8))
  /-- START_STEP_7 (R451): Release step 7: VFs appear, journal recovered, ports enabled and acceptance opened. -/
  | startStep7 (floorBad : Bool)
  /-- DEV_BOOT_GO (R453): Write of DEV_BOOT_CTRL.GO, which starts an image read through the H0 mailbox. -/
  | devBootGo (a : Agent) (image : List (BitVec 8))
  /-- IMAGE_SOURCE_TIMEOUT (R453): No image header arrives within 2 s, FAIL = 7 is set and recovery waits. -/
  | imageSourceTimeout
  /-- POWER_FAIL_TRIGGER (R459): VIN low or PFAIL_N low for 1 µs starts the hold-up sequence. -/
  | powerFailTrigger (vin : Bool)
  /-- POWER_FAIL_END (R459): The rails collapse, or VIN stays good for 10 ms, and a P-reset ends the sequence. -/
  | powerFailEnd (collapse : Bool)
  /-- VHOLD_LOW (R462): VHOLD below 11.4 V for 1 ms sets VHOLD_LOW_SEEN. -/
  | vholdLow
  /-- VAUX_RISE (R466): VAUX rises from absent and the Periscope state resets. -/
  | vauxRise
  /-- VAUX_FALL (R509): VAUX falls below its POR threshold and P-reset is held. -/
  | vauxFall
  /-- SMBUS_TIMEOUT (R469): SCL is held low 25 ms and the port discards the packet. -/
  | smbusTimeout
  /-- ENTDAA (R464): I3C CCC ENTDAA assigns a dynamic address and enters I3C mode. -/
  | entdaa (addr : BitVec 7)
  /-- SETDASA (R464): I3C CCC SETDASA assigns a dynamic address from the static one. -/
  | setdasa (static dyn : BitVec 7)
  /-- SETNEWDA (R464): I3C CCC SETNEWDA changes the dynamic address. -/
  | setnewda (old new : BitVec 7)
  /-- RSTDAA (R464): I3C CCC RSTDAA returns the port to SMBus mode. -/
  | rstdaa
  /-- ENEC (R464): I3C CCC ENEC enables events such as IBIs. -/
  | enec (target : Option (BitVec 7)) (events : BitVec 8)
  /-- DISEC (R464): I3C CCC DISEC disables events. -/
  | disec (target : Option (BitVec 7)) (events : BitVec 8)
  /-- GETPID (R465): I3C CCC GETPID returns the provisioned ID. -/
  | getpid (target : BitVec 7)
  /-- GETBCR (R464): I3C CCC GETBCR returns 0x06. -/
  | getbcr (target : BitVec 7)
  /-- GETDCR (R464): I3C CCC GETDCR returns 0x00. -/
  | getdcr (target : BitVec 7)
  /-- GETSTATUS (R464): I3C CCC GETSTATUS returns device status. -/
  | getstatus (target : BitVec 7)
  /-- GETMRL (R464): I3C CCC GETMRL returns the maximum read length. -/
  | getmrl (target : BitVec 7)
  /-- SETMRL (R464): I3C CCC SETMRL sets the maximum read length. -/
  | setmrl (target : Option (BitVec 7)) (n : BitVec 16)
  /-- SET_ENDPOINT_ID (R470): MCTP control Set Endpoint ID assigns the endpoint ID. -/
  | setEndpointId (h : Packet) (op : BitVec 2) (eid : BitVec 8)
  /-- GET_ENDPOINT_ID (R470): MCTP control Get Endpoint ID. -/
  | getEndpointId (h : Packet)
  /-- GET_ENDPOINT_UUID (R470): MCTP control Get Endpoint UUID. -/
  | getEndpointUuid (h : Packet)
  /-- GET_MCTP_VERSION_SUPPORT (R470): MCTP control Get MCTP Version Support. -/
  | getMctpVersionSupport (h : Packet) (sel : BitVec 8)
  /-- GET_MESSAGE_TYPE_SUPPORT (R471): MCTP control Get Message Type Support, listing the types served now. -/
  | getMessageTypeSupport (h : Packet)
  /-- GET_VENDOR_MESSAGE_SUPPORT (R470): MCTP control Get Vendor Defined Message Support. -/
  | getVendorMessageSupport (h : Packet) (sel : BitVec 8)
  /-- PLDM_MESSAGE (R472): A PLDM base or platform monitoring request is served. -/
  | pldmMessage (h : Packet) (typ cmd inst : BitVec 8) (sensor : Option (Fin 11)) (data : List (BitVec 8))
  /-- PLDM_SENSOR_EVENT (R472): A sensor crosses a threshold and a PlatformEventMessage is sent. -/
  | pldmSensorEvent (sensor : Fin 11)
  /-- PSC_VERSION (R473): Periscope vendor message VERSION. -/
  | pscVersion (h : VendorHead)
  /-- PSC_STATUS (R473): Periscope vendor message STATUS, returning status registers. -/
  | pscStatus (h : VendorHead)
  /-- LOG_READ (R473): Periscope vendor message LOG_READ, returning event records. -/
  | logRead (h : VendorHead) (seq : BitVec 64) (count : BitVec 8)
  /-- REGION_READ (R473): Periscope vendor message REGION_READ, returning MRAM region bytes. -/
  | regionRead (h : VendorHead) (region : BitVec 8) (zeros : BitVec 24) (off len : BitVec 32)
  /-- PSC_RESET (R474): Periscope vendor message RESET, raising a reset request from source 8. -/
  | pscReset (h : VendorHead) (level : BitVec 8)
  /-- LC_TRANSITION (R475): Periscope vendor message LC_TRANSITION, requesting a life-cycle transition. -/
  | lcTransition (h : VendorHead) (target : BitVec 8) (zeros : BitVec 24) (token : List (BitVec 8))
  /-- DBG_CHALLENGE (R475): Periscope vendor message DBG_CHALLENGE, drawing a debug challenge. -/
  | dbgChallenge (h : VendorHead)
  /-- PSC_DBG_CERT (R475): Periscope vendor message DBG_CERT, delivering a certificate part. -/
  | pscDbgCert (h : VendorHead) (off : BitVec 32) (final : BitVec 8) (zeros : BitVec 24) (data : List (BitVec 8))
  /-- IMAGE_CHUNK (R476): Periscope vendor message IMAGE_CHUNK, delivering an image chunk. -/
  | imageChunk (h : VendorHead) (off : BitVec 32) (final : BitVec 8) (zeros : BitVec 24) (data : List (BitVec 8))
  /-- ALERT_ACK (R477): Periscope vendor message ALERT_ACK, completing a claimed alert source. -/
  | alertAck (h : VendorHead) (src : BitVec 16)
  /-- ALERT_CFG (R479): Periscope vendor message ALERT_CFG, writing PSC_CFG. -/
  | alertCfg (h : VendorHead) (v : Word)
  /-- PSC_ALERT_OFFER (R477): Target 5 is offered a source, and the controller claims it and announces the alert. -/
  | pscAlertOffer (lost : Bool)
  /-- ALERT_RESPONSE_READ (R477): A read of the Alert Response Address returns the static address and releases PSC_ALERT_N. -/
  | alertResponseRead
  /-- MAIN_RAIL_ALERT (R478): With VAUX only, the island raises alert 138 when the main rails come or go. -/
  | mainRailAlert (lost : Bool)
  /-- FCT_PERF_CLEAR (R501): Write of FCT_PERF_CTRL.CLEAR, which zeroes the performance counters. -/
  | fctPerfClear (a : Agent) (p : Fin 72)
  /-- LATCHING_LO_READ (R497): Read of a latching LO register, which latches the HI half for the reading agent. -/
  | latchingLoRead (a : Agent) (r : RegAddr) (len : Nat)
  /-- LATCHED_HI_READ (R497): Read of a HI register, which consumes the agent's pending copy. -/
  | latchedHiRead (a : Agent) (r : RegAddr) (len : Nat)
  /-- RC_READ (R4): Read of an RC field, which returns the value and clears it. -/
  | rcRead (a : Agent) (r : RegAddr) (len : Nat)
  /-- REGISTER_WRITE (R4): Write to a register with no row of its own, applied per its access codes and writer rules. -/
  | registerWrite (a : Agent) (r : RegAddr) (len : Nat) (v : BitVec 64)
  /-- PWRGOOD_RISE (R440): PWRGOOD rises, or RST_N is released, ending a held P-reset; the straps are sampled and release step 1 begins. -/
  | pwrgoodRise (straps : BitVec 12)
  /-- MANAGEMENT_TICK (R13): The 625 µs management tick advances the 64-bit DEV_MTICK count and paces mt-counted timers. -/
  | managementTick
  /-- TIME_FLOOR_PASSED (R283): Prolith time exceeds the MRAM time floor at a start, and acceptance and focus execution open. -/
  | timeFloorPassed
  /-- STREAM_LINK_CHANGE (R263): A stream sub-port gains or loses PCS and FEC alignment, changing SP_STATUS.LINK and latching LINK_CHG. -/
  | streamLinkChange (port : Fin 16) (sub : Fin 4) (up : Bool)
  /-- FRAME_TRANSMIT (R263): A sub-port finishes transmitting a frame, counting it and freeing transmit buffer space so held releases can resume. -/
  | frameTransmit (port : Fin 16) (sub : Fin 4)
  /-- HOST_LINK_UP (R452): A host port's PCIe link finishes training, for example after PERST# deassertion, and latches router source 116. -/
  | hostLinkUp (port : Fin 4)
  /-- HOST_DMA_COMPLETE (R58): A host DMA transfer for CMDIN, CMDOUT or input prefetch completes, or fails with a host-side error, and the stalled instruction proceeds. -/
  | hostDmaComplete (c : FacetCycle) (ok : Bool) (data : List (BitVec 8))
  /-- PSC_NOTIFY_RETRY (R467): After losing arbitration, the Periscope controller retries its notification once SCL and SDA have been high for 50 µs, up to 8 times. -/
  | pscNotifyRetry (lost : Bool)
  deriving DecidableEq, Repr

end Sys2Proof
end

