-- ==== Sys2Proof/Config.lean ====
section
/-! DEFINITION. Config.lean: the free values: what the spec leaves open, as constants with no body, so that nothing
can be proved about them. Log entry 2. -/

namespace Sys2Proof.Config

/-- A number the spec leaves open, fresh at each value of the model's counter. -/
opaque freeNat : Nat → Nat

/-- Full-entropy output (12 R318): the block the conditioners deliver next. -/
opaque entropy : Nat → W256

/-- Is a taken branch's offset counted from the instruction after the branch (03 Table 03.2 does not say)? -/
opaque branchFromNext : Bool

/-- The block register a paired LENS writes from lens 1 (03 Table 03.2 names one destination for both). -/
opaque pairedDest : Fin 8 → Fin 8

/-- The output-buffer offset a LENS with the destination "output memory" writes (03 Table 03.2 gives no field for it). -/
opaque lensOutOffset : Fin 8 → Nat

/-- The high half of a product whose signed and unsigned readings differ (03 R55 does not say which MULH gives). -/
opaque mulHigh : W64 → W64 → W64

/-- The result of a shift by 64 or more (03 R55 names no width rule). Kind 0 SHL, 1 SHR, 2 SAR. -/
opaque longShift : Nat → W64 → W64 → W64

/-- A result that the spec names by its mnemonic only: function number, operands. -/
opaque vectorOp : Nat → W256 → W256 → W256

/-- Do BLT and BGE compare signed (03 Table 03.3 names them by their mnemonic only)? -/
opaque branchSigned : Bool

/-- Does a byte, halfword or word load sign-extend (03 Table 03.3 names the loads by their mnemonic only)? -/
opaque loadSigned : Bool

/-- The frequency estimate that a time sample gives, in nanoseconds a management tick, from the last one and the offset (10 R281). -/
opaque freqEstimate : Int → Int → Int

/-- The clock identity of the part, and the headers under which a PTP message leaves on each transport (10 R278). -/
opaque ptpIdentity : List (BitVec 8)
opaque ptpHeader : Nat → List (BitVec 8)

/-- The page of a predecessor's copy at an offset of the mirror area, whose layout the spec leaves to the holder (01 Table 01.11). -/
opaque mirrorPage : Nat → Nat

/-- What VMOVG writes: to a vector register (old vector, general) and to a general register. -/
opaque vmovToVector : W256 → W64 → W256
opaque vmovToGeneral : W256 → W64 → W64

/-- K3 of a three-key TDES key in the derivation buffer, whose place no rule states (08 R226). -/
opaque derivThird : W256 → W64

/-- The PAN digits that a pair of general registers holds for PPAN (03 names no layout). -/
opaque pairDigits : W64 → W64 → List (Fin 10)

/-- The companion status register of RNGLD's destination (03 does not say which register it is). -/
opaque companion : Fin 32 → Fin 32

/-- The image that HSAVE writes for an unkeyed hash state (02 R48 gives no layout): algorithm and the bytes fed. -/
opaque hashImage : Nat → Bytes → Bytes

/-- The PUF response of the part, corrected (05 Table 05.1). -/
opaque pufKey : Bytes

/-- Public-key arithmetic (11): the model names what an array computes and keeps its mathematics free. Private and public
components of a fresh key from an algorithm code, the RSA modulus bits and exponent, and a seed. -/
opaque pkKeygen : Nat → Nat → Nat → Nat → Bytes × Bytes

/-- A key pair from a seed in the algorithm's own key generation (05 Table 05.1). -/
opaque pkFromSeed : Nat → Bytes → Bytes × Bytes

/-- A signature: algorithm, private components, the inline bytes 48 to 53, context, message or digest, randomness. -/
opaque pkSign : Nat → Bytes → Bytes → Bytes → Bytes → Nat → Bytes

/-- Does a signature verify: algorithm, public components, inline bytes 48 to 53, context, signature, message or digest? -/
opaque pkVerify : Nat → Bytes → Bytes → Bytes → Bytes → Bytes → Bool

/-- The shared secret of an agreement: algorithm, private components, peer public key. -/
opaque pkAgree : Nat → Bytes → Bytes → Bytes

/-- ML-KEM encapsulation: algorithm, encapsulation key, randomness; shared secret and ciphertext. -/
opaque kemEncap : Nat → Bytes → Nat → Bytes × Bytes

/-- ML-KEM decapsulation: algorithm, decapsulation key, ciphertext. -/
opaque kemDecap : Nat → Bytes → Bytes → Bytes

/-- Entropy requests of a unit, less one and before its bound of 256: kind, algorithm, length parameter, deterministic bit (11 R304). -/
opaque unitDraws : Nat → Nat → Nat → Bool → Nat

/-- MAC algorithm 3 over no block at all: an empty message under padding method 1 (08 R224 gives no result). -/
opaque emptyMac : Bytes → Bytes

/-- The set of the flow-context cache that a flow index falls in, and the cache's ways (09 R246 gives neither). -/
opaque flowSet : Nat → Nat
opaque flowWays : Nat

/-- Octets a sub-port's transmit buffer holds (09 R263 gives no size). -/
opaque txBuffer : Nat

/-- What OTP holds of each part (17 R424, 18 R454): serial number, digest of the token for each target state, and the vendor
keys by algorithm: image key and certificate root. -/
opaque serial : Bytes
opaque tokenDigest : Nat → Bytes
opaque vendorImageKey : Nat → Bytes

/-- The public key of an algorithm code that a device certificate carries (05 Table 05.1, whose encoding the spec does not give), and
whether a certificate chains to a root. -/
opaque certKey : Bytes → Nat → Bytes
opaque certChains : Bytes → Bytes → Bool

/-- The certificate chains of the SPDM slots (14 R378; their contents are Uluhafy's), and the digest of the steward's ROM and firmware. -/
opaque certChain : Nat → Bytes
opaque romDigest : Bytes

/-- The vendor root of device certificates (18 R453). -/
opaque vendorRoot : Bytes

/-- The entry ID of the vendor's STREAM-class entry for a suite (09 R261 names the entry and no table gives its ID). -/
opaque suiteEntry : Nat → Nat

/-- The seed slots of OTP that a life-cycle transition programs: by target state (17 Table 17.3). -/
opaque rootSeed : Nat → Bytes

/-- The bytes that a ring frame's payload takes for its content (13 gives frame headers and no payload layouts): kind, content. -/
opaque ringPayload : Nat → Bytes → Bytes

/-- A byte of MRAM whose layout no table gives: MRAM address, the model's counter (14 Table 14.3 names such regions only). -/
opaque mramByte : Nat → Nat → Byte

/-- A byte of HBM whose layout no table gives: device address, the model's counter (09 R246; 03 program store; 13 mirror area). -/
opaque hbmByte : Nat → Nat → Byte

/-- Uluhafy's MIPI manufacturer ID and PCI vendor ID, and the MCTP endpoint UUID (19 R465, R470, R471 name them without a value). -/
opaque mipiId : BitVec 15
/-- What the sensor of a Huxel array reads at a management tick, in units of 0.125 °C (21 R504, Table 21.9). -/
opaque arrayTemp : Nat → Nat → BitVec 16
opaque pciVendor : BitVec 16
opaque endpointUuid : Bytes

/-- The data of a PLDM response or platform event (19 R472 gives no layout): type, command, request data, the model's counter. -/
opaque pldmData : Nat → Nat → Bytes → Nat → Bytes

end Sys2Proof.Config
end

