-- ==== Sys2Proof/Machine/Bits.lean ====
section
/-! DEFINITION. Machine/Bits.lean: bit fields, byte order and byte strings. -/

namespace Sys2Proof.Machine

/-- Bits `[lo + w - 1 : lo]` of a register. -/
def bitsOf (x : Word) (lo w : Nat) : Nat := (x.toNat / 2 ^ lo) % 2 ^ w

/-- Write `v` (taken modulo the field's width) into bits `[lo + w - 1 : lo]`. -/
def setBits (x : Word) (lo w : Nat) (v : Nat) : Word :=
  BitVec.ofNat 32 (x.toNat - bitsOf x lo w * 2 ^ lo + (v % 2 ^ w) * 2 ^ lo)

/-- The `n` bytes of a number, least significant first (00 R3). -/
def leBytes (n : Nat) (v : Nat) : Bytes :=
  match n with
  | 0 => []
  | k + 1 => BitVec.ofNat 8 v :: leBytes k (v / 256)

/-- The number that bytes spell, least significant first. -/
def leNat (b : Bytes) : Nat :=
  match b with
  | [] => 0
  | x :: r => x.toNat + 256 * leNat r

/-- The number that bytes spell, most significant first (00 R3: keys, blocks, MACs). -/
def beNat (b : Bytes) : Nat := b.foldl (fun a x => 256 * a + x.toNat) 0

/-- The `n` bytes of a number, most significant first. -/
def beBytes (n : Nat) (v : Nat) : Bytes := (leBytes n v).reverse

/-- Exactly `n` bytes: cut, or filled with zeros at the end. -/
def fitBytes (n : Nat) (b : Bytes) : Bytes := b.take n ++ List.replicate (n - b.length) 0

/-- Bytes `[off, off + n)` of a string; missing bytes are 0. -/
def sliceBytes (b : Bytes) (off n : Nat) : Bytes := fitBytes n (b.drop off)

/-- Replace the bytes from `off` on by `v`, the string's length kept. -/
def spliceBytes (b : Bytes) (off : Nat) (v : Bytes) : Bytes :=
  (b.take off ++ v ++ b.drop (off + v.length)).take b.length

/-- The exclusive or of two strings, as long as the shorter. -/
def xorBytes (a b : Bytes) : Bytes := List.zipWith (fun x y => x ^^^ y) a b

/-- Byte `i` of a string; 0 past its end. -/
def byteAt (b : Bytes) (i : Nat) : Nat := (b.getD i 0).toNat

/-- A block from 16 bytes, the first byte the most significant (00 R3). -/
def blockOf (b : Bytes) : Block := BitVec.ofNat 128 (beNat (fitBytes 16 b))

/-- The 16 bytes of a block, first byte the most significant. -/
def blockBytes (b : Block) : Bytes := beBytes 16 b.toNat

/-- Cut a string into pieces of `n` bytes; `fuel` bounds the pieces. -/
def chunksOf (fuel n : Nat) (b : Bytes) : List Bytes :=
  match fuel with
  | 0 => []
  | f + 1 => if b.isEmpty then [] else b.take n :: chunksOf f n (b.drop n)

/-- Pieces of `n` bytes, the last one possibly shorter. -/
def pieces (n : Nat) (b : Bytes) : List Bytes := chunksOf b.length n b

/-- High and low nibbles of a string, in order. -/
def nibblesOf (b : Bytes) : List Nat := b.flatMap (fun x => [x.toNat / 16, x.toNat % 16])

/-- Bytes from nibbles, the high nibble first. -/
def ofNibbles (l : List Nat) : Bytes :=
  match l with
  | a :: b :: r => BitVec.ofNat 8 (a * 16 + b) :: ofNibbles r
  | [a] => [BitVec.ofNat 8 (a * 16)]
  | [] => []

/-- The Nat of a Bool. -/
def b2n (b : Bool) : Nat := if b then 1 else 0

/-- Round up the quotient. -/
def ceilDiv (a b : Nat) : Nat := (a + b - 1) / b

/-- Add `n` to a counter that saturates at `m`. -/
def satAdd (m a n : Nat) : Nat := min m (a + n)

end Sys2Proof.Machine
end

