-- ==== Sys2Proof/Machine/Crc.lean ====
section
/-! DEFINITION. Machine/Crc.lean: the four check values of 12 Table 12.8, and the context folding of 12 R325. -/

namespace Sys2Proof.Machine

/-- Width in bits of the check value of polynomial `sel` (12 Table 12.8). -/
def cvWidth (sel : Nat) : Nat := if sel = 2 then 64 else if sel = 3 then 16 else 32

/-- The polynomial, bit-reversed for the reflected ones (12 Table 12.8). -/
def cvPoly (sel : Nat) : Nat :=
  match sel with
  | 0 => 0x82F63B78
  | 1 => 0xEDB88320
  | 2 => 0xC96C5795D7870F42
  | _ => 0x1021

/-- The initial value (12 Table 12.8). -/
def cvInit (sel : Nat) : Nat := 2 ^ cvWidth sel - 1

/-- The final exclusive or (12 Table 12.8). -/
def cvXorOut (sel : Nat) : Nat := if sel = 3 then 0 else 2 ^ cvWidth sel - 1

/-- One bit of a reflected computation. -/
def cvBitR (poly r : Nat) : Nat := if r % 2 = 1 then (r / 2) ^^^ poly else r / 2

/-- One bit of the unreflected 16-bit computation. -/
def cvBitF (poly r : Nat) : Nat := if r / 32768 % 2 = 1 then ((r * 2) % 65536) ^^^ poly else (r * 2) % 65536

/-- Feed one byte (12 R325, `crc_step`). -/
def cvStep (sel r : Nat) (x : Byte) : Nat :=
  if sel = 3 then
    let b := cvBitF (cvPoly 3)
    b (b (b (b (b (b (b (b (r ^^^ (x.toNat * 256)))))))))
  else
    let b := cvBitR (cvPoly sel)
    b (b (b (b (b (b (b (b (r ^^^ x.toNat))))))))

/-- Feed a byte string. -/
def cvFeed (sel r : Nat) (d : Bytes) : Nat := d.foldl (cvStep sel) r

/-- The register at the start of a computation, the context folded in when there is one (12 R325). -/
def cvStart (sel : Nat) (ctx : Option Nat) : Nat :=
  match ctx with
  | none => cvInit sel
  | some c => cvFeed sel (cvInit sel) (leBytes 8 c)

/-- The finished value. -/
def cvFinish (sel r : Nat) : Nat := r ^^^ cvXorOut sel

/-- The check value of a byte string (12 R325, `cv`). -/
def checkValue (sel : Nat) (ctx : Option Nat) (d : Bytes) : Nat := cvFinish sel (cvFeed sel (cvStart sel ctx) d)

/-- CRC-32C with a context. -/
def crc32c (ctx : Nat) (d : Bytes) : Nat := checkValue 0 (some ctx) d

end Sys2Proof.Machine
end

