-- ==== Sys2Proof/Machine/Tab.lean ====
section
/-! DEFINITION. Machine/Tab.lean: reading and writing a sparse table. A table is one canonical list: keys strictly
rising and no entry equal to the default, so that equal tables are equal data. -/

namespace Sys2Proof.Machine

/-- The entry of key `k`; `d` where the table lists none. -/
def tget {α : Type} (d : α) (t : Tab α) (k : Nat) : α :=
  match t with
  | [] => d
  | (k', v) :: r => if k' = k then v else tget d r k

/-- Remove every entry of key `k`. -/
def tdel {α : Type} (t : Tab α) (k : Nat) : Tab α :=
  match t with
  | [] => []
  | (k', v) :: r => if k' = k then tdel r k else (k', v) :: tdel r k

/-- Put an entry at its place in the rising order, replacing an entry of the same key. -/
def tput {α : Type} (t : Tab α) (k : Nat) (v : α) : Tab α :=
  match t with
  | [] => [(k, v)]
  | (k', v') :: r =>
    if k < k' then (k, v) :: (k', v') :: r
    else if k = k' then (k, v) :: r
    else (k', v') :: tput r k v

/-- Write an entry; writing the default removes the entry, so the form stays canonical. -/
def tset {α : Type} [DecidableEq α] (d : α) (t : Tab α) (k : Nat) (v : α) : Tab α :=
  if v = d then tdel t k else tput t k v

/-- Change the entry of key `k`. -/
def tmod {α : Type} [DecidableEq α] (d : α) (t : Tab α) (k : Nat) (f : α → α) : Tab α :=
  tset d t k (f (tget d t k))

/-- Is every key of the table above `k`? -/
def tabove {α : Type} (k : Nat) (t : Tab α) : Bool :=
  match t with
  | [] => true
  | (k', _) :: r => decide (k < k') && tabove k r

/-- The canonical form: keys strictly rising, no entry equal to the default. -/
def twf {α : Type} [DecidableEq α] (d : α) (t : Tab α) : Bool :=
  match t with
  | [] => true
  | (k, v) :: r => decide (v ≠ d) && tabove k r && twf d r

/-- The keys listed. -/
def tkeys {α : Type} (t : Tab α) : List Nat := t.map Prod.fst

/-- The entries listed. -/
def tvals {α : Type} (t : Tab α) : List α := t.map Prod.snd

/-- The first listed pair whose entry satisfies `p`. -/
def tfind {α : Type} (p : Nat → α → Bool) (t : Tab α) : Option (Nat × α) :=
  match t with
  | [] => none
  | (k, v) :: r => if p k v then some (k, v) else tfind p r

/-- Change every listed entry, dropping those that become the default. -/
def tmap {α : Type} [DecidableEq α] (d : α) (f : Nat → α → α) (t : Tab α) : Tab α :=
  match t with
  | [] => []
  | (k, v) :: r => if f k v = d then tmap d f r else (k, f k v) :: tmap d f r

/-- Keep the listed entries that satisfy `p`. -/
def tfilter {α : Type} (p : Nat → α → Bool) (t : Tab α) : Tab α :=
  t.filter (fun e => p e.1 e.2)

/-- A sorted set of numbers without repeats: put one in. -/
def sput (l : List Nat) (k : Nat) : List Nat :=
  match l with
  | [] => [k]
  | a :: r => if k < a then k :: a :: r else if k = a then a :: r else a :: sput r k

/-- A sorted set of numbers: take one out. -/
def sdel (l : List Nat) (k : Nat) : List Nat := l.filter (fun a => a != k)

end Sys2Proof.Machine
end

