-- ==== Sys2Proof/Machine/RegMap.lean ====
section
/-! DEFINITION. Machine/RegMap.lean: the register map of 21 R494 as a table. Each row is one register (or an array
of registers at a stride) of the spec's register tables: its offset in PF BAR0, and its fields with their bits, access
code (00 Table 00.2), cleared-by letter (00 Table 00.3) and reset value. Then one name per field. -/

namespace Sys2Proof.Machine

/-- Access codes (00 R4, Table 00.2). -/
inductive Acc where
  | ro | rw | rwl | w1c | w1s | wo | rc | rsv
  deriving DecidableEq, Repr

/-- Cleared-by letters (00 R6, Table 00.3). `kept`: "none", no reset level clears it; `fixed`: a constant. -/
inductive Clr where
  | p | s | c | kept | fixed
  deriving DecidableEq, Repr

/-- One field of a register: bits `[hi:lo]`. -/
structure RField where
  hi : Nat
  lo : Nat
  acc : Acc
  clr : Clr
  rst : Nat
  deriving DecidableEq, Repr

/-- One register, or `n1` groups at stride `s1` of `n2` registers at stride `s2`. -/
structure RegRow where
  base : Nat
  s1 : Nat
  n1 : Nat
  s2 : Nat
  n2 : Nat
  fields : List RField
  deriving DecidableEq, Repr

/-- A named field: the offset of its register, its lowest bit, its width, and the two strides of an array. -/
structure Fld where
  off : Nat
  lo : Nat
  w : Nat
  s1 : Nat := 0
  s2 : Nat := 0
  deriving DecidableEq, Repr

/-- Registers at offsets 0x0 to 0xFFF (21 Table 21.2). -/
def regsDev : List RegRow := [
  -- DEV_ID: Table 21.5
  ⟨0x0, 0x1000000, 1, 0x4, 1, [⟨31, 16, .ro, .fixed, 25600⟩, ⟨15, 8, .ro, .fixed, 1⟩, ⟨7, 4, .ro, .fixed, 0⟩]⟩,
  -- DEV_CAPS: Table 21.5
  ⟨0x4, 0x1000000, 1, 0x4, 1, [⟨31, 24, .ro, .fixed, 6⟩, ⟨23, 16, .ro, .fixed, 6⟩, ⟨15, 8, .ro, .fixed, 6⟩, ⟨7, 0, .ro, .fixed, 2⟩]⟩,
  -- DEV_START: Table 18.10
  ⟨0x10, 0x1000000, 1, 0x4, 1, [⟨31, 28, .ro, .s, 0⟩, ⟨27, 24, .ro, .s, 0⟩, ⟨23, 22, .ro, .s, 0⟩, ⟨21, 21, .ro, .s, 0⟩]⟩,
  -- DEV_BOOT_ADDR_LO: Table 18.15
  ⟨0x20, 0x1000000, 1, 0x4, 1, [⟨31, 12, .rw, .s, 0⟩]⟩,
  -- DEV_BOOT_ADDR_HI: Table 18.15
  ⟨0x24, 0x1000000, 1, 0x4, 1, [⟨31, 0, .rw, .s, 0⟩]⟩,
  -- DEV_BOOT_LEN: Table 18.15
  ⟨0x28, 0x1000000, 1, 0x4, 1, [⟨31, 0, .rw, .s, 0⟩]⟩,
  -- DEV_BOOT_CTRL: Table 18.15
  ⟨0x2C, 0x1000000, 1, 0x4, 1, [⟨31, 31, .wo, .fixed, 0⟩, ⟨30, 30, .ro, .s, 0⟩]⟩,
  -- DEV_SERIAL: Table 21.5
  ⟨0x30, 0x4, 4, 0x4, 1, [⟨31, 0, .ro, .fixed, 0⟩]⟩,
  -- DEV_MTICK_LO: Table 01.5
  ⟨0x40, 0x1000000, 1, 0x4, 1, [⟨31, 0, .ro, .p, 0⟩]⟩,
  -- DEV_MTICK_HI: Table 01.6
  ⟨0x44, 0x1000000, 1, 0x4, 1, [⟨31, 0, .ro, .p, 0⟩]⟩,
  -- DEV_WEAR: Table 20.8
  ⟨0x50, 0x1000000, 1, 0x4, 1, [⟨31, 28, .ro, .s, 8⟩, ⟨27, 21, .ro, .s, 0⟩, ⟨20, 14, .ro, .s, 64⟩, ⟨13, 13, .ro, .s, 0⟩, ⟨12, 12, .ro, .s, 0⟩, ⟨11, 8, .ro, .s, 0⟩]⟩]

/-- Registers at offsets 0x1000 to 0x12FF (21 Table 21.2). -/
def regsRst : List RegRow := [
  -- RST_CAUSE: Table 18.7
  ⟨0x1000, 0x1000000, 1, 0x4, 1, [⟨31, 30, .ro, .p, 3⟩, ⟨29, 29, .w1c, .p, 0⟩, ⟨28, 28, .ro, .p, 0⟩, ⟨10, 10, .w1c, .p, 0⟩, ⟨9, 0, .w1c, .p, 0⟩]⟩,
  -- STRAP_CAPTURE: Table 18.3
  ⟨0x1004, 0x1000000, 1, 0x4, 1, [⟨11, 11, .ro, .p, 0⟩, ⟨10, 10, .ro, .p, 0⟩, ⟨9, 8, .ro, .p, 0⟩, ⟨7, 5, .ro, .p, 0⟩, ⟨4, 4, .ro, .p, 0⟩, ⟨3, 2, .ro, .p, 0⟩, ⟨1, 0, .ro, .p, 0⟩]⟩,
  -- RST_CTRL: Table 18.8
  ⟨0x1008, 0x1000000, 1, 0x4, 1, [⟨31, 30, .wo, .fixed, 0⟩, ⟨1, 0, .rw, .p, 0⟩]⟩,
  -- CLK_STATUS: Table 18.4
  ⟨0x1100, 0x1000000, 1, 0x4, 1, [⟨31, 30, .ro, .p, 0⟩, ⟨29, 29, .ro, .p, 0⟩, ⟨28, 28, .w1c, .p, 0⟩, ⟨27, 27, .ro, .p, 0⟩]⟩,
  -- PWR_STATUS: Table 18.18
  ⟨0x1200, 0x1000000, 1, 0x4, 1, [⟨31, 31, .ro, .p, 0⟩, ⟨30, 30, .ro, .p, 0⟩, ⟨29, 29, .ro, .p, 0⟩, ⟨28, 28, .ro, .p, 0⟩, ⟨27, 27, .w1c, .p, 0⟩]⟩,
  -- PWR_DOM: Table 18.17
  ⟨0x1210, 0x4, 4, 0x4, 1, [⟨31, 0, .ro, .p, 0⟩]⟩]

/-- Registers at offsets 0x2000 to 0x30FF (21 Table 21.2). -/
def regsLc : List RegRow := [
  -- LC_STATE: Table 17.4
  ⟨0x2000, 0x1000000, 1, 0x4, 1, [⟨31, 30, .ro, .p, 0⟩, ⟨29, 29, .ro, .p, 0⟩, ⟨28, 28, .ro, .p, 0⟩, ⟨27, 25, .ro, .p, 0⟩, ⟨1, 0, .ro, .p, 0⟩]⟩,
  -- LC_CMD: Table 17.4
  ⟨0x2004, 0x1000000, 1, 0x4, 1, [⟨31, 31, .wo, .fixed, 0⟩, ⟨30, 30, .ro, .p, 0⟩, ⟨29, 28, .rw, .p, 0⟩, ⟨27, 25, .ro, .p, 0⟩]⟩,
  -- LC_DEBUG: Table 17.4
  ⟨0x2008, 0x1000000, 1, 0x4, 1, [⟨31, 16, .ro, .p, 0⟩, ⟨15, 15, .ro, .p, 0⟩, ⟨14, 12, .ro, .p, 0⟩]⟩,
  -- LC_TOKEN: Table 17.4
  ⟨0x2010, 0x4, 8, 0x4, 1, [⟨31, 0, .wo, .fixed, 0⟩]⟩,
  -- TMP_STATUS: Table 17.10
  ⟨0x2100, 0x1000000, 1, 0x4, 1, [⟨31, 31, .w1c, .kept, 0⟩, ⟨30, 30, .w1c, .kept, 0⟩, ⟨29, 29, .w1c, .s, 0⟩, ⟨28, 27, .ro, .s, 0⟩, ⟨26, 26, .ro, .s, 0⟩, ⟨25, 25, .ro, .p, 0⟩, ⟨15, 8, .w1c, .kept, 0⟩, ⟨7, 0, .ro, .s, 0⟩]⟩,
  -- TMP_CFG: Table 17.11
  ⟨0x2104, 0x1000000, 1, 0x4, 1, [⟨31, 31, .w1s, .p, 0⟩, ⟨15, 8, .rw, .s, 0⟩, ⟨7, 0, .rwl, .kept, 75⟩]⟩,
  -- TMP_OTP_COUNT: Table 17.12
  ⟨0x2108, 0x1000000, 1, 0x4, 1, [⟨15, 12, .ro, .kept, 0⟩, ⟨10, 0, .ro, .kept, 0⟩]⟩,
  -- PSC_CFG: Table 19.7
  ⟨0x3000, 0x1000000, 1, 0x4, 1, [⟨31, 31, .rw, .kept, 0⟩, ⟨30, 30, .rw, .kept, 1⟩, ⟨29, 29, .rw, .kept, 0⟩, ⟨6, 0, .rw, .kept, 8⟩]⟩,
  -- PSC_STATUS: Table 19.8
  ⟨0x3004, 0x1000000, 1, 0x4, 1, [⟨31, 31, .ro, .kept, 0⟩, ⟨30, 24, .ro, .kept, 0⟩, ⟨23, 16, .ro, .kept, 0⟩, ⟨14, 8, .ro, .p, 0⟩]⟩,
  -- PSC_ERRORS: Table 19.9
  ⟨0x3008, 0x1000000, 1, 0x4, 1, [⟨31, 24, .rc, .kept, 0⟩, ⟨23, 16, .rc, .kept, 0⟩, ⟨15, 8, .rc, .kept, 0⟩, ⟨7, 0, .rc, .kept, 0⟩]⟩]

/-- Registers at offsets 0x4000 to 0x80FF (21 Table 21.2). -/
def regsEvr : List RegRow := [
  -- EVR_CTRL: Table 16.3
  ⟨0x4000, 0x1000000, 1, 0x4, 1, [⟨31, 31, .rw, .s, 0⟩, ⟨30, 30, .ro, .s, 0⟩]⟩,
  -- EVR_STATUS: Table 16.3
  ⟨0x4004, 0x1000000, 1, 0x4, 1, [⟨31, 31, .w1c, .s, 0⟩, ⟨30, 30, .w1c, .s, 0⟩, ⟨29, 29, .ro, .s, 0⟩, ⟨15, 0, .rc, .s, 0⟩]⟩,
  -- EVR_PRIGROUP: Table 16.3
  ⟨0x4008, 0x1000000, 1, 0x4, 1, [⟨2, 0, .rw, .s, 0⟩]⟩,
  -- EVR_PRIO_CV: Table 16.3
  ⟨0x400C, 0x1000000, 1, 0x4, 1, [⟨31, 0, .rw, .s, 0⟩]⟩,
  -- EVR_SWSET: Table 16.3
  ⟨0x4010, 0x1000000, 1, 0x4, 1, [⟨31, 0, .w1s, .s, 0⟩]⟩,
  -- EVR_LIVE: Table 16.4
  ⟨0x4100, 0x4, 64, 0x4, 1, [⟨31, 0, .ro, .s, 0⟩]⟩,
  -- EVR_LATCH: Table 16.4
  ⟨0x4200, 0x4, 64, 0x4, 1, [⟨31, 0, .w1c, .s, 0⟩]⟩,
  -- EVR_HOLDOFF: Table 16.4
  ⟨0x4400, 0x4, 64, 0x4, 1, [⟨15, 0, .rw, .s, 0⟩]⟩,
  -- EVR_PRIO: Table 16.4
  ⟨0x4800, 0x4, 512, 0x4, 1, [⟨31, 0, .rw, .s, 0⟩]⟩,
  -- EVR_ROUTE: Table 16.4
  ⟨0x5000, 0x4, 40, 0x4, 1, [⟨31, 0, .rw, .s, 16843009⟩]⟩,
  -- EVR_ROUTE_REST: Table 16.4
  ⟨0x50A0, 0x4, 472, 0x4, 1, [⟨31, 0, .rw, .s, 0⟩]⟩,
  -- EVR_TCFG0: Table 16.5
  ⟨0x6000, 0x1000000, 1, 0x4, 1, [⟨31, 31, .rw, .s, 0⟩, ⟨10, 0, .rw, .s, 0⟩]⟩,
  -- EVR_TCFG: Table 16.5
  ⟨0x6100, 0x100, 5, 0x4, 1, [⟨31, 31, .rw, .s, 1⟩, ⟨10, 0, .rw, .s, 0⟩]⟩,
  -- EVR_CLAIM: Table 16.5
  ⟨0x6004, 0x100, 6, 0x4, 1, [⟨10, 0, .ro, .s, 2047⟩]⟩,
  -- EVR_COMPLETE: Table 16.5
  ⟨0x6008, 0x100, 6, 0x4, 1, [⟨10, 0, .wo, .fixed, 0⟩]⟩,
  -- EVR_TSTAT: Table 16.5
  ⟨0x600C, 0x100, 6, 0x4, 1, [⟨31, 28, .ro, .s, 0⟩, ⟨27, 27, .ro, .s, 0⟩, ⟨26, 16, .ro, .s, 2047⟩, ⟨15, 8, .ro, .s, 255⟩]⟩,
  -- LOG_CTRL: Table 16.9
  ⟨0x8000, 0x1000000, 1, 0x4, 1, [⟨31, 31, .wo, .fixed, 0⟩, ⟨2, 0, .rw, .s, 3⟩]⟩,
  -- LOG_STATUS: Table 16.9
  ⟨0x8004, 0x1000000, 1, 0x4, 1, [⟨31, 31, .w1c, .s, 0⟩, ⟨30, 30, .ro, .s, 0⟩, ⟨29, 29, .w1c, .s, 0⟩, ⟨28, 28, .ro, .s, 0⟩, ⟨13, 0, .ro, .s, 0⟩]⟩,
  -- LOG_DROPPED: Table 16.9
  ⟨0x8008, 0x1000000, 1, 0x4, 1, [⟨31, 16, .rc, .p, 0⟩, ⟨15, 0, .rc, .p, 0⟩]⟩,
  -- LOG_HEAD_LO: Table 16.9
  ⟨0x8010, 0x1000000, 1, 0x4, 1, [⟨31, 0, .ro, .s, 0⟩]⟩,
  -- LOG_HEAD_HI: Table 16.9
  ⟨0x8014, 0x1000000, 1, 0x4, 1, [⟨31, 0, .ro, .s, 0⟩]⟩,
  -- LOG_TAIL_LO: Table 16.9
  ⟨0x8018, 0x1000000, 1, 0x4, 1, [⟨31, 0, .ro, .s, 0⟩]⟩,
  -- LOG_TAIL_HI: Table 16.9
  ⟨0x801C, 0x1000000, 1, 0x4, 1, [⟨31, 0, .ro, .s, 0⟩]⟩,
  -- LOG_SEL_LO: Table 16.9
  ⟨0x8020, 0x1000000, 1, 0x4, 1, [⟨31, 0, .rw, .s, 0⟩]⟩,
  -- LOG_SEL_HI: Table 16.9
  ⟨0x8024, 0x1000000, 1, 0x4, 1, [⟨31, 0, .rw, .s, 0⟩]⟩,
  -- LOG_WIN: Table 16.9
  ⟨0x8040, 0x4, 16, 0x4, 1, [⟨31, 0, .ro, .s, 0⟩]⟩]

/-- Registers at offsets 0x50000 to 0x500FF (21 Table 21.2). -/
def regsKs : List RegRow := [
  -- KS_STATUS: Table 04.13
  ⟨0x50000, 0x1000000, 1, 0x4, 1, [⟨31, 31, .ro, .s, 0⟩, ⟨30, 28, .ro, .s, 0⟩, ⟨21, 21, .ro, .s, 0⟩, ⟨20, 20, .ro, .s, 0⟩, ⟨18, 18, .ro, .s, 0⟩, ⟨17, 17, .w1c, .s, 0⟩, ⟨16, 16, .w1c, .s, 0⟩, ⟨10, 0, .ro, .s, 0⟩]⟩,
  -- KS_CTRL: Table 04.5
  ⟨0x50004, 0x1000000, 1, 0x4, 1, [⟨2, 2, .wo, .fixed, 0⟩, ⟨1, 1, .rw, .s, 0⟩, ⟨0, 0, .rw, .s, 0⟩]⟩,
  -- KS_SPENT: Table 04.14
  ⟨0x50008, 0x1000000, 1, 0x4, 1, [⟨24, 0, .ro, .kept, 0⟩]⟩,
  -- KS_SCRUB_STATUS: Table 04.16
  ⟨0x50010, 0x1000000, 1, 0x4, 1, [⟨31, 31, .ro, .s, 0⟩, ⟨30, 30, .w1c, .s, 0⟩, ⟨29, 29, .w1c, .s, 0⟩, ⟨27, 16, .ro, .s, 0⟩, ⟨15, 0, .rc, .s, 0⟩]⟩,
  -- KS_EXP_BASE_LO: Table 04.6
  ⟨0x50040, 0x1000000, 1, 0x4, 1, [⟨31, 12, .rwl, .s, 0⟩]⟩,
  -- KS_EXP_BASE_HI: Table 04.7
  ⟨0x50044, 0x1000000, 1, 0x4, 1, [⟨31, 0, .rwl, .s, 0⟩]⟩,
  -- KS_EXP_SIZE: Table 04.8
  ⟨0x50048, 0x1000000, 1, 0x4, 1, [⟨4, 0, .rwl, .s, 6⟩]⟩,
  -- KS_EXP_PROD: Table 04.9
  ⟨0x5004C, 0x1000000, 1, 0x4, 1, [⟨31, 0, .ro, .s, 0⟩]⟩,
  -- KS_EXP_ACK: Table 04.9
  ⟨0x50050, 0x1000000, 1, 0x4, 1, [⟨31, 0, .rw, .s, 0⟩]⟩,
  -- KS_EXP_DUR: Table 04.9
  ⟨0x50054, 0x1000000, 1, 0x4, 1, [⟨31, 0, .ro, .s, 0⟩]⟩,
  -- KS_IMP_BASE_LO: Table 04.6
  ⟨0x50060, 0x1000000, 1, 0x4, 1, [⟨31, 12, .rwl, .s, 0⟩]⟩,
  -- KS_IMP_BASE_HI: Table 04.7
  ⟨0x50064, 0x1000000, 1, 0x4, 1, [⟨31, 0, .rwl, .s, 0⟩]⟩,
  -- KS_IMP_SIZE: Table 04.8
  ⟨0x50068, 0x1000000, 1, 0x4, 1, [⟨4, 0, .rwl, .s, 6⟩]⟩,
  -- KS_IMP_PROD: Table 04.9
  ⟨0x5006C, 0x1000000, 1, 0x4, 1, [⟨31, 0, .rw, .s, 0⟩]⟩,
  -- KS_IMP_CONS: Table 04.9
  ⟨0x50070, 0x1000000, 1, 0x4, 1, [⟨31, 0, .ro, .s, 0⟩]⟩]

/-- Registers at offsets 0x60000 to 0x608FF (21 Table 21.2). -/
def regsHx : List RegRow := [
  -- HX_ASTAT: Table 11.7
  ⟨0x60000, 0x100, 8, 0x4, 1, [⟨31, 31, .ro, .s, 0⟩, ⟨30, 30, .ro, .c, 0⟩, ⟨29, 29, .w1c, .s, 0⟩, ⟨19, 8, .ro, .c, 0⟩, ⟨7, 0, .ro, .c, 0⟩]⟩,
  -- HX_AINV: Table 11.8
  ⟨0x60004, 0x100, 8, 0x4, 1, [⟨15, 0, .ro, .p, 0⟩]⟩,
  -- HX_AUNITS_LO: Table 21.9
  ⟨0x60008, 0x100, 8, 0x4, 1, [⟨31, 0, .ro, .p, 0⟩]⟩,
  -- HX_AUNITS_HI: Table 21.9
  ⟨0x6000C, 0x100, 8, 0x4, 1, [⟨31, 0, .ro, .p, 0⟩]⟩,
  -- HX_ABUSY_LO: Table 21.9
  ⟨0x60010, 0x100, 8, 0x4, 1, [⟨31, 0, .ro, .p, 0⟩]⟩,
  -- HX_ABUSY_HI: Table 21.9
  ⟨0x60014, 0x100, 8, 0x4, 1, [⟨31, 0, .ro, .p, 0⟩]⟩,
  -- HX_AKAT: Table 21.9
  ⟨0x60018, 0x100, 8, 0x4, 1, [⟨31, 31, .ro, .s, 0⟩, ⟨30, 30, .ro, .s, 0⟩, ⟨23, 16, .ro, .s, 0⟩]⟩,
  -- HX_ACTRL: Table 21.9
  ⟨0x6001C, 0x100, 8, 0x4, 1, [⟨31, 31, .w1s, .s, 0⟩]⟩,
  -- HX_ASAMP: Table 21.9
  ⟨0x60040, 0x100, 8, 0x4, 1, [⟨31, 0, .ro, .s, 0⟩]⟩,
  -- HX_AENT: Table 21.9
  ⟨0x60044, 0x100, 8, 0x4, 1, [⟨31, 0, .ro, .s, 0⟩]⟩,
  -- HX_ADMA: Table 21.9
  ⟨0x60048, 0x100, 8, 0x4, 1, [⟨31, 0, .ro, .s, 0⟩]⟩,
  -- HX_ALAST: Table 21.9
  ⟨0x6004C, 0x100, 8, 0x4, 1, [⟨31, 30, .ro, .s, 0⟩, ⟨27, 16, .ro, .s, 0⟩, ⟨7, 0, .ro, .s, 0⟩]⟩,
  -- HX_ATEMP: Table 21.9
  ⟨0x60050, 0x100, 8, 0x4, 1, [⟨15, 0, .ro, .s, 0⟩]⟩,
  -- HX_AIDLE_LO: Table 21.9
  ⟨0x60054, 0x100, 8, 0x4, 1, [⟨31, 0, .ro, .p, 0⟩]⟩,
  -- HX_AIDLE_HI: Table 21.9
  ⟨0x60058, 0x100, 8, 0x4, 1, [⟨31, 0, .ro, .p, 0⟩]⟩,
  -- HX_AABORT: Table 21.9
  ⟨0x6005C, 0x100, 8, 0x4, 1, [⟨31, 0, .ro, .s, 0⟩]⟩,
  -- HX_ACNT: Table 21.9
  ⟨0x60020, 0x100, 8, 0x4, 8, [⟨31, 0, .ro, .s, 0⟩]⟩,
  -- HX_CFG: Table 11.5
  ⟨0x60800, 0x1000000, 1, 0x4, 1, [⟨15, 0, .rw, .s, 64⟩]⟩,
  -- HX_PARKED: Table 11.6
  ⟨0x60804, 0x1000000, 1, 0x4, 1, [⟨31, 31, .ro, .s, 0⟩, ⟨30, 30, .w1c, .s, 0⟩, ⟨29, 29, .w1c, .s, 0⟩, ⟨16, 0, .ro, .s, 0⟩]⟩]

/-- Registers at offsets 0x70000 to 0x708FF (21 Table 21.2). -/
def regsRng : List RegRow := [
  -- RNG_STATUS: Table 12.5
  ⟨0x70000, 0x1000000, 1, 0x4, 1, [⟨31, 29, .ro, .s, 0⟩, ⟨28, 28, .w1c, .s, 0⟩, ⟨27, 27, .w1c, .s, 0⟩, ⟨11, 0, .ro, .s, 0⟩]⟩,
  -- RNG_ACTIVE: Table 12.6
  ⟨0x70004, 0x1000000, 1, 0x4, 1, [⟨27, 0, .ro, .s, 0⟩]⟩,
  -- RNG_EXCLUDED: Table 12.6
  ⟨0x70008, 0x1000000, 1, 0x4, 1, [⟨27, 0, .ro, .s, 0⟩]⟩,
  -- RNG_SPENT: Table 12.6
  ⟨0x7000C, 0x1000000, 1, 0x4, 1, [⟨27, 0, .ro, .s, 0⟩]⟩,
  -- RNG_FAILS: Table 12.7
  ⟨0x70010, 0x1000000, 1, 0x4, 1, [⟨31, 16, .ro, .s, 0⟩, ⟨15, 0, .ro, .s, 0⟩]⟩,
  -- CVU_CTRL: Table 12.10
  ⟨0x70800, 0x1000000, 1, 0x4, 1, [⟨31, 31, .ro, .c, 0⟩, ⟨30, 30, .wo, .fixed, 0⟩, ⟨5, 4, .rw, .c, 0⟩, ⟨2, 2, .rw, .c, 0⟩, ⟨1, 0, .rw, .c, 0⟩]⟩,
  -- CVU_CTX_LO: Table 12.11
  ⟨0x70804, 0x1000000, 1, 0x4, 1, [⟨31, 0, .rw, .c, 0⟩]⟩,
  -- CVU_CTX_HI: Table 12.11
  ⟨0x70808, 0x1000000, 1, 0x4, 1, [⟨31, 0, .rw, .c, 0⟩]⟩,
  -- CVU_DATA: Table 12.11
  ⟨0x7080C, 0x1000000, 1, 0x4, 1, [⟨31, 0, .wo, .fixed, 0⟩]⟩,
  -- CVU_RESULT_LO: Table 12.11
  ⟨0x70810, 0x1000000, 1, 0x4, 1, [⟨31, 0, .ro, .c, 0⟩]⟩,
  -- CVU_RESULT_HI: Table 12.11
  ⟨0x70814, 0x1000000, 1, 0x4, 1, [⟨31, 0, .ro, .c, 0⟩]⟩]

/-- Registers at offsets 0x80000 to 0xA00FF (21 Table 21.2). -/
def regsFocVr : List RegRow := [
  -- FOC_NOW_NS: Table 10.1
  ⟨0x80000, 0x1000000, 1, 0x4, 1, [⟨29, 0, .ro, .p, 0⟩]⟩,
  -- FOC_NOW_SLO: Table 10.2
  ⟨0x80004, 0x1000000, 1, 0x4, 1, [⟨31, 0, .ro, .p, 0⟩]⟩,
  -- FOC_NOW_SHI: Table 10.2
  ⟨0x80008, 0x1000000, 1, 0x4, 1, [⟨15, 0, .ro, .p, 0⟩]⟩,
  -- FOC_TCFG: Table 10.5
  ⟨0x80010, 0x1000000, 1, 0x4, 1, [⟨31, 30, .rw, .s, 0⟩, ⟨29, 26, .rw, .s, 0⟩, ⟨25, 24, .rw, .s, 0⟩, ⟨23, 22, .rw, .s, 0⟩, ⟨21, 15, .rw, .s, 0⟩, ⟨14, 14, .rw, .s, 0⟩, ⟨13, 13, .rw, .s, 0⟩, ⟨11, 8, .rw, .s, 15⟩]⟩,
  -- FOC_TSTAT: Table 10.6
  ⟨0x80014, 0x1000000, 1, 0x4, 1, [⟨31, 29, .ro, .s, 0⟩, ⟨28, 28, .ro, .s, 0⟩, ⟨27, 27, .ro, .s, 0⟩, ⟨26, 26, .w1c, .s, 0⟩, ⟨25, 25, .w1c, .s, 0⟩, ⟨12, 0, .ro, .s, 0⟩]⟩,
  -- FOC_OFFSET: Table 10.7
  ⟨0x80018, 0x1000000, 1, 0x4, 1, [⟨31, 0, .ro, .s, 0⟩]⟩,
  -- VR_STATE: Table 13.10
  ⟨0xA0000, 0x1000000, 1, 0x4, 1, [⟨31, 29, .ro, .s, 0⟩, ⟨28, 28, .ro, .s, 0⟩, ⟨27, 27, .ro, .s, 0⟩, ⟨26, 26, .ro, .s, 0⟩, ⟨15, 12, .ro, .s, 0⟩, ⟨11, 8, .ro, .s, 0⟩, ⟨7, 4, .ro, .s, 0⟩, ⟨3, 0, .ro, .s, 0⟩]⟩,
  -- VR_CFG: Table 13.11
  ⟨0xA0004, 0x1000000, 1, 0x4, 1, [⟨31, 31, .rw, .s, 0⟩, ⟨30, 30, .wo, .fixed, 0⟩]⟩,
  -- VR_MEMBERS: Table 13.12
  ⟨0xA0008, 0x1000000, 1, 0x4, 1, [⟨15, 0, .ro, .s, 0⟩]⟩,
  -- VR_VERSION: Table 13.12
  ⟨0xA000C, 0x1000000, 1, 0x4, 1, [⟨23, 16, .ro, .fixed, 1⟩, ⟨15, 8, .ro, .fixed, 2⟩, ⟨7, 0, .ro, .s, 0⟩]⟩,
  -- VR_LINK: Table 13.13
  ⟨0xA0010, 0x4, 2, 0x4, 1, [⟨31, 28, .ro, .s, 0⟩, ⟨27, 27, .ro, .s, 0⟩, ⟨26, 26, .w1c, .s, 0⟩, ⟨25, 23, .ro, .p, 0⟩, ⟨21, 18, .ro, .s, 0⟩, ⟨15, 0, .rc, .s, 0⟩]⟩,
  -- VR_COPY: Table 13.14
  ⟨0xA0020, 0x1000000, 1, 0x4, 1, [⟨31, 29, .ro, .s, 0⟩, ⟨28, 28, .w1c, .s, 0⟩, ⟨27, 24, .ro, .s, 0⟩, ⟨12, 0, .ro, .s, 0⟩]⟩,
  -- VR_EVENTS: Table 13.15
  ⟨0xA0024, 0x1000000, 1, 0x4, 1, [⟨31, 31, .w1c, .s, 0⟩, ⟨30, 30, .w1c, .s, 0⟩, ⟨29, 29, .w1c, .s, 0⟩, ⟨28, 28, .w1c, .s, 0⟩, ⟨27, 27, .w1c, .s, 0⟩, ⟨26, 26, .w1c, .s, 0⟩, ⟨25, 25, .w1c, .s, 0⟩]⟩]

/-- Registers at offsets 0xB0000 to 0xB08FF (21 Table 21.2). -/
def regsPrm : List RegRow := [
  -- PRM_STATUS: Table 09.15
  ⟨0xB0000, 0x1000000, 1, 0x4, 1, [⟨31, 31, .w1c, .s, 0⟩, ⟨30, 30, .w1c, .s, 0⟩, ⟨29, 29, .w1c, .s, 0⟩, ⟨28, 28, .ro, .s, 0⟩, ⟨27, 27, .w1c, .s, 0⟩, ⟨18, 0, .ro, .s, 262144⟩]⟩,
  -- PRM_LAG_LIMIT: Table 09.16
  ⟨0xB0004, 0x1000000, 1, 0x4, 1, [⟨15, 0, .rw, .s, 80⟩]⟩,
  -- PRM_CAPS: Table 09.17
  ⟨0xB0008, 0x1000000, 1, 0x4, 1, [⟨7, 0, .ro, .fixed, 2⟩]⟩,
  -- COL_INFLIGHT: Table 21.10
  ⟨0xB0800, 0x1000000, 1, 0x4, 1, [⟨31, 31, .ro, .s, 0⟩, ⟨18, 0, .ro, .s, 0⟩]⟩,
  -- COL_HELD_LO: Table 21.10
  ⟨0xB0804, 0x1000000, 1, 0x4, 1, [⟨31, 0, .ro, .s, 0⟩]⟩,
  -- COL_HELD_HI: Table 21.10
  ⟨0xB0808, 0x1000000, 1, 0x4, 1, [⟨31, 0, .ro, .s, 0⟩]⟩]

/-- Registers at offsets 0xC0000 to 0xCFFFF (21 Table 21.2). -/
def regsSp : List RegRow := [
  -- SP_CFG: Table 09.1
  ⟨0xC0000, 0x1000000, 1, 0x4, 1, [⟨31, 31, .rw, .s, 0⟩, ⟨30, 30, .rwl, .s, 0⟩, ⟨29, 28, .rwl, .s, 0⟩, ⟨27, 24, .rwl, .s, 1⟩, ⟨13, 0, .rw, .s, 9600⟩]⟩,
  -- SP_CFG1: Table 09.1
  ⟨0xC1000, 0x1000000, 1, 0x4, 1, [⟨31, 31, .rw, .s, 0⟩, ⟨30, 30, .rwl, .s, 1⟩, ⟨29, 28, .rwl, .s, 0⟩, ⟨27, 24, .rwl, .s, 0⟩, ⟨13, 0, .rw, .s, 9600⟩]⟩,
  -- SP_CFG2: Table 09.1
  ⟨0xC2000, 0x1000000, 1, 0x4, 1, [⟨31, 31, .rw, .s, 0⟩, ⟨30, 30, .rwl, .s, 0⟩, ⟨29, 28, .rwl, .s, 0⟩, ⟨27, 24, .rwl, .s, 3⟩, ⟨13, 0, .rw, .s, 9600⟩]⟩,
  -- SP_CFG3: Table 09.1
  ⟨0xC3000, 0x1000000, 1, 0x4, 1, [⟨31, 31, .rw, .s, 0⟩, ⟨30, 30, .rwl, .s, 1⟩, ⟨29, 28, .rwl, .s, 0⟩, ⟨27, 24, .rwl, .s, 2⟩, ⟨13, 0, .rw, .s, 9600⟩]⟩,
  -- SP_CFG4: Table 09.1
  ⟨0xC4000, 0x1000000, 1, 0x4, 1, [⟨31, 31, .rw, .s, 0⟩, ⟨30, 30, .rwl, .s, 0⟩, ⟨29, 28, .rwl, .s, 0⟩, ⟨27, 24, .rwl, .s, 5⟩, ⟨13, 0, .rw, .s, 9600⟩]⟩,
  -- SP_CFG5: Table 09.1
  ⟨0xC5000, 0x1000000, 1, 0x4, 1, [⟨31, 31, .rw, .s, 0⟩, ⟨30, 30, .rwl, .s, 1⟩, ⟨29, 28, .rwl, .s, 0⟩, ⟨27, 24, .rwl, .s, 4⟩, ⟨13, 0, .rw, .s, 9600⟩]⟩,
  -- SP_CFG6: Table 09.1
  ⟨0xC6000, 0x1000000, 1, 0x4, 1, [⟨31, 31, .rw, .s, 0⟩, ⟨30, 30, .rwl, .s, 0⟩, ⟨29, 28, .rwl, .s, 0⟩, ⟨27, 24, .rwl, .s, 7⟩, ⟨13, 0, .rw, .s, 9600⟩]⟩,
  -- SP_CFG7: Table 09.1
  ⟨0xC7000, 0x1000000, 1, 0x4, 1, [⟨31, 31, .rw, .s, 0⟩, ⟨30, 30, .rwl, .s, 1⟩, ⟨29, 28, .rwl, .s, 0⟩, ⟨27, 24, .rwl, .s, 6⟩, ⟨13, 0, .rw, .s, 9600⟩]⟩,
  -- SP_CFG8: Table 09.1
  ⟨0xC8000, 0x1000000, 1, 0x4, 1, [⟨31, 31, .rw, .s, 0⟩, ⟨30, 30, .rwl, .s, 0⟩, ⟨29, 28, .rwl, .s, 0⟩, ⟨27, 24, .rwl, .s, 9⟩, ⟨13, 0, .rw, .s, 9600⟩]⟩,
  -- SP_CFG9: Table 09.1
  ⟨0xC9000, 0x1000000, 1, 0x4, 1, [⟨31, 31, .rw, .s, 0⟩, ⟨30, 30, .rwl, .s, 1⟩, ⟨29, 28, .rwl, .s, 0⟩, ⟨27, 24, .rwl, .s, 8⟩, ⟨13, 0, .rw, .s, 9600⟩]⟩,
  -- SP_CFG10: Table 09.1
  ⟨0xCA000, 0x1000000, 1, 0x4, 1, [⟨31, 31, .rw, .s, 0⟩, ⟨30, 30, .rwl, .s, 0⟩, ⟨29, 28, .rwl, .s, 0⟩, ⟨27, 24, .rwl, .s, 11⟩, ⟨13, 0, .rw, .s, 9600⟩]⟩,
  -- SP_CFG11: Table 09.1
  ⟨0xCB000, 0x1000000, 1, 0x4, 1, [⟨31, 31, .rw, .s, 0⟩, ⟨30, 30, .rwl, .s, 1⟩, ⟨29, 28, .rwl, .s, 0⟩, ⟨27, 24, .rwl, .s, 10⟩, ⟨13, 0, .rw, .s, 9600⟩]⟩,
  -- SP_CFG12: Table 09.1
  ⟨0xCC000, 0x1000000, 1, 0x4, 1, [⟨31, 31, .rw, .s, 0⟩, ⟨30, 30, .rwl, .s, 0⟩, ⟨29, 28, .rwl, .s, 0⟩, ⟨27, 24, .rwl, .s, 13⟩, ⟨13, 0, .rw, .s, 9600⟩]⟩,
  -- SP_CFG13: Table 09.1
  ⟨0xCD000, 0x1000000, 1, 0x4, 1, [⟨31, 31, .rw, .s, 0⟩, ⟨30, 30, .rwl, .s, 1⟩, ⟨29, 28, .rwl, .s, 0⟩, ⟨27, 24, .rwl, .s, 12⟩, ⟨13, 0, .rw, .s, 9600⟩]⟩,
  -- SP_CFG14: Table 09.1
  ⟨0xCE000, 0x1000000, 1, 0x4, 1, [⟨31, 31, .rw, .s, 0⟩, ⟨30, 30, .rwl, .s, 0⟩, ⟨29, 28, .rwl, .s, 0⟩, ⟨27, 24, .rwl, .s, 15⟩, ⟨13, 0, .rw, .s, 9600⟩]⟩,
  -- SP_CFG15: Table 09.1
  ⟨0xCF000, 0x1000000, 1, 0x4, 1, [⟨31, 31, .rw, .s, 0⟩, ⟨30, 30, .rwl, .s, 1⟩, ⟨29, 28, .rwl, .s, 0⟩, ⟨27, 24, .rwl, .s, 14⟩, ⟨13, 0, .rw, .s, 9600⟩]⟩,
  -- SP_STATUS: Table 09.2
  ⟨0xC0004, 0x1000, 16, 0x4, 1, [⟨31, 28, .ro, .s, 0⟩, ⟨27, 24, .w1c, .s, 0⟩, ⟨23, 23, .ro, .s, 0⟩, ⟨22, 22, .ro, .s, 1⟩]⟩,
  -- SP_SF: Table 09.3
  ⟨0xC0008, 0x1000, 16, 0x4, 1, [⟨15, 0, .rw, .s, 50247⟩]⟩,
  -- SP_FEC_CORR: Table 21.8
  ⟨0xC000C, 0x1000, 16, 0x4, 1, [⟨31, 0, .ro, .s, 0⟩]⟩,
  -- SP_FEC_UNCORR: Table 21.8
  ⟨0xC0010, 0x1000, 16, 0x4, 1, [⟨31, 0, .ro, .s, 0⟩]⟩,
  -- SP_PCS_ERR: Table 21.8
  ⟨0xC0014, 0x1000, 16, 0x4, 1, [⟨15, 0, .rc, .s, 0⟩]⟩,
  -- SP_LOSS_LO: Table 09.12
  ⟨0xC0100, 0x1000, 16, 0x8, 9, [⟨31, 0, .ro, .s, 0⟩]⟩,
  -- SP_LOSS_HI: Table 09.12
  ⟨0xC0104, 0x1000, 16, 0x8, 9, [⟨31, 0, .ro, .s, 0⟩]⟩,
  -- SP_RXOK_LO: Table 21.8
  ⟨0xC0200, 0x1000, 16, 0x40, 4, [⟨31, 0, .ro, .s, 0⟩]⟩,
  -- SP_RXOK_HI: Table 21.8
  ⟨0xC0204, 0x1000, 16, 0x40, 4, [⟨31, 0, .ro, .s, 0⟩]⟩,
  -- SP_RXOCT_LO: Table 21.8
  ⟨0xC0208, 0x1000, 16, 0x40, 4, [⟨31, 0, .ro, .s, 0⟩]⟩,
  -- SP_RXOCT_HI: Table 21.8
  ⟨0xC020C, 0x1000, 16, 0x40, 4, [⟨31, 0, .ro, .s, 0⟩]⟩,
  -- SP_TXOK_LO: Table 21.8
  ⟨0xC0210, 0x1000, 16, 0x40, 4, [⟨31, 0, .ro, .s, 0⟩]⟩,
  -- SP_TXOK_HI: Table 21.8
  ⟨0xC0214, 0x1000, 16, 0x40, 4, [⟨31, 0, .ro, .s, 0⟩]⟩,
  -- SP_TXOCT_LO: Table 21.8
  ⟨0xC0218, 0x1000, 16, 0x40, 4, [⟨31, 0, .ro, .s, 0⟩]⟩,
  -- SP_TXOCT_HI: Table 21.8
  ⟨0xC021C, 0x1000, 16, 0x40, 4, [⟨31, 0, .ro, .s, 0⟩]⟩,
  -- SP_FCSERR: Table 21.8
  ⟨0xC0220, 0x1000, 16, 0x40, 4, [⟨31, 0, .ro, .s, 0⟩]⟩,
  -- SP_LENERR: Table 21.8
  ⟨0xC0224, 0x1000, 16, 0x40, 4, [⟨31, 0, .ro, .s, 0⟩]⟩]

/-- Registers at offsets 0x100000 to 0x147FFF (21 Table 21.2). -/
def regsFct : List RegRow := [
  -- FCT_MAP: Table 02.9
  ⟨0x100000, 0x1000, 72, 0x4, 1, [⟨31, 31, .ro, .s, 0⟩, ⟨27, 24, .ro, .s, 0⟩, ⟨17, 16, .ro, .s, 0⟩, ⟨5, 0, .ro, .s, 0⟩]⟩,
  -- FCT_STATUS: Table 02.10
  ⟨0x100004, 0x1000, 72, 0x4, 1, [⟨31, 24, .ro, .c, 0⟩, ⟨23, 20, .ro, .c, 0⟩, ⟨2, 2, .w1c, .c, 0⟩, ⟨1, 1, .ro, .c, 1⟩, ⟨0, 0, .ro, .c, 0⟩]⟩,
  -- FCT_LENS_COUNT: Table 02.11
  ⟨0x100010, 0x1000, 72, 0x4, 1, [⟨31, 16, .ro, .p, 0⟩, ⟨15, 0, .ro, .p, 0⟩]⟩,
  -- FCT_ERRORS: Table 20.6
  ⟨0x100014, 0x1000, 72, 0x4, 1, [⟨31, 24, .ro, .p, 0⟩, ⟨23, 16, .ro, .p, 0⟩, ⟨15, 0, .ro, .p, 0⟩]⟩,
  -- FCT_AGE: Table 20.7
  ⟨0x100018, 0x1000, 72, 0x4, 1, [⟨31, 31, .ro, .s, 0⟩, ⟨30, 30, .ro, .s, 0⟩, ⟨27, 24, .ro, .s, 0⟩, ⟨15, 0, .ro, .s, 0⟩]⟩,
  -- FCT_WORK: Table 21.6
  ⟨0x100008, 0x1000, 72, 0x4, 1, [⟨31, 30, .ro, .c, 0⟩, ⟨27, 16, .ro, .c, 0⟩, ⟨15, 0, .ro, .c, 0⟩]⟩,
  -- FCT_ABANDON: Table 21.6
  ⟨0x10000C, 0x1000, 72, 0x4, 1, [⟨31, 28, .ro, .s, 0⟩, ⟨27, 16, .ro, .s, 0⟩, ⟨15, 0, .ro, .s, 0⟩]⟩,
  -- FCT_AGE_RAW: Table 21.6
  ⟨0x10001C, 0x1000, 72, 0x4, 1, [⟨31, 16, .ro, .s, 0⟩, ⟨15, 0, .ro, .fixed, 0x8000⟩]⟩,
  -- FCT_HOURS: Table 21.6
  ⟨0x100020, 0x1000, 72, 0x4, 1, [⟨31, 0, .ro, .kept, 0⟩]⟩,
  -- FCT_SUBST: Table 21.6
  ⟨0x100024, 0x1000, 72, 0x4, 1, [⟨15, 8, .ro, .kept, 0⟩, ⟨7, 0, .ro, .kept, 0xFF⟩]⟩,
  -- FCT_LDK: Table 21.6
  ⟨0x100028, 0x1000, 72, 0x4, 1, [⟨31, 0, .ro, .c, 0⟩]⟩,
  -- FCT_LDK_MISS: Table 21.6
  ⟨0x10002C, 0x1000, 72, 0x4, 1, [⟨31, 0, .ro, .c, 0⟩]⟩,
  -- FCT_GATES: Table 21.6
  ⟨0x100030, 0x1000, 72, 0x4, 1, [⟨31, 0, .ro, .c, 0⟩]⟩,
  -- FCT_DEMAND: Table 21.6
  ⟨0x100034, 0x1000, 72, 0x4, 1, [⟨31, 0, .ro, .c, 0⟩]⟩,
  -- FCT_BUDGET: Table 21.6
  ⟨0x100038, 0x1000, 72, 0x4, 1, [⟨31, 16, .ro, .c, 0⟩, ⟨15, 0, .ro, .c, 0⟩]⟩,
  -- FCT_PERF_CTRL: Table 21.6
  ⟨0x10003C, 0x1000, 72, 0x4, 1, [⟨31, 31, .rw, .s, 0⟩, ⟨30, 30, .wo, .fixed, 0⟩]⟩,
  -- FCT_CYC_LO: Table 21.6
  ⟨0x100050, 0x1000, 72, 0x4, 1, [⟨31, 0, .ro, .p, 0⟩]⟩,
  -- FCT_CYC_HI: Table 21.6
  ⟨0x100054, 0x1000, 72, 0x4, 1, [⟨31, 0, .ro, .p, 0⟩]⟩,
  -- FCT_WORKS_LO: Table 21.6
  ⟨0x100058, 0x1000, 72, 0x4, 1, [⟨31, 0, .ro, .p, 0⟩]⟩,
  -- FCT_WORKS_HI: Table 21.6
  ⟨0x10005C, 0x1000, 72, 0x4, 1, [⟨31, 0, .ro, .p, 0⟩]⟩,
  -- FCT_PERF_SEL: Table 21.6
  ⟨0x100040, 0x1000, 72, 0x4, 4, [⟨31, 0, .rw, .s, 0⟩]⟩,
  -- FCT_PERF: Table 21.6
  ⟨0x100060, 0x1000, 72, 0x4, 16, [⟨31, 0, .ro, .s, 0⟩]⟩]

/-- Registers at offsets 0x200000 to 0x2040FF (21 Table 21.2). -/
def regsApt : List RegRow := [
  -- APT_ADDR: Table 15.3
  ⟨0x200000, 0x400, 12, 0x8, 32, [⟨31, 0, .rw, .s, 0⟩]⟩,
  -- APT_ATTR: Table 15.4
  ⟨0x200004, 0x400, 12, 0x8, 30, [⟨31, 31, .rw, .s, 0⟩, ⟨30, 30, .rw, .s, 0⟩, ⟨29, 29, .rw, .s, 0⟩, ⟨28, 28, .rw, .s, 0⟩, ⟨27, 27, .rw, .s, 0⟩, ⟨26, 21, .rw, .s, 0⟩, ⟨20, 13, .rw, .s, 0⟩, ⟨12, 10, .rw, .s, 0⟩, ⟨9, 0, .rw, .s, 0⟩]⟩,
  -- APT_ATTR30: Table 15.4
  ⟨0x2000F4, 0x400, 12, 0x4, 1, [⟨31, 31, .rw, .s, 1⟩, ⟨30, 30, .rw, .s, 1⟩, ⟨29, 29, .rw, .s, 0⟩, ⟨28, 28, .rw, .s, 1⟩, ⟨27, 27, .rw, .s, 1⟩, ⟨26, 21, .rw, .s, 32⟩, ⟨20, 13, .rw, .s, 0⟩, ⟨12, 10, .rw, .s, 0⟩, ⟨9, 0, .rw, .s, 176⟩]⟩,
  -- APT_ATTR31: Table 15.4
  ⟨0x2000FC, 0x400, 12, 0x4, 1, [⟨31, 31, .rw, .s, 1⟩, ⟨30, 30, .rw, .s, 1⟩, ⟨29, 29, .rw, .s, 0⟩, ⟨28, 28, .rw, .s, 1⟩, ⟨27, 27, .rw, .s, 1⟩, ⟨26, 21, .rw, .s, 32⟩, ⟨20, 13, .rw, .s, 0⟩, ⟨12, 10, .rw, .s, 0⟩, ⟨9, 0, .rw, .s, 128⟩]⟩,
  -- APT_STATUS: Table 15.9
  ⟨0x200100, 0x400, 12, 0x4, 1, [⟨31, 31, .w1c, .s, 0⟩, ⟨30, 30, .w1c, .s, 0⟩, ⟨29, 29, .w1c, .s, 0⟩, ⟨28, 28, .ro, .s, 0⟩, ⟨27, 23, .ro, .s, 0⟩, ⟨22, 18, .ro, .s, 0⟩, ⟨15, 0, .rc, .s, 0⟩]⟩,
  -- APT_DADDR_LO: Table 15.10
  ⟨0x200104, 0x400, 12, 0x4, 1, [⟨31, 0, .ro, .s, 0⟩]⟩,
  -- APT_DADDR_HI: Table 15.10
  ⟨0x200108, 0x400, 12, 0x4, 1, [⟨31, 0, .ro, .s, 0⟩]⟩,
  -- APT_DINFO: Table 15.10
  ⟨0x20010C, 0x400, 12, 0x4, 1, [⟨31, 29, .ro, .s, 0⟩, ⟨28, 28, .ro, .s, 0⟩, ⟨27, 27, .ro, .s, 0⟩, ⟨9, 0, .ro, .s, 0⟩]⟩,
  -- APT_LOCK: Table 15.6
  ⟨0x200110, 0x400, 12, 0x4, 1, [⟨31, 0, .w1s, .s, 0⟩]⟩,
  -- APT_BAR: Table 15.5
  ⟨0x203000, 0x1000000, 1, 0x4, 1, [⟨11, 0, .rw, .s, 0⟩]⟩,
  -- ARB_CFG: Table 15.14
  ⟨0x204000, 0x20, 8, 0x4, 1, [⟨23, 16, .rw, .s, 16⟩, ⟨15, 0, .rw, .s, 4096⟩]⟩,
  -- ARB_STATUS: Table 15.15
  ⟨0x204004, 0x20, 8, 0x4, 1, [⟨31, 31, .w1c, .s, 0⟩, ⟨30, 30, .ro, .s, 0⟩, ⟨29, 29, .w1c, .s, 0⟩, ⟨23, 16, .rc, .s, 0⟩, ⟨9, 0, .ro, .s, 0⟩]⟩]

/-- Registers at offsets 0x400000 to 0x4FFFFF (21 Table 21.2). -/
def regsQp : List RegRow := [
  -- QP_SQ_BASE_LO: Table 06.2
  ⟨0x400000, 0x40, 16384, 0x4, 1, [⟨31, 12, .rwl, .s, 0⟩]⟩,
  -- QP_SQ_BASE_HI: Table 06.3
  ⟨0x400004, 0x40, 16384, 0x4, 1, [⟨31, 0, .rwl, .s, 0⟩]⟩,
  -- QP_CQ_BASE_LO: Table 06.2
  ⟨0x400008, 0x40, 16384, 0x4, 1, [⟨31, 12, .rwl, .s, 0⟩]⟩,
  -- QP_CQ_BASE_HI: Table 06.3
  ⟨0x40000C, 0x40, 16384, 0x4, 1, [⟨31, 0, .rwl, .s, 0⟩]⟩,
  -- QP_CTRL: Table 06.4
  ⟨0x400010, 0x40, 16384, 0x4, 1, [⟨31, 31, .rw, .s, 0⟩, ⟨30, 30, .rw, .s, 0⟩, ⟨26, 16, .rw, .s, 0⟩, ⟨12, 8, .rwl, .s, 6⟩, ⟨4, 0, .rwl, .s, 6⟩]⟩,
  -- QP_SQ_TAIL: Table 06.5
  ⟨0x400014, 0x40, 16384, 0x4, 1, [⟨15, 0, .rw, .s, 0⟩]⟩,
  -- QP_CQ_HEAD: Table 06.5
  ⟨0x400018, 0x40, 16384, 0x4, 1, [⟨15, 0, .rw, .s, 0⟩]⟩,
  -- QP_AH: Table 06.5
  ⟨0x40001C, 0x40, 16384, 0x4, 1, [⟨15, 0, .ro, .s, 0⟩]⟩,
  -- QP_CQ_TAIL: Table 06.5
  ⟨0x400020, 0x40, 16384, 0x4, 1, [⟨31, 31, .ro, .s, 1⟩, ⟨15, 0, .ro, .s, 0⟩]⟩,
  -- QP_CH_DUR: Table 06.5
  ⟨0x400024, 0x40, 16384, 0x4, 1, [⟨15, 0, .ro, .s, 0⟩]⟩,
  -- QP_STATUS: Table 06.6
  ⟨0x400028, 0x40, 16384, 0x4, 1, [⟨31, 31, .ro, .s, 0⟩, ⟨30, 30, .ro, .s, 0⟩, ⟨29, 29, .ro, .s, 0⟩, ⟨28, 28, .ro, .s, 0⟩, ⟨27, 27, .w1c, .s, 0⟩, ⟨26, 26, .w1c, .s, 0⟩, ⟨25, 24, .ro, .s, 0⟩, ⟨20, 0, .ro, .s, 0⟩]⟩,
  -- QP_ID: Table 06.7
  ⟨0x40002C, 0x40, 16384, 0x4, 1, [⟨31, 30, .ro, .s, 0⟩, ⟨29, 29, .ro, .s, 0⟩, ⟨28, 19, .ro, .s, 0⟩, ⟨18, 13, .ro, .s, 0⟩, ⟨11, 0, .ro, .s, 0⟩]⟩,
  -- QP_ASEQ_LO: Table 06.8
  ⟨0x400030, 0x40, 16384, 0x4, 1, [⟨31, 0, .ro, .kept, 0⟩]⟩,
  -- QP_ASEQ_HI: Table 06.8
  ⟨0x400034, 0x40, 16384, 0x4, 1, [⟨31, 0, .ro, .kept, 0⟩]⟩]

/-- The block of registers an offset falls in. -/
def regBlock (off : Nat) : List RegRow :=
  if off ≤ 0xFFF then regsDev else
  if off ≤ 0x12FF then regsRst else
  if off ≤ 0x30FF then regsLc else
  if off ≤ 0x80FF then regsEvr else
  if off ≤ 0x500FF then regsKs else
  if off ≤ 0x608FF then regsHx else
  if off ≤ 0x708FF then regsRng else
  if off ≤ 0xA00FF then regsFocVr else
  if off ≤ 0xB08FF then regsPrm else
  if off ≤ 0xCFFFF then regsSp else
  if off ≤ 0x147FFF then regsFct else
  if off ≤ 0x2040FF then regsApt else
  regsQp

namespace F

/-! DEV_ID (Table 21.5) -/
def DEV_ID_PART : Fld := ⟨0x0, 16, 16, 0x0, 0x0⟩
def DEV_ID_MODREV : Fld := ⟨0x0, 8, 8, 0x0, 0x0⟩
def DEV_ID_STEP : Fld := ⟨0x0, 4, 4, 0x0, 0x0⟩

/-! DEV_CAPS (Table 21.5) -/
def DEV_CAPS_CMDSET : Fld := ⟨0x4, 24, 8, 0x0, 0x0⟩
def DEV_CAPS_IMAGE : Fld := ⟨0x4, 16, 8, 0x0, 0x0⟩
def DEV_CAPS_RING : Fld := ⟨0x4, 8, 8, 0x0, 0x0⟩
def DEV_CAPS_PSCVM : Fld := ⟨0x4, 0, 8, 0x0, 0x0⟩

/-! DEV_START (Table 18.10) -/
def DEV_START_STAGE : Fld := ⟨0x10, 28, 4, 0x0, 0x0⟩
def DEV_START_FAIL : Fld := ⟨0x10, 24, 4, 0x0, 0x0⟩
def DEV_START_SOURCE : Fld := ⟨0x10, 22, 2, 0x0, 0x0⟩
def DEV_START_RECOVERY : Fld := ⟨0x10, 21, 1, 0x0, 0x0⟩

/-! DEV_BOOT_ADDR_LO (Table 18.15) -/
def DEV_BOOT_ADDR_LO_ADDR_LO : Fld := ⟨0x20, 12, 20, 0x0, 0x0⟩

/-! DEV_BOOT_ADDR_HI (Table 18.15) -/
def DEV_BOOT_ADDR_HI : Fld := ⟨0x24, 0, 32, 0x0, 0x0⟩

/-! DEV_BOOT_LEN (Table 18.15) -/
def DEV_BOOT_LEN : Fld := ⟨0x28, 0, 32, 0x0, 0x0⟩

/-! DEV_BOOT_CTRL (Table 18.15) -/
def DEV_BOOT_CTRL_GO : Fld := ⟨0x2C, 31, 1, 0x0, 0x0⟩
def DEV_BOOT_CTRL_BUSY : Fld := ⟨0x2C, 30, 1, 0x0, 0x0⟩

/-! DEV_SERIAL (Table 21.5) -/
def DEV_SERIAL : Fld := ⟨0x30, 0, 32, 0x4, 0x0⟩

/-! DEV_MTICK_LO (Table 01.5) -/
def DEV_MTICK_LO : Fld := ⟨0x40, 0, 32, 0x0, 0x0⟩

/-! DEV_MTICK_HI (Table 01.6) -/
def DEV_MTICK_HI : Fld := ⟨0x44, 0, 32, 0x0, 0x0⟩

/-! DEV_WEAR (Table 20.8) -/
def DEV_WEAR_SPARES : Fld := ⟨0x50, 28, 4, 0x0, 0x0⟩
def DEV_WEAR_RETIRED : Fld := ⟨0x50, 21, 7, 0x0, 0x0⟩
def DEV_WEAR_IN_SERVICE : Fld := ⟨0x50, 14, 7, 0x0, 0x0⟩
def DEV_WEAR_DEGRADED : Fld := ⟨0x50, 13, 1, 0x0, 0x0⟩
def DEV_WEAR_AGE_WARN : Fld := ⟨0x50, 12, 1, 0x0, 0x0⟩
def DEV_WEAR_HX_OFFLINE : Fld := ⟨0x50, 8, 4, 0x0, 0x0⟩

/-! RST_CAUSE (Table 18.7) -/
def RST_CAUSE_LEVEL : Fld := ⟨0x1000, 30, 2, 0x0, 0x0⟩
def RST_CAUSE_ESCALATED : Fld := ⟨0x1000, 29, 1, 0x0, 0x0⟩
def RST_CAUSE_FLUSHED : Fld := ⟨0x1000, 28, 1, 0x0, 0x0⟩
def RST_CAUSE_PFAIL : Fld := ⟨0x1000, 10, 1, 0x0, 0x0⟩
def RST_CAUSE_SOURCES : Fld := ⟨0x1000, 0, 10, 0x0, 0x0⟩

/-! STRAP_CAPTURE (Table 18.3) -/
def STRAP_CAPTURE_RINGEN : Fld := ⟨0x1004, 11, 1, 0x0, 0x0⟩
def STRAP_CAPTURE_SAFEMODE : Fld := ⟨0x1004, 10, 1, 0x0, 0x0⟩
def STRAP_CAPTURE_SPORTMAP : Fld := ⟨0x1004, 8, 2, 0x0, 0x0⟩
def STRAP_CAPTURE_PERI_ADDR : Fld := ⟨0x1004, 5, 3, 0x0, 0x0⟩
def STRAP_CAPTURE_DURMODE : Fld := ⟨0x1004, 4, 1, 0x0, 0x0⟩
def STRAP_CAPTURE_CLKMODE : Fld := ⟨0x1004, 2, 2, 0x0, 0x0⟩
def STRAP_CAPTURE_BOOTSRC : Fld := ⟨0x1004, 0, 2, 0x0, 0x0⟩

/-! RST_CTRL (Table 18.8) -/
def RST_CTRL_REQ : Fld := ⟨0x1008, 30, 2, 0x0, 0x0⟩
def RST_CTRL_PERST0 : Fld := ⟨0x1008, 0, 2, 0x0, 0x0⟩

/-! CLK_STATUS (Table 18.4) -/
def CLK_STATUS_MODE : Fld := ⟨0x1100, 30, 2, 0x0, 0x0⟩
def CLK_STATUS_LOCK : Fld := ⟨0x1100, 29, 1, 0x0, 0x0⟩
def CLK_STATUS_LOCK_LOST_SEEN : Fld := ⟨0x1100, 28, 1, 0x0, 0x0⟩
def CLK_STATUS_REFCLK_OK : Fld := ⟨0x1100, 27, 1, 0x0, 0x0⟩

/-! PWR_STATUS (Table 18.18) -/
def PWR_STATUS_VIN_OK : Fld := ⟨0x1200, 31, 1, 0x0, 0x0⟩
def PWR_STATUS_PFAIL : Fld := ⟨0x1200, 30, 1, 0x0, 0x0⟩
def PWR_STATUS_PFAIL_PIN : Fld := ⟨0x1200, 29, 1, 0x0, 0x0⟩
def PWR_STATUS_VHOLD_READY : Fld := ⟨0x1200, 28, 1, 0x0, 0x0⟩
def PWR_STATUS_VHOLD_LOW_SEEN : Fld := ⟨0x1200, 27, 1, 0x0, 0x0⟩

/-! PWR_DOM (Table 18.17) -/
def PWR_DOM : Fld := ⟨0x1210, 0, 32, 0x4, 0x0⟩

/-! LC_STATE (Table 17.4) -/
def LC_STATE_STATE : Fld := ⟨0x2000, 30, 2, 0x0, 0x0⟩
def LC_STATE_FORCED : Fld := ⟨0x2000, 29, 1, 0x0, 0x0⟩
def LC_STATE_INTERRUPTED : Fld := ⟨0x2000, 28, 1, 0x0, 0x0⟩
def LC_STATE_DISAGREE : Fld := ⟨0x2000, 25, 3, 0x0, 0x0⟩
def LC_STATE_TOKEN_FAILS : Fld := ⟨0x2000, 0, 2, 0x0, 0x0⟩

/-! LC_CMD (Table 17.4) -/
def LC_CMD_GO : Fld := ⟨0x2004, 31, 1, 0x0, 0x0⟩
def LC_CMD_BUSY : Fld := ⟨0x2004, 30, 1, 0x0, 0x0⟩
def LC_CMD_TARGET : Fld := ⟨0x2004, 28, 2, 0x0, 0x0⟩
def LC_CMD_RESULT : Fld := ⟨0x2004, 25, 3, 0x0, 0x0⟩

/-! LC_DEBUG (Table 17.4) -/
def LC_DEBUG_RIGHTS : Fld := ⟨0x2008, 16, 16, 0x0, 0x0⟩
def LC_DEBUG_IN_FORCE : Fld := ⟨0x2008, 15, 1, 0x0, 0x0⟩
def LC_DEBUG_LAST : Fld := ⟨0x2008, 12, 3, 0x0, 0x0⟩

/-! LC_TOKEN (Table 17.4) -/
def LC_TOKEN : Fld := ⟨0x2010, 0, 32, 0x4, 0x0⟩

/-! TMP_STATUS (Table 17.10) -/
def TMP_STATUS_ERASED : Fld := ⟨0x2100, 31, 1, 0x0, 0x0⟩
def TMP_STATUS_UNPOWERED : Fld := ⟨0x2100, 30, 1, 0x0, 0x0⟩
def TMP_STATUS_CELL_LOW_SEEN : Fld := ⟨0x2100, 29, 1, 0x0, 0x0⟩
def TMP_STATUS_CELL_LOW : Fld := ⟨0x2100, 27, 2, 0x0, 0x0⟩
def TMP_STATUS_HOLD : Fld := ⟨0x2100, 26, 1, 0x0, 0x0⟩
def TMP_STATUS_OTP_LOW : Fld := ⟨0x2100, 25, 1, 0x0, 0x0⟩
def TMP_STATUS_LATCHED : Fld := ⟨0x2100, 8, 8, 0x0, 0x0⟩
def TMP_STATUS_LIVE : Fld := ⟨0x2100, 0, 8, 0x0, 0x0⟩

/-! TMP_CFG (Table 17.11) -/
def TMP_CFG_LOCK : Fld := ⟨0x2104, 31, 1, 0x0, 0x0⟩
def TMP_CFG_TEST_OFF : Fld := ⟨0x2104, 8, 8, 0x0, 0x0⟩
def TMP_CFG_ERASE : Fld := ⟨0x2104, 0, 8, 0x0, 0x0⟩

/-! TMP_OTP_COUNT (Table 17.12) -/
def TMP_OTP_COUNT_PENDING : Fld := ⟨0x2108, 12, 4, 0x0, 0x0⟩
def TMP_OTP_COUNT_COUNT : Fld := ⟨0x2108, 0, 11, 0x0, 0x0⟩

/-! PSC_CFG (Table 19.7) -/
def PSC_CFG_ALERT_EN : Fld := ⟨0x3000, 31, 1, 0x0, 0x0⟩
def PSC_CFG_RESET_EN : Fld := ⟨0x3000, 30, 1, 0x0, 0x0⟩
def PSC_CFG_NOTIFY_EN : Fld := ⟨0x3000, 29, 1, 0x0, 0x0⟩
def PSC_CFG_OWNER_ADDR : Fld := ⟨0x3000, 0, 7, 0x0, 0x0⟩

/-! PSC_STATUS (Table 19.8) -/
def PSC_STATUS_MODE : Fld := ⟨0x3004, 31, 1, 0x0, 0x0⟩
def PSC_STATUS_DYN_ADDR : Fld := ⟨0x3004, 24, 7, 0x0, 0x0⟩
def PSC_STATUS_EID : Fld := ⟨0x3004, 16, 8, 0x0, 0x0⟩
def PSC_STATUS_STATIC_ADDR : Fld := ⟨0x3004, 8, 7, 0x0, 0x0⟩

/-! PSC_ERRORS (Table 19.9) -/
def PSC_ERRORS_ARB_LOST : Fld := ⟨0x3008, 24, 8, 0x0, 0x0⟩
def PSC_ERRORS_PEC_FAIL : Fld := ⟨0x3008, 16, 8, 0x0, 0x0⟩
def PSC_ERRORS_TIMEOUTS : Fld := ⟨0x3008, 8, 8, 0x0, 0x0⟩
def PSC_ERRORS_DROPPED : Fld := ⟨0x3008, 0, 8, 0x0, 0x0⟩

/-! EVR_CTRL (Table 16.3) -/
def EVR_CTRL_PRIO_EN : Fld := ⟨0x4000, 31, 1, 0x0, 0x0⟩
def EVR_CTRL_MODE : Fld := ⟨0x4000, 30, 1, 0x0, 0x0⟩

/-! EVR_STATUS (Table 16.3) -/
def EVR_STATUS_CV_FAIL : Fld := ⟨0x4004, 31, 1, 0x0, 0x0⟩
def EVR_STATUS_CMPL_ERR : Fld := ⟨0x4004, 30, 1, 0x0, 0x0⟩
def EVR_STATUS_PG_PENDING : Fld := ⟨0x4004, 29, 1, 0x0, 0x0⟩
def EVR_STATUS_SPURIOUS : Fld := ⟨0x4004, 0, 16, 0x0, 0x0⟩

/-! EVR_PRIGROUP (Table 16.3) -/
def EVR_PRIGROUP_G : Fld := ⟨0x4008, 0, 3, 0x0, 0x0⟩

/-! EVR_PRIO_CV (Table 16.3) -/
def EVR_PRIO_CV : Fld := ⟨0x400C, 0, 32, 0x0, 0x0⟩

/-! EVR_SWSET (Table 16.3) -/
def EVR_SWSET : Fld := ⟨0x4010, 0, 32, 0x0, 0x0⟩

/-! EVR_LIVE (Table 16.4) -/
def EVR_LIVE : Fld := ⟨0x4100, 0, 32, 0x4, 0x0⟩

/-! EVR_LATCH (Table 16.4) -/
def EVR_LATCH : Fld := ⟨0x4200, 0, 32, 0x4, 0x0⟩

/-! EVR_HOLDOFF (Table 16.4) -/
def EVR_HOLDOFF_TIME : Fld := ⟨0x4400, 0, 16, 0x4, 0x0⟩

/-! EVR_PRIO (Table 16.4) -/
def EVR_PRIO : Fld := ⟨0x4800, 0, 32, 0x4, 0x0⟩

/-! EVR_ROUTE (Table 16.4) -/
def EVR_ROUTE : Fld := ⟨0x5000, 0, 32, 0x4, 0x0⟩

/-! EVR_TCFG (Table 16.5) -/
def EVR_TCFG_MASK : Fld := ⟨0x6000, 31, 1, 0x100, 0x0⟩
def EVR_TCFG_VECTOR : Fld := ⟨0x6000, 0, 11, 0x100, 0x0⟩

/-! EVR_CLAIM (Table 16.5) -/
def EVR_CLAIM_SOURCE : Fld := ⟨0x6004, 0, 11, 0x100, 0x0⟩

/-! EVR_COMPLETE (Table 16.5) -/
def EVR_COMPLETE_SOURCE : Fld := ⟨0x6008, 0, 11, 0x100, 0x0⟩

/-! EVR_TSTAT (Table 16.5) -/
def EVR_TSTAT_DEPTH : Fld := ⟨0x600C, 28, 4, 0x100, 0x0⟩
def EVR_TSTAT_AVAIL : Fld := ⟨0x600C, 27, 1, 0x100, 0x0⟩
def EVR_TSTAT_OFFERED : Fld := ⟨0x600C, 16, 11, 0x100, 0x0⟩
def EVR_TSTAT_RUN_PRIO : Fld := ⟨0x600C, 8, 8, 0x100, 0x0⟩

/-! LOG_CTRL (Table 16.9) -/
def LOG_CTRL_FLUSH : Fld := ⟨0x8000, 31, 1, 0x0, 0x0⟩
def LOG_CTRL_IRQ_SEV : Fld := ⟨0x8000, 0, 3, 0x0, 0x0⟩

/-! LOG_STATUS (Table 16.9) -/
def LOG_STATUS_SEV_SEEN : Fld := ⟨0x8004, 31, 1, 0x0, 0x0⟩
def LOG_STATUS_FLUSHING : Fld := ⟨0x8004, 30, 1, 0x0, 0x0⟩
def LOG_STATUS_LOG_BAD : Fld := ⟨0x8004, 29, 1, 0x0, 0x0⟩
def LOG_STATUS_SEL_VALID : Fld := ⟨0x8004, 28, 1, 0x0, 0x0⟩
def LOG_STATUS_UNFLUSHED : Fld := ⟨0x8004, 0, 14, 0x0, 0x0⟩

/-! LOG_DROPPED (Table 16.9) -/
def LOG_DROPPED_MRAM : Fld := ⟨0x8008, 16, 16, 0x0, 0x0⟩
def LOG_DROPPED_BUFFER : Fld := ⟨0x8008, 0, 16, 0x0, 0x0⟩

/-! LOG_HEAD_LO (Table 16.9) -/
def LOG_HEAD_LO : Fld := ⟨0x8010, 0, 32, 0x0, 0x0⟩

/-! LOG_HEAD_HI (Table 16.9) -/
def LOG_HEAD_HI : Fld := ⟨0x8014, 0, 32, 0x0, 0x0⟩

/-! LOG_TAIL_LO (Table 16.9) -/
def LOG_TAIL_LO : Fld := ⟨0x8018, 0, 32, 0x0, 0x0⟩

/-! LOG_TAIL_HI (Table 16.9) -/
def LOG_TAIL_HI : Fld := ⟨0x801C, 0, 32, 0x0, 0x0⟩

/-! LOG_SEL_LO (Table 16.9) -/
def LOG_SEL_LO : Fld := ⟨0x8020, 0, 32, 0x0, 0x0⟩

/-! LOG_SEL_HI (Table 16.9) -/
def LOG_SEL_HI : Fld := ⟨0x8024, 0, 32, 0x0, 0x0⟩

/-! LOG_WIN (Table 16.9) -/
def LOG_WIN : Fld := ⟨0x8040, 0, 32, 0x4, 0x0⟩

/-! KS_STATUS (Table 04.13) -/
def KS_STATUS_READY : Fld := ⟨0x50000, 31, 1, 0x0, 0x0⟩
def KS_STATUS_RELOAD : Fld := ⟨0x50000, 28, 3, 0x0, 0x0⟩
def KS_STATUS_MARK_SET_FULL : Fld := ⟨0x50000, 21, 1, 0x0, 0x0⟩
def KS_STATUS_EXP_FULL : Fld := ⟨0x50000, 20, 1, 0x0, 0x0⟩
def KS_STATUS_GROUP_FAIL : Fld := ⟨0x50000, 18, 1, 0x0, 0x0⟩
def KS_STATUS_MARK_WAIT : Fld := ⟨0x50000, 17, 1, 0x0, 0x0⟩
def KS_STATUS_EXP_STALL : Fld := ⟨0x50000, 16, 1, 0x0, 0x0⟩
def KS_STATUS_POISON_ENTRIES : Fld := ⟨0x50000, 0, 11, 0x0, 0x0⟩

/-! KS_CTRL (Table 04.5) -/
def KS_CTRL_RELOAD_END : Fld := ⟨0x50004, 2, 1, 0x0, 0x0⟩
def KS_CTRL_IMP_EN : Fld := ⟨0x50004, 1, 1, 0x0, 0x0⟩
def KS_CTRL_EXP_EN : Fld := ⟨0x50004, 0, 1, 0x0, 0x0⟩

/-! KS_SPENT (Table 04.14) -/
def KS_SPENT_SPENT : Fld := ⟨0x50008, 0, 25, 0x0, 0x0⟩

/-! KS_SCRUB_STATUS (Table 04.16) -/
def KS_SCRUB_STATUS_RUNNING : Fld := ⟨0x50010, 31, 1, 0x0, 0x0⟩
def KS_SCRUB_STATUS_LATE : Fld := ⟨0x50010, 30, 1, 0x0, 0x0⟩
def KS_SCRUB_STATUS_UNCORR : Fld := ⟨0x50010, 29, 1, 0x0, 0x0⟩
def KS_SCRUB_STATUS_PASSES : Fld := ⟨0x50010, 16, 12, 0x0, 0x0⟩
def KS_SCRUB_STATUS_CORRECTED : Fld := ⟨0x50010, 0, 16, 0x0, 0x0⟩

/-! KS_EXP_BASE_LO (Table 04.6) -/
def KS_EXP_BASE_LO_ADDR_LO : Fld := ⟨0x50040, 12, 20, 0x0, 0x0⟩

/-! KS_EXP_BASE_HI (Table 04.7) -/
def KS_EXP_BASE_HI : Fld := ⟨0x50044, 0, 32, 0x0, 0x0⟩

/-! KS_EXP_SIZE (Table 04.8) -/
def KS_EXP_SIZE_LOG2_SLOTS : Fld := ⟨0x50048, 0, 5, 0x0, 0x0⟩

/-! KS_EXP_PROD (Table 04.9) -/
def KS_EXP_PROD : Fld := ⟨0x5004C, 0, 32, 0x0, 0x0⟩

/-! KS_EXP_ACK (Table 04.9) -/
def KS_EXP_ACK : Fld := ⟨0x50050, 0, 32, 0x0, 0x0⟩

/-! KS_EXP_DUR (Table 04.9) -/
def KS_EXP_DUR : Fld := ⟨0x50054, 0, 32, 0x0, 0x0⟩

/-! KS_IMP_BASE_LO (Table 04.6) -/
def KS_IMP_BASE_LO_ADDR_LO : Fld := ⟨0x50060, 12, 20, 0x0, 0x0⟩

/-! KS_IMP_BASE_HI (Table 04.7) -/
def KS_IMP_BASE_HI : Fld := ⟨0x50064, 0, 32, 0x0, 0x0⟩

/-! KS_IMP_SIZE (Table 04.8) -/
def KS_IMP_SIZE_LOG2_SLOTS : Fld := ⟨0x50068, 0, 5, 0x0, 0x0⟩

/-! KS_IMP_PROD (Table 04.9) -/
def KS_IMP_PROD : Fld := ⟨0x5006C, 0, 32, 0x0, 0x0⟩

/-! KS_IMP_CONS (Table 04.9) -/
def KS_IMP_CONS : Fld := ⟨0x50070, 0, 32, 0x0, 0x0⟩

/-! HX_ASTAT (Table 11.7) -/
def HX_ASTAT_OFFLINE : Fld := ⟨0x60000, 31, 1, 0x100, 0x0⟩
def HX_ASTAT_BUSY : Fld := ⟨0x60000, 30, 1, 0x100, 0x0⟩
def HX_ASTAT_INV_SEEN : Fld := ⟨0x60000, 29, 1, 0x100, 0x0⟩
def HX_ASTAT_OWNER : Fld := ⟨0x60000, 8, 12, 0x100, 0x0⟩
def HX_ASTAT_ALG : Fld := ⟨0x60000, 0, 8, 0x100, 0x0⟩

/-! HX_AINV (Table 11.8) -/
def HX_AINV_COUNT : Fld := ⟨0x60004, 0, 16, 0x100, 0x0⟩

/-! HX_AUNITS_LO (Table 21.9) -/
def HX_AUNITS_LO : Fld := ⟨0x60008, 0, 32, 0x100, 0x0⟩

/-! HX_AUNITS_HI (Table 21.9) -/
def HX_AUNITS_HI : Fld := ⟨0x6000C, 0, 32, 0x100, 0x0⟩

/-! HX_ABUSY_LO (Table 21.9) -/
def HX_ABUSY_LO : Fld := ⟨0x60010, 0, 32, 0x100, 0x0⟩

/-! HX_ABUSY_HI (Table 21.9) -/
def HX_ABUSY_HI : Fld := ⟨0x60014, 0, 32, 0x100, 0x0⟩

/-! HX_AKAT (Table 21.9) -/
def HX_AKAT_DONE : Fld := ⟨0x60018, 31, 1, 0x100, 0x0⟩
def HX_AKAT_PASS : Fld := ⟨0x60018, 30, 1, 0x100, 0x0⟩
def HX_AKAT_FIRST_FAIL : Fld := ⟨0x60018, 16, 8, 0x100, 0x0⟩

/-! HX_ACTRL (Table 21.9) -/
def HX_ACTRL_OFFLINE_REQ : Fld := ⟨0x6001C, 31, 1, 0x100, 0x0⟩

/-! HX_ASAMP (Table 21.9) -/
def HX_ASAMP : Fld := ⟨0x60040, 0, 32, 0x100, 0x0⟩

/-! HX_AENT (Table 21.9) -/
def HX_AENT : Fld := ⟨0x60044, 0, 32, 0x100, 0x0⟩

/-! HX_ADMA (Table 21.9) -/
def HX_ADMA : Fld := ⟨0x60048, 0, 32, 0x100, 0x0⟩

/-! HX_ALAST (Table 21.9) -/
def HX_ALAST_OUTCOME : Fld := ⟨0x6004C, 30, 2, 0x100, 0x0⟩
def HX_ALAST_OWNER : Fld := ⟨0x6004C, 16, 12, 0x100, 0x0⟩
def HX_ALAST_ALG : Fld := ⟨0x6004C, 0, 8, 0x100, 0x0⟩

/-! HX_ATEMP (Table 21.9) -/
def HX_ATEMP_TEMP : Fld := ⟨0x60050, 0, 16, 0x100, 0x0⟩

/-! HX_AIDLE_LO (Table 21.9) -/
def HX_AIDLE_LO : Fld := ⟨0x60054, 0, 32, 0x100, 0x0⟩

/-! HX_AIDLE_HI (Table 21.9) -/
def HX_AIDLE_HI : Fld := ⟨0x60058, 0, 32, 0x100, 0x0⟩

/-! HX_AABORT (Table 21.9) -/
def HX_AABORT : Fld := ⟨0x6005C, 0, 32, 0x100, 0x0⟩

/-! HX_ACNT (Table 21.9) -/
def HX_ACNT : Fld := ⟨0x60020, 0, 32, 0x100, 0x4⟩

/-! HX_CFG (Table 11.5) -/
def HX_CFG_QUANTUM : Fld := ⟨0x60800, 0, 16, 0x0, 0x0⟩

/-! HX_PARKED (Table 11.6) -/
def HX_PARKED_FULL : Fld := ⟨0x60804, 31, 1, 0x0, 0x0⟩
def HX_PARKED_FULL_SEEN : Fld := ⟨0x60804, 30, 1, 0x0, 0x0⟩
def HX_PARKED_OWNER_FULL_SEEN : Fld := ⟨0x60804, 29, 1, 0x0, 0x0⟩
def HX_PARKED_PARKED : Fld := ⟨0x60804, 0, 17, 0x0, 0x0⟩

/-! RNG_STATUS (Table 12.5) -/
def RNG_STATUS_STATE : Fld := ⟨0x70000, 29, 3, 0x0, 0x0⟩
def RNG_STATUS_STOP_SEEN : Fld := ⟨0x70000, 28, 1, 0x0, 0x0⟩
def RNG_STATUS_EXCL_SEEN : Fld := ⟨0x70000, 27, 1, 0x0, 0x0⟩
def RNG_STATUS_RATE : Fld := ⟨0x70000, 0, 12, 0x0, 0x0⟩

/-! RNG_ACTIVE (Table 12.6) -/
def RNG_ACTIVE_ACTIVE : Fld := ⟨0x70004, 0, 28, 0x0, 0x0⟩

/-! RNG_EXCLUDED (Table 12.6) -/
def RNG_EXCLUDED_EXCLUDED : Fld := ⟨0x70008, 0, 28, 0x0, 0x0⟩

/-! RNG_SPENT (Table 12.6) -/
def RNG_SPENT_SPENT : Fld := ⟨0x7000C, 0, 28, 0x0, 0x0⟩

/-! RNG_FAILS (Table 12.7) -/
def RNG_FAILS_RCT : Fld := ⟨0x70010, 16, 16, 0x0, 0x0⟩
def RNG_FAILS_APT : Fld := ⟨0x70010, 0, 16, 0x0, 0x0⟩

/-! CVU_CTRL (Table 12.10) -/
def CVU_CTRL_BUSY : Fld := ⟨0x70800, 31, 1, 0x0, 0x0⟩
def CVU_CTRL_START : Fld := ⟨0x70800, 30, 1, 0x0, 0x0⟩
def CVU_CTRL_NBYTES : Fld := ⟨0x70800, 4, 2, 0x0, 0x0⟩
def CVU_CTRL_CTX : Fld := ⟨0x70800, 2, 1, 0x0, 0x0⟩
def CVU_CTRL_POLY : Fld := ⟨0x70800, 0, 2, 0x0, 0x0⟩

/-! CVU_CTX_LO (Table 12.11) -/
def CVU_CTX_LO : Fld := ⟨0x70804, 0, 32, 0x0, 0x0⟩

/-! CVU_CTX_HI (Table 12.11) -/
def CVU_CTX_HI : Fld := ⟨0x70808, 0, 32, 0x0, 0x0⟩

/-! CVU_DATA (Table 12.11) -/
def CVU_DATA : Fld := ⟨0x7080C, 0, 32, 0x0, 0x0⟩

/-! CVU_RESULT_LO (Table 12.11) -/
def CVU_RESULT_LO : Fld := ⟨0x70810, 0, 32, 0x0, 0x0⟩

/-! CVU_RESULT_HI (Table 12.11) -/
def CVU_RESULT_HI : Fld := ⟨0x70814, 0, 32, 0x0, 0x0⟩

/-! FOC_NOW_NS (Table 10.1) -/
def FOC_NOW_NS_NS : Fld := ⟨0x80000, 0, 30, 0x0, 0x0⟩

/-! FOC_NOW_SLO (Table 10.2) -/
def FOC_NOW_SLO : Fld := ⟨0x80004, 0, 32, 0x0, 0x0⟩

/-! FOC_NOW_SHI (Table 10.2) -/
def FOC_NOW_SHI_SEC_HI : Fld := ⟨0x80008, 0, 16, 0x0, 0x0⟩

/-! FOC_TCFG (Table 10.5) -/
def FOC_TCFG_SRC : Fld := ⟨0x80010, 30, 2, 0x0, 0x0⟩
def FOC_TCFG_PTP_PORT : Fld := ⟨0x80010, 26, 4, 0x0, 0x0⟩
def FOC_TCFG_PTP_SUB : Fld := ⟨0x80010, 24, 2, 0x0, 0x0⟩
def FOC_TCFG_PTP_TRANSPORT : Fld := ⟨0x80010, 22, 2, 0x0, 0x0⟩
def FOC_TCFG_DOMAIN : Fld := ⟨0x80010, 15, 7, 0x0, 0x0⟩
def FOC_TCFG_PPS_OUT_EN : Fld := ⟨0x80010, 14, 1, 0x0, 0x0⟩
def FOC_TCFG_PPS_POL : Fld := ⟨0x80010, 13, 1, 0x0, 0x0⟩
def FOC_TCFG_PRIORITY : Fld := ⟨0x80010, 8, 4, 0x0, 0x0⟩

/-! FOC_TSTAT (Table 10.6) -/
def FOC_TSTAT_STATE : Fld := ⟨0x80014, 29, 3, 0x0, 0x0⟩
def FOC_TSTAT_RING_SRC : Fld := ⟨0x80014, 28, 1, 0x0, 0x0⟩
def FOC_TSTAT_BEHIND : Fld := ⟨0x80014, 27, 1, 0x0, 0x0⟩
def FOC_TSTAT_STATE_CHG : Fld := ⟨0x80014, 26, 1, 0x0, 0x0⟩
def FOC_TSTAT_TOD_ERR : Fld := ⟨0x80014, 25, 1, 0x0, 0x0⟩
def FOC_TSTAT_ENTRIES : Fld := ⟨0x80014, 0, 13, 0x0, 0x0⟩

/-! FOC_OFFSET (Table 10.7) -/
def FOC_OFFSET : Fld := ⟨0x80018, 0, 32, 0x0, 0x0⟩

/-! VR_STATE (Table 13.10) -/
def VR_STATE_STATE : Fld := ⟨0xA0000, 29, 3, 0x0, 0x0⟩
def VR_STATE_HELD : Fld := ⟨0xA0000, 28, 1, 0x0, 0x0⟩
def VR_STATE_TAKEN : Fld := ⟨0xA0000, 27, 1, 0x0, 0x0⟩
def VR_STATE_OPEN_WAIT : Fld := ⟨0xA0000, 26, 1, 0x0, 0x0⟩
def VR_STATE_NODE_ID : Fld := ⟨0xA0000, 12, 4, 0x0, 0x0⟩
def VR_STATE_PRED : Fld := ⟨0xA0000, 8, 4, 0x0, 0x0⟩
def VR_STATE_SUCC : Fld := ⟨0xA0000, 4, 4, 0x0, 0x0⟩
def VR_STATE_SET_HOME : Fld := ⟨0xA0000, 0, 4, 0x0, 0x0⟩

/-! VR_CFG (Table 13.11) -/
def VR_CFG_ENABLE : Fld := ⟨0xA0004, 31, 1, 0x0, 0x0⟩
def VR_CFG_FORCE_OPEN : Fld := ⟨0xA0004, 30, 1, 0x0, 0x0⟩

/-! VR_MEMBERS (Table 13.12) -/
def VR_MEMBERS_MEMBERS : Fld := ⟨0xA0008, 0, 16, 0x0, 0x0⟩

/-! VR_VERSION (Table 13.12) -/
def VR_VERSION_LOWEST : Fld := ⟨0xA000C, 16, 8, 0x0, 0x0⟩
def VR_VERSION_HIGHEST : Fld := ⟨0xA000C, 8, 8, 0x0, 0x0⟩
def VR_VERSION_IN_USE : Fld := ⟨0xA000C, 0, 8, 0x0, 0x0⟩

/-! VR_LINK (Table 13.13) -/
def VR_LINK_LOCK : Fld := ⟨0xA0010, 28, 4, 0x4, 0x0⟩
def VR_LINK_UP : Fld := ⟨0xA0010, 27, 1, 0x4, 0x0⟩
def VR_LINK_UP_CHG : Fld := ⟨0xA0010, 26, 1, 0x4, 0x0⟩
def VR_LINK_MIRROR : Fld := ⟨0xA0010, 23, 3, 0x4, 0x0⟩
def VR_LINK_PEER : Fld := ⟨0xA0010, 18, 4, 0x4, 0x0⟩
def VR_LINK_UNCORR : Fld := ⟨0xA0010, 0, 16, 0x4, 0x0⟩

/-! VR_COPY (Table 13.14) -/
def VR_COPY_STATE : Fld := ⟨0xA0020, 29, 3, 0x0, 0x0⟩
def VR_COPY_ABORT_SEEN : Fld := ⟨0xA0020, 28, 1, 0x0, 0x0⟩
def VR_COPY_TARGET : Fld := ⟨0xA0020, 24, 4, 0x0, 0x0⟩
def VR_COPY_MIB : Fld := ⟨0xA0020, 0, 13, 0x0, 0x0⟩

/-! VR_EVENTS (Table 13.15) -/
def VR_EVENTS_LEASE_LOST : Fld := ⟨0xA0024, 31, 1, 0x0, 0x0⟩
def VR_EVENTS_TAKEOVER_DONE : Fld := ⟨0xA0024, 30, 1, 0x0, 0x0⟩
def VR_EVENTS_TAKEN_OVER : Fld := ⟨0xA0024, 29, 1, 0x0, 0x0⟩
def VR_EVENTS_FALLBACK_SEEN : Fld := ⟨0xA0024, 28, 1, 0x0, 0x0⟩
def VR_EVENTS_HOLDER_LOST : Fld := ⟨0xA0024, 27, 1, 0x0, 0x0⟩
def VR_EVENTS_PASS_PROOF : Fld := ⟨0xA0024, 26, 1, 0x0, 0x0⟩
def VR_EVENTS_LINK_DOWN_SEEN : Fld := ⟨0xA0024, 25, 1, 0x0, 0x0⟩

/-! PRM_STATUS (Table 09.15) -/
def PRM_STATUS_LAG : Fld := ⟨0xB0000, 31, 1, 0x0, 0x0⟩
def PRM_STATUS_RETIRE : Fld := ⟨0xB0000, 30, 1, 0x0, 0x0⟩
def PRM_STATUS_HANG : Fld := ⟨0xB0000, 29, 1, 0x0, 0x0⟩
def PRM_STATUS_CELLS_LOW : Fld := ⟨0xB0000, 28, 1, 0x0, 0x0⟩
def PRM_STATUS_CELLS_LOW_SEEN : Fld := ⟨0xB0000, 27, 1, 0x0, 0x0⟩
def PRM_STATUS_CELLS_FREE : Fld := ⟨0xB0000, 0, 19, 0x0, 0x0⟩

/-! PRM_LAG_LIMIT (Table 09.16) -/
def PRM_LAG_LIMIT_LIMIT : Fld := ⟨0xB0004, 0, 16, 0x0, 0x0⟩

/-! PRM_CAPS (Table 09.17) -/
def PRM_CAPS_SF_VERSIONS : Fld := ⟨0xB0008, 0, 8, 0x0, 0x0⟩

/-! COL_INFLIGHT (Table 21.10) -/
def COL_INFLIGHT_HELD : Fld := ⟨0xB0800, 31, 1, 0x0, 0x0⟩
def COL_INFLIGHT_FRAMES : Fld := ⟨0xB0800, 0, 19, 0x0, 0x0⟩

/-! COL_HELD_LO (Table 21.10) -/
def COL_HELD_LO : Fld := ⟨0xB0804, 0, 32, 0x0, 0x0⟩

/-! COL_HELD_HI (Table 21.10) -/
def COL_HELD_HI : Fld := ⟨0xB0808, 0, 32, 0x0, 0x0⟩

/-! SP_CFG (Table 09.1) -/
def SP_CFG_ENABLE : Fld := ⟨0xC0000, 31, 1, 0x1000, 0x0⟩
def SP_CFG_SIDE : Fld := ⟨0xC0000, 30, 1, 0x1000, 0x0⟩
def SP_CFG_BREAKOUT : Fld := ⟨0xC0000, 28, 2, 0x1000, 0x0⟩
def SP_CFG_PEER : Fld := ⟨0xC0000, 24, 4, 0x1000, 0x0⟩
def SP_CFG_MAX_FRAME : Fld := ⟨0xC0000, 0, 14, 0x1000, 0x0⟩

/-! SP_STATUS (Table 09.2) -/
def SP_STATUS_LINK : Fld := ⟨0xC0004, 28, 4, 0x1000, 0x0⟩
def SP_STATUS_LINK_CHG : Fld := ⟨0xC0004, 24, 4, 0x1000, 0x0⟩
def SP_STATUS_PAIR_ERR : Fld := ⟨0xC0004, 23, 1, 0x1000, 0x0⟩
def SP_STATUS_DARK : Fld := ⟨0xC0004, 22, 1, 0x1000, 0x0⟩

/-! SP_SF (Table 09.3) -/
def SP_SF_UDP_PORT : Fld := ⟨0xC0008, 0, 16, 0x1000, 0x0⟩

/-! SP_FEC_CORR (Table 21.8) -/
def SP_FEC_CORR : Fld := ⟨0xC000C, 0, 32, 0x1000, 0x0⟩

/-! SP_FEC_UNCORR (Table 21.8) -/
def SP_FEC_UNCORR : Fld := ⟨0xC0010, 0, 32, 0x1000, 0x0⟩

/-! SP_PCS_ERR (Table 21.8) -/
def SP_PCS_ERR_BLOCKS : Fld := ⟨0xC0014, 0, 16, 0x1000, 0x0⟩

/-! SP_LOSS_LO (Table 09.12) -/
def SP_LOSS_LO : Fld := ⟨0xC0100, 0, 32, 0x1000, 0x8⟩

/-! SP_LOSS_HI (Table 09.12) -/
def SP_LOSS_HI : Fld := ⟨0xC0104, 0, 32, 0x1000, 0x8⟩

/-! SP_RXOK_LO (Table 21.8) -/
def SP_RXOK_LO : Fld := ⟨0xC0200, 0, 32, 0x1000, 0x40⟩

/-! SP_RXOK_HI (Table 21.8) -/
def SP_RXOK_HI : Fld := ⟨0xC0204, 0, 32, 0x1000, 0x40⟩

/-! SP_RXOCT_LO (Table 21.8) -/
def SP_RXOCT_LO : Fld := ⟨0xC0208, 0, 32, 0x1000, 0x40⟩

/-! SP_RXOCT_HI (Table 21.8) -/
def SP_RXOCT_HI : Fld := ⟨0xC020C, 0, 32, 0x1000, 0x40⟩

/-! SP_TXOK_LO (Table 21.8) -/
def SP_TXOK_LO : Fld := ⟨0xC0210, 0, 32, 0x1000, 0x40⟩

/-! SP_TXOK_HI (Table 21.8) -/
def SP_TXOK_HI : Fld := ⟨0xC0214, 0, 32, 0x1000, 0x40⟩

/-! SP_TXOCT_LO (Table 21.8) -/
def SP_TXOCT_LO : Fld := ⟨0xC0218, 0, 32, 0x1000, 0x40⟩

/-! SP_TXOCT_HI (Table 21.8) -/
def SP_TXOCT_HI : Fld := ⟨0xC021C, 0, 32, 0x1000, 0x40⟩

/-! SP_FCSERR (Table 21.8) -/
def SP_FCSERR : Fld := ⟨0xC0220, 0, 32, 0x1000, 0x40⟩

/-! SP_LENERR (Table 21.8) -/
def SP_LENERR : Fld := ⟨0xC0224, 0, 32, 0x1000, 0x40⟩

/-! FCT_MAP (Table 02.9) -/
def FCT_MAP_VALID : Fld := ⟨0x100000, 31, 1, 0x1000, 0x0⟩
def FCT_MAP_STATE : Fld := ⟨0x100000, 24, 4, 0x1000, 0x0⟩
def FCT_MAP_ROLE : Fld := ⟨0x100000, 16, 2, 0x1000, 0x0⟩
def FCT_MAP_LOGICAL : Fld := ⟨0x100000, 0, 6, 0x1000, 0x0⟩

/-! FCT_STATUS (Table 02.10) -/
def FCT_STATUS_USE_CODE : Fld := ⟨0x100004, 24, 8, 0x1000, 0x0⟩
def FCT_STATUS_ENTRY_CLASS : Fld := ⟨0x100004, 20, 4, 0x1000, 0x0⟩
def FCT_STATUS_LENS_FAULT : Fld := ⟨0x100004, 2, 1, 0x1000, 0x0⟩
def FCT_STATUS_IDLE : Fld := ⟨0x100004, 1, 1, 0x1000, 0x0⟩
def FCT_STATUS_K_VALID : Fld := ⟨0x100004, 0, 1, 0x1000, 0x0⟩

/-! FCT_LENS_COUNT (Table 02.11) -/
def FCT_LENS_COUNT_LENS1 : Fld := ⟨0x100010, 16, 16, 0x1000, 0x0⟩
def FCT_LENS_COUNT_LENS0 : Fld := ⟨0x100010, 0, 16, 0x1000, 0x0⟩

/-! FCT_ERRORS (Table 20.6) -/
def FCT_ERRORS_PARITY_FAULTS : Fld := ⟨0x100014, 24, 8, 0x1000, 0x0⟩
def FCT_ERRORS_DSRAM_UNCORR : Fld := ⟨0x100014, 16, 8, 0x1000, 0x0⟩
def FCT_ERRORS_DSRAM_CORR : Fld := ⟨0x100014, 0, 16, 0x1000, 0x0⟩

/-! FCT_AGE (Table 20.7) -/
def FCT_AGE_WARN : Fld := ⟨0x100018, 31, 1, 0x1000, 0x0⟩
def FCT_AGE_PENDING : Fld := ⟨0x100018, 30, 1, 0x1000, 0x0⟩
def FCT_AGE_CAUSE : Fld := ⟨0x100018, 24, 4, 0x1000, 0x0⟩
def FCT_AGE_AGE : Fld := ⟨0x100018, 0, 16, 0x1000, 0x0⟩

/-! FCT_WORK (Table 21.6) -/
def FCT_WORK_KIND : Fld := ⟨0x100008, 30, 2, 0x1000, 0x0⟩
def FCT_WORK_OWNER : Fld := ⟨0x100008, 16, 12, 0x1000, 0x0⟩
def FCT_WORK_ENTRY : Fld := ⟨0x100008, 0, 16, 0x1000, 0x0⟩

/-! FCT_ABANDON (Table 21.6) -/
def FCT_ABANDON_CAUSE : Fld := ⟨0x10000C, 28, 4, 0x1000, 0x0⟩
def FCT_ABANDON_OWNER : Fld := ⟨0x10000C, 16, 12, 0x1000, 0x0⟩
def FCT_ABANDON_ENTRY : Fld := ⟨0x10000C, 0, 16, 0x1000, 0x0⟩

/-! FCT_AGE_RAW (Table 21.6) -/
def FCT_AGE_RAW_RATIO : Fld := ⟨0x10001C, 16, 16, 0x1000, 0x0⟩
def FCT_AGE_RAW_ENROLLED : Fld := ⟨0x10001C, 0, 16, 0x1000, 0x0⟩

/-! FCT_HOURS (Table 21.6) -/
def FCT_HOURS : Fld := ⟨0x100020, 0, 32, 0x1000, 0x0⟩

/-! FCT_SUBST (Table 21.6) -/
def FCT_SUBST_NUMBER : Fld := ⟨0x100024, 8, 8, 0x1000, 0x0⟩
def FCT_SUBST_FROM : Fld := ⟨0x100024, 0, 8, 0x1000, 0x0⟩

/-! FCT_LDK (Table 21.6) -/
def FCT_LDK : Fld := ⟨0x100028, 0, 32, 0x1000, 0x0⟩

/-! FCT_LDK_MISS (Table 21.6) -/
def FCT_LDK_MISS : Fld := ⟨0x10002C, 0, 32, 0x1000, 0x0⟩

/-! FCT_GATES (Table 21.6) -/
def FCT_GATES : Fld := ⟨0x100030, 0, 32, 0x1000, 0x0⟩

/-! FCT_DEMAND (Table 21.6) -/
def FCT_DEMAND : Fld := ⟨0x100034, 0, 32, 0x1000, 0x0⟩

/-! FCT_BUDGET (Table 21.6) -/
def FCT_BUDGET_USED : Fld := ⟨0x100038, 16, 16, 0x1000, 0x0⟩
def FCT_BUDGET_BUDGET : Fld := ⟨0x100038, 0, 16, 0x1000, 0x0⟩

/-! FCT_PERF_CTRL (Table 21.6) -/
def FCT_PERF_CTRL_EN : Fld := ⟨0x10003C, 31, 1, 0x1000, 0x0⟩
def FCT_PERF_CTRL_CLEAR : Fld := ⟨0x10003C, 30, 1, 0x1000, 0x0⟩

/-! FCT_CYC_LO (Table 21.6) -/
def FCT_CYC_LO : Fld := ⟨0x100050, 0, 32, 0x1000, 0x0⟩

/-! FCT_CYC_HI (Table 21.6) -/
def FCT_CYC_HI : Fld := ⟨0x100054, 0, 32, 0x1000, 0x0⟩

/-! FCT_WORKS_LO (Table 21.6) -/
def FCT_WORKS_LO : Fld := ⟨0x100058, 0, 32, 0x1000, 0x0⟩

/-! FCT_WORKS_HI (Table 21.6) -/
def FCT_WORKS_HI : Fld := ⟨0x10005C, 0, 32, 0x1000, 0x0⟩

/-! FCT_PERF_SEL (Table 21.6) -/
def FCT_PERF_SEL : Fld := ⟨0x100040, 0, 32, 0x1000, 0x4⟩

/-! FCT_PERF (Table 21.6) -/
def FCT_PERF : Fld := ⟨0x100060, 0, 32, 0x1000, 0x4⟩

/-! APT_ADDR (Table 15.3) -/
def APT_ADDR : Fld := ⟨0x200000, 0, 32, 0x400, 0x8⟩

/-! APT_ATTR (Table 15.4) -/
def APT_ATTR_EN : Fld := ⟨0x200004, 31, 1, 0x400, 0x8⟩
def APT_ATTR_IN : Fld := ⟨0x200004, 30, 1, 0x400, 0x8⟩
def APT_ATTR_OUT : Fld := ⟨0x200004, 29, 1, 0x400, 0x8⟩
def APT_ATTR_W : Fld := ⟨0x200004, 28, 1, 0x400, 0x8⟩
def APT_ATTR_R : Fld := ⟨0x200004, 27, 1, 0x400, 0x8⟩
def APT_ATTR_SIZE : Fld := ⟨0x200004, 21, 6, 0x400, 0x8⟩
def APT_ATTR_SRD : Fld := ⟨0x200004, 13, 8, 0x400, 0x8⟩
def APT_ATTR_MIGN : Fld := ⟨0x200004, 10, 3, 0x400, 0x8⟩
def APT_ATTR_MASTER : Fld := ⟨0x200004, 0, 10, 0x400, 0x8⟩

/-! APT_STATUS (Table 15.9) -/
def APT_STATUS_DENY_SEEN : Fld := ⟨0x200100, 31, 1, 0x400, 0x0⟩
def APT_STATUS_OVERLAP : Fld := ⟨0x200100, 30, 1, 0x400, 0x0⟩
def APT_STATUS_DESC_ERR : Fld := ⟨0x200100, 29, 1, 0x400, 0x0⟩
def APT_STATUS_PENDING : Fld := ⟨0x200100, 28, 1, 0x400, 0x0⟩
def APT_STATUS_DESC_A : Fld := ⟨0x200100, 23, 5, 0x400, 0x0⟩
def APT_STATUS_DESC_B : Fld := ⟨0x200100, 18, 5, 0x400, 0x0⟩
def APT_STATUS_DENIED : Fld := ⟨0x200100, 0, 16, 0x400, 0x0⟩

/-! APT_DADDR_LO (Table 15.10) -/
def APT_DADDR_LO : Fld := ⟨0x200104, 0, 32, 0x400, 0x0⟩

/-! APT_DADDR_HI (Table 15.10) -/
def APT_DADDR_HI : Fld := ⟨0x200108, 0, 32, 0x400, 0x0⟩

/-! APT_DINFO (Table 15.10) -/
def APT_DINFO_CAUSE : Fld := ⟨0x20010C, 29, 3, 0x400, 0x0⟩
def APT_DINFO_WRITE : Fld := ⟨0x20010C, 28, 1, 0x400, 0x0⟩
def APT_DINFO_INNER : Fld := ⟨0x20010C, 27, 1, 0x400, 0x0⟩
def APT_DINFO_MASTER : Fld := ⟨0x20010C, 0, 10, 0x400, 0x0⟩

/-! APT_LOCK (Table 15.6) -/
def APT_LOCK : Fld := ⟨0x200110, 0, 32, 0x400, 0x0⟩

/-! APT_BAR (Table 15.5) -/
def APT_BAR_UNITS : Fld := ⟨0x203000, 0, 12, 0x0, 0x0⟩

/-! ARB_CFG (Table 15.14) -/
def ARB_CFG_BURST : Fld := ⟨0x204000, 16, 8, 0x20, 0x0⟩
def ARB_CFG_HOLD : Fld := ⟨0x204000, 0, 16, 0x20, 0x0⟩

/-! ARB_STATUS (Table 15.15) -/
def ARB_STATUS_HOLD_SEEN : Fld := ⟨0x204004, 31, 1, 0x20, 0x0⟩
def ARB_STATUS_BUSY : Fld := ⟨0x204004, 30, 1, 0x20, 0x0⟩
def ARB_STATUS_SAT_SEEN : Fld := ⟨0x204004, 29, 1, 0x20, 0x0⟩
def ARB_STATUS_CUTS : Fld := ⟨0x204004, 16, 8, 0x20, 0x0⟩
def ARB_STATUS_HOLDER : Fld := ⟨0x204004, 0, 10, 0x20, 0x0⟩

/-! QP_SQ_BASE_LO (Table 06.2) -/
def QP_SQ_BASE_LO_ADDR_LO : Fld := ⟨0x400000, 12, 20, 0x40, 0x0⟩

/-! QP_SQ_BASE_HI (Table 06.3) -/
def QP_SQ_BASE_HI : Fld := ⟨0x400004, 0, 32, 0x40, 0x0⟩

/-! QP_CQ_BASE_LO (Table 06.2) -/
def QP_CQ_BASE_LO_ADDR_LO : Fld := ⟨0x400008, 12, 20, 0x40, 0x0⟩

/-! QP_CQ_BASE_HI (Table 06.3) -/
def QP_CQ_BASE_HI : Fld := ⟨0x40000C, 0, 32, 0x40, 0x0⟩

/-! QP_CTRL (Table 06.4) -/
def QP_CTRL_ENABLE : Fld := ⟨0x400010, 31, 1, 0x40, 0x0⟩
def QP_CTRL_INT_EN : Fld := ⟨0x400010, 30, 1, 0x40, 0x0⟩
def QP_CTRL_VECTOR : Fld := ⟨0x400010, 16, 11, 0x40, 0x0⟩
def QP_CTRL_LOG2_CQ : Fld := ⟨0x400010, 8, 5, 0x40, 0x0⟩
def QP_CTRL_LOG2_SQ : Fld := ⟨0x400010, 0, 5, 0x40, 0x0⟩

/-! QP_SQ_TAIL (Table 06.5) -/
def QP_SQ_TAIL_TAIL : Fld := ⟨0x400014, 0, 16, 0x40, 0x0⟩

/-! QP_CQ_HEAD (Table 06.5) -/
def QP_CQ_HEAD_CH : Fld := ⟨0x400018, 0, 16, 0x40, 0x0⟩

/-! QP_AH (Table 06.5) -/
def QP_AH_AH : Fld := ⟨0x40001C, 0, 16, 0x40, 0x0⟩

/-! QP_CQ_TAIL (Table 06.5) -/
def QP_CQ_TAIL_PHASE : Fld := ⟨0x400020, 31, 1, 0x40, 0x0⟩
def QP_CQ_TAIL_TAIL : Fld := ⟨0x400020, 0, 16, 0x40, 0x0⟩

/-! QP_CH_DUR (Table 06.5) -/
def QP_CH_DUR_DUR : Fld := ⟨0x400024, 0, 16, 0x40, 0x0⟩

/-! QP_STATUS (Table 06.6) -/
def QP_STATUS_RUN : Fld := ⟨0x400028, 31, 1, 0x40, 0x0⟩
def QP_STATUS_RECOVERING : Fld := ⟨0x400028, 30, 1, 0x40, 0x0⟩
def QP_STATUS_FALLBACK : Fld := ⟨0x400028, 29, 1, 0x40, 0x0⟩
def QP_STATUS_JFULL : Fld := ⟨0x400028, 28, 1, 0x40, 0x0⟩
def QP_STATUS_DB_ERR : Fld := ⟨0x400028, 27, 1, 0x40, 0x0⟩
def QP_STATUS_JFULL_SEEN : Fld := ⟨0x400028, 26, 1, 0x40, 0x0⟩
def QP_STATUS_MODE : Fld := ⟨0x400028, 24, 2, 0x40, 0x0⟩
def QP_STATUS_RECOVER_LEFT : Fld := ⟨0x400028, 0, 21, 0x40, 0x0⟩

/-! QP_ID (Table 06.7) -/
def QP_ID_PORT : Fld := ⟨0x40002C, 30, 2, 0x40, 0x0⟩
def QP_ID_KIND : Fld := ⟨0x40002C, 29, 1, 0x40, 0x0⟩
def QP_ID_VF : Fld := ⟨0x40002C, 19, 10, 0x40, 0x0⟩
def QP_ID_QPN : Fld := ⟨0x40002C, 13, 6, 0x40, 0x0⟩
def QP_ID_OWNER : Fld := ⟨0x40002C, 0, 12, 0x40, 0x0⟩

/-! QP_ASEQ_LO (Table 06.8) -/
def QP_ASEQ_LO : Fld := ⟨0x400030, 0, 32, 0x40, 0x0⟩

/-! QP_ASEQ_HI (Table 06.8) -/
def QP_ASEQ_HI : Fld := ⟨0x400034, 0, 32, 0x40, 0x0⟩

end F

end Sys2Proof.Machine
end

