-- ==== Sys2Proof/Machine/State.lean ====
section
/-! DEFINITION. Machine/State.lean: everything the spec gives the block to hold, as plain data, and its value at reset.
Registers of the register map stand in one table `regs` by their offset (21 R494); what a register only shows a part of,
or what no register shows, has a field of its own. -/

namespace Sys2Proof.Machine

/-! ## Outputs and agents -/

/-- The outcome of one command of the queue pairs: who submitted it, its work tag, its status and its result. -/
structure Done where
  owner : Nat
  tag : Nat
  status : Nat
  result : Bytes
  deriving DecidableEq, Repr

/-- What the device sends out: messages, frames and pulses the outside world can observe. -/
inductive Out where
  /-- An MSI-X message of a function (06 R158, 16 R406). -/
  | msix (fn vector : Nat)
  /-- Bytes written to host memory (03 R59, 04 R97, 06 R158). -/
  | host (fn addr : Nat) (data : Bytes)
  /-- A frame sent on a ring port (13). -/
  | ring (east : Bool) (kind : Nat) (data : Bytes)
  /-- A frame leaving a stream port (09 R262). -/
  | frame (port sub : Nat) (data : Bytes)
  /-- A message of the Periscope port (19). -/
  | psc (data : Bytes)
  /-- Bits shifted out of the Loupe port (17 R426). -/
  | loupe (data : Bytes)
  /-- A pulse on a pad: an alert (19 R477). -/
  | pulse (pad : Nat)
  /-- The level that PPS_OUT takes for 100 ms (10 R284). -/
  | pps (high : Bool)
  deriving DecidableEq, Repr

/-! ## The event record and the router (16) -/

/-- One event record (16 Table 16.7). -/
structure EvRec where
  seq : Nat
  sec : Nat
  ns : Nat
  mtick : Nat
  sev : Nat
  flushed : Bool
  code : Nat
  source : Nat
  owner : Nat
  rep : Nat
  lastTick : Nat
  /-- Index of the buffer place the record stands in: the CRC context of 16 Table 16.7. -/
  idx : Nat
  data : Bytes
  deriving DecidableEq, Repr

/-- The event recorder (16 R413 to R419). -/
structure LogSt where
  /-- The on-die buffer of 8,192 records, oldest first. -/
  buf : List EvRec
  /-- The MRAM log: slot number to record. -/
  mram : Tab (Option EvRec)
  /-- The next sequence number. -/
  next : Nat
  deriving DecidableEq, Repr

/-- The event router (16 R398 to R412); its registers stand in `State.regs`. -/
structure EvrSt where
  /-- Latched sources, rising (EVR_LATCH). -/
  latched : List Nat
  /-- Latched sources still held by their group's hold-off timer. -/
  held : List Nat
  /-- Groups whose hold-off timer runs. -/
  timers : List Nat
  /-- Source to the target it is assigned to, plus 1. -/
  assigned : Tab Nat
  /-- Source to the target that last received it, plus 1. -/
  rr : Tab Nat
  /-- Claim stacks by target, top first. -/
  claims : Tab (List Nat)
  /-- The source last offered to a target, plus 1. -/
  offer : Tab Nat
  /-- Targets whose offer was withdrawn since their last claim. -/
  withdrawn : List Nat
  /-- The group split in force, and one that waits under R409. -/
  g : Nat
  gWait : Option Nat
  /-- Targets made available (16 Table 16.2). -/
  avail : List Nat
  /-- The sources that were pending when the router last settled. -/
  pend : List Nat
  /-- The steward core was woken since it last waited (R411). -/
  woken : Bool
  deriving DecidableEq, Repr

/-! ## Apertures and arbiters (15) -/

/-- A descriptor: APT_DnADDR and APT_DnATTR. -/
structure Desc where
  addr : Word
  attr : Word
  deriving DecidableEq, Repr

/-- The aperture units' active sets; the staged sets stand in `State.regs` (15 R388). -/
structure AptSt where
  /-- Active descriptors by `unit * 32 + d`. -/
  active : Tab (Option Desc)
  /-- The units that refused at the last barrier. -/
  refused : Nat
  /-- The overlapping pairs an access met (unit, a, b), refused until the set is replaced (R387). -/
  pairs : List (Nat × Nat × Nat)
  /-- Operand slot bound to a master, plus 1 (R392). -/
  slots : Tab Nat
  deriving DecidableEq, Repr

/-- A request that waits at an arbiter (15 R395). -/
structure ArbReq where
  master : Nat
  stamp : Nat
  sat : Option Nat
  deriving DecidableEq, Repr

/-- One arbiter: who holds it, the transfers of the grant, and who waits. -/
structure ArbSt where
  holder : Option Nat
  used : Nat
  waiting : List ArbReq
  /-- The order in which requests saturated. -/
  satNext : Nat
  deriving DecidableEq, Repr

/-! ## Entropy and check values (12) -/

/-- The state of one noise source (12 R315 to R317). -/
inductive SrcSt where
  | standby | active | testing (forActive : Bool) | excluded | spent
  deriving DecidableEq, Repr

/-- One noise source: its state, and its exclusions since the last S-reset. -/
structure Source where
  st : SrcSt
  excl : Nat
  deriving DecidableEq, Repr

/-- The health tests of one source (12 R314): the repetition count test's sample and its run; the adaptive proportion test's first sample, its
place in the window and the count of samples equal to the first. -/
structure Health where
  last : Nat
  run : Nat
  first : Nat
  pos : Nat
  count : Nat
  deriving DecidableEq, Repr

/-- The entropy source (12): sources, output FIFO, conditioners and waiting requests. -/
structure RngSt where
  src : Tab Source
  /-- The output FIFO of 16 KiB, oldest byte first. -/
  fifo : Bytes
  /-- Block counters of the eight conditioners (R318). -/
  counters : Tab Nat
  /-- Consumers that wait for output, oldest first: consumer and bits. -/
  waiting : List (Nat × Nat)
  /-- The health tests of the sources, where they stand. -/
  health : Tab Health
  deriving DecidableEq, Repr

/-- A check-value computation: polynomial select and the register before the final exclusive or. -/
structure CvSt where
  poly : Nat
  reg : Nat
  deriving DecidableEq, Repr

/-! ## Facets (02, 03) -/

/-- A block register: its value, its seal bit, and whether TAG wrote it, FLD loaded it, or it is a released lens result (02 R44,
R47, 03 R63). -/
structure BReg where
  val : Block
  sld : Bool
  tag : Bool
  fld : Bool
  rel : Bool
  deriving DecidableEq, Repr

/-- The key register K: material, algorithm code (04 Table 04.2), use code, entry-class lock, and the handle loaded. -/
structure KReg where
  key : Bytes
  alg : Nat
  use : Nat
  cls : Nat
  handle : Nat
  deriving DecidableEq, Repr

/-- Where a lens result goes (02 R30). -/
inductive LensDst where
  | reg (b : Nat)
  | sealedReg (b : Nat)
  | deriv (high : Bool)
  | subject
  | memory (addr : Nat)
  | frame (off : Int)
  | hsub
  deriving DecidableEq, Repr

/-- A block in a lens pipeline, with the key it was issued under (02 R29 to R31, R34). -/
structure LensOp where
  lens : Nat
  alg : Nat
  key : Bytes
  dir : Nat
  input : Block
  dst : LensDst
  /-- Exclusive-or operand applied to the result by a sequencer recipe. -/
  xorWith : Block
  /-- A fold queued behind this block by a sequencer recipe (1 output, 2 operand). -/
  fold : Nat
  /-- The operand folded. -/
  foldWith : Block
  deriving DecidableEq, Repr

/-- A hash computation in progress (02 R48). -/
structure HashSt where
  alg : Nat
  keyed : Bool
  /-- The key of an HMAC, taken from K at HINIT. -/
  key : Bytes
  /-- The use code under which K held it. -/
  use : Nat
  fed : Bytes
  deriving DecidableEq, Repr

/-- A sequencer slot: its recipe (03 Table 03.4A), the blocks still to release, its next block and counter register. -/
structure SeqSlot where
  recipe : Bytes
  left : Nat
  next : Nat
  ctr : Nat
  deriving DecidableEq, Repr

/-- The work a facet holds. -/
inductive Held where
  | none
  /-- A command: queue context and acceptance sequence number of its record. -/
  | cmd (ctx aseq : Nat)
  /-- A stream frame: its number. -/
  | frame (id : Nat)
  deriving DecidableEq, Repr

/-- The running program entry (03 Table 03.7): signer, entry ID, class, declared uses, budget. -/
structure EntryRef where
  signer : Nat
  id : Nat
  cls : Nat
  uses : Nat
  budget : Nat
  deriving DecidableEq, Repr

/-- A caller to return to by ERET. -/
structure Caller where
  entry : EntryRef
  pc : Nat
  deriving DecidableEq, Repr

/-- A store not yet visible to other masters, or an FENCE.SS between stores (03 R74, R75). -/
inductive SbItem where
  | store (addr : Nat) (data : Bytes)
  | barrier
  deriving DecidableEq, Repr

/-- A key load that waits for the key store (02 R36 to R38). -/
structure LdkReq where
  dest : Nat
  handle : Nat
  use : Nat
  deriving DecidableEq, Repr

/-- A host transfer that an instruction waits for (03 R58). -/
structure DmaReq where
  toHost : Bool
  dest : Nat
  locAddr : Nat
  hostOff : Nat
  len : Nat
  deriving DecidableEq, Repr

/-- The subject lane of the pipeline serving a facet (02 Subject lane). -/
structure SubjectLane where
  /-- The subject key presented under WRAP, and the parts already taken. -/
  shown : Bytes
  taken : Nat
  /-- Lens results returned under UNWRAP. -/
  kept : Bytes
  deriving DecidableEq, Repr

/-- One physical facet (02, 03). -/
structure Facet where
  g : Tab W64
  v : Tab W256
  b : Tab BReg
  k : Option KReg
  ldk : Option LdkReq
  /-- Status of the last failed LDK of the work. -/
  ldkFail : Option Nat
  deriv : W256
  hsub : Block
  acc : Block
  hash : Option HashSt
  cvu : Option CvSt
  eq : Bool
  c : Bool
  auth : Bool
  pinok : Bool
  lens : List LensOp
  seq : Tab (Option SeqSlot)
  /-- Local memories by facet address (03 Table 03.1). -/
  loc : List Host.Cell
  /-- Lines of the work region written in this work (R26). -/
  lines : List Nat
  /-- The entry whose data segment the owner window holds. -/
  window : Option Nat
  pc : Nat
  calls : List Caller
  /-- The return point of a gate; present exactly in a gate. -/
  gate : Option Nat
  /-- The entry that made the world call, and the calls open at that point. -/
  gateFrom : Option EntryRef
  gateDepth : Nat
  /-- K was written since the gate was entered (R73). -/
  kTouched : Bool
  entry : Option EntryRef
  /-- The entry first entered for the work (R70). -/
  first : Option EntryRef
  work : Held
  owner : Nat
  subject : Option SubjectLane
  sb : List SbItem
  /-- The next instruction is discarded: the second of a pair behind a taken branch (R56). -/
  squash : Bool
  dma : Option DmaReq
  /-- The lines that met an instruction parity error, each with the tick of its last one (R24). -/
  parity : List (Nat × Nat)
  /-- Rows of 03 Table 03.4 and statuses of the other causes that end the work in this cycle (20 R482). -/
  meets : List (Nat × Nat)
  /-- The role the facet takes when it has drained, plus 1 (02 R51). -/
  nextRole : Nat
  /-- Debug halt (17 R428): 0 runs, 1 halted, 2 one step. -/
  halt : Nat
  /-- Output bytes written to the host by CMDOUT, by offset (03 R59). -/
  cmdout : List Host.Cell
  /-- Unkeyed hash state saved by HSAVE, by address (02 R48). -/
  hsaved : Tab (Option HashSt)
  deriving DecidableEq, Repr

/-! ## Program store (03 R66 to R71) -/

/-- An installed program entry: header fields, code and data segment. -/
structure Prog where
  entry : EntryRef
  version : Nat
  roles : Nat
  opcode : Nat
  start : Nat
  code : List Word
  data : Bytes
  digest : Bytes
  /-- Carried by the image in force, so that it can be read again (04 Table 04.15). -/
  image : Bool
  /-- The instant at which a swap replaced it, in nanoseconds; 0 for an entry in use or held (10 R291). -/
  swapped : Nat
  deriving DecidableEq, Repr

/-! ## Key store (04) -/

/-- A key record (04 Table 04.1). -/
structure KeyRec where
  handle : Nat
  state : Nat
  use : Nat
  exportable : Bool
  counted : Bool
  focusBound : Bool
  alg : Nat
  owner : Nat
  ext : Bool
  origin : Nat
  klen : Nat
  linked : Nat
  uses : Nat
  limit : Nat
  hw : Nat
  grace : Nat
  focus : Nat
  kcv : Bytes
  kcvMethod : Nat
  granule : Nat
  granules : Nat
  bodyLen : Nat
  material : Bytes
  bodyTag : Bytes
  label : Bytes
  deriving DecidableEq, Repr

/-- The clear body of an extended record (04 R84). -/
structure Body where
  priv : Bytes
  pub : Bytes
  deriving DecidableEq, Repr

/-- A tree leaf (04 Table 04.10). -/
structure Leaf where
  cur : Nat
  dur : Nat
  tag : Bytes
  owner : Nat
  live : Nat
  pend : Bool
  pois : Bool
  lost : Bool
  gfail : Bool
  /-- The owner that the durable version was sealed for, which the leaf digest keeps while the page is unallocated. -/
  durOwner : Nat
  deriving DecidableEq, Repr

/-- A page slot of the export or import ring: trailer fields and payload (04 Table 04.4). -/
structure PageSlot where
  kind : Nat
  page : Nat
  owner : Nat
  live : Nat
  part : Nat
  space : Nat
  version : Nat
  tag : Bytes
  payload : Bytes
  deriving DecidableEq, Repr

/-- An entry of the poison table (04 R87); the record index tells the handle's space (13 R348). -/
structure Poison where
  handle : Nat
  index : Nat
  tick : Nat
  cause : Nat
  deriving DecidableEq, Repr

/-- A custodian table entry (05 Table 05.2). -/
structure Custodian where
  handle : Nat
  mask : Nat
  sec : Nat
  deriving DecidableEq, Repr

/-- A command that waits for a page, and for body parts, to become durable (04 R99). -/
structure PageWait where
  page : Nat
  /-- The destroyed record whose wipe the change waits for. -/
  wipe : Option Nat
  /-- The version that carries the change, once the page is sealed. -/
  version : Option Nat
  owner : Nat
  tag : Nat
  status : Nat
  result : Bytes
  /-- The custodian slot that changes with the page: owner, slot, new entry. -/
  cust : Option (Nat × Nat × Option Custodian)
  /-- The focus entry that every node must hold as well (05 R136). -/
  entry : Option Nat
  deriving DecidableEq, Repr

/-- A command, or the end of a restore, that waits until every page of a set is durable at the version it was sealed at: 0 OWNER_SAVE,
1 OWNER_THAW, 2 OWNER_ERASE, 3 the end of a restore (05 R143, 14 R372, R375, R376). -/
structure PageSet where
  what : Nat
  target : Nat
  owner : Nat
  tag : Nat
  pages : List (Nat × Nat)
  result : Bytes
  deriving DecidableEq, Repr

/-- A cached record: pinned (R88), dirty (R90), and its place in the least-recently-used order. -/
structure CacheEnt where
  pinned : Bool
  dirty : Bool
  age : Nat
  deriving DecidableEq, Repr

/-- A record fill in progress and the facets whose load waits on it (04 R90, R91). -/
structure Fill where
  index : Nat
  facets : List Nat
  deriving DecidableEq, Repr

/-- A root slot of a page-version tree (04 Table 04.11): root digest, slot sequence, seal epoch and device-KEK check value. -/
structure RootSlot where
  digest : Bytes
  seq : Nat
  epoch : Nat
  kek : Nat
  deriving DecidableEq, Repr
def RootSlot.zero : RootSlot := ⟨[], 0, 0, 0⟩

/-- An update-log record (04 R102): the page, its new durable version, tag, owner and live count, and the target slot sequence. -/
structure UpdRec where
  page : Nat
  dur : Nat
  tag : Bytes
  owner : Nat
  live : Nat
  seq : Nat
  deriving DecidableEq, Repr

/-- Who waits for a use of a counted key: a facet's LDK, a command or its operation on an array, or a facet's call of FF1. -/
inductive Loader where
  | ldk (p : Nat)
  | cmd (owner tag : Nat)
  | call (p : Nat)
  deriving DecidableEq, Repr

/-- The key store (04). -/
structure KsSt where
  /-- Records by index, as they now stand (the cache over HBM). -/
  recs : Tab KeyRec
  bodies : Tab (Option Body)
  /-- Granule number to the handle that owns it. -/
  heap : Tab Nat
  poison : List Poison
  leaves : Tab Leaf
  cache : Tab (Option CacheEnt)
  cacheTick : Nat
  fills : List Fill
  /-- Lease marks in MRAM: handle to high-water. -/
  marks : Tab Nat
  /-- Loads that wait for a use of a counted record, by its index, in arrival order (04 R91). -/
  leaseWait : List (Loader × Nat)
  /-- Records whose lease high-water is raised and whose mark has not committed (04 R92). -/
  advance : List Nat
  /-- Pages with a change that no sealed version carries yet. -/
  toSeal : List Nat
  /-- Sealed versions not yet written to the export ring, oldest first. -/
  pendExp : List PageSlot
  /-- Entries of the export ring from KS_EXP_DUR on. -/
  ring : List PageSlot
  expSeq : Nat
  waits : List PageWait
  /-- Destroyed records whose holders have not ended: record index. -/
  wiping : List Nat
  /-- Reload candidates by page. -/
  cand : Tab (Option PageSlot)
  /-- Body parts that wait for their record or for their other part: by `record index * 2 + part`. -/
  bodyCand : Tab (Option PageSlot)
  /-- The digests of the level-1 nodes that MRAM holds, by group; none for a group never written (04 R101). -/
  tree : Tab Bytes
  /-- Groups that have verified. -/
  groups : List Nat
  /-- Handles whose limit event has been recorded since the last reload (05 R142). -/
  nearSeen : List Nat
  /-- Pages asked of the host for a restore. -/
  asked : List Nat
  /-- Page sets that are not yet durable. -/
  sets : List PageSet
  /-- Pages of restored owners that are not yet live or lost (14 R375). -/
  await : List Nat
  /-- The two root slots, and the last 1,024 records of the update log (04 Table 04.11). -/
  roots : RootSlot × RootSlot
  log : List UpdRec
  /-- The seal epoch and the KEK check value of the tree in force. -/
  epoch : Nat
  kekCheck : Nat
  deriving DecidableEq, Repr


/-! ## Defaults of the tables -/

def EvrSt.zero : EvrSt := ⟨[], [], [], [], [], [], [], [], 0, none, [0], [], false⟩
def LogSt.zero : LogSt := ⟨[], [], 1⟩
def AptSt.zero : AptSt := ⟨[], 0, [], []⟩
def ArbSt.zero : ArbSt := ⟨none, 0, [], 0⟩
def Desc.zero : Desc := ⟨0, 0⟩
def Source.zero : Source := ⟨.standby, 0⟩
def Health.zero : Health := ⟨0, 0, 0, 0, 0⟩
def RngSt.zero : RngSt := ⟨[], [], [], [], []⟩

/-- The kind of a noise source: 0 jitter bank, 1 latch array, 2 diode channel (12 Table 12.1). -/
def srcKind (n : Nat) : Nat := if n < 16 then 0 else if n < 24 then 1 else 2

/-- Will a noise source be ACTIVE at start: the first 12 jitter banks, 6 latch arrays and 3 diode channels (12 Table 12.1)? -/
def activeAtStart (n : Nat) : Bool := decide (n < 12) || (decide (16 ≤ n) && decide (n < 22)) || (decide (24 ≤ n) && decide (n < 27))

/-- The entropy source as an S-reset or P-reset leaves it: every source is in its start-up test and the FIFO is empty (12 R313, R315, R322). -/
def RngSt.started (counters : Tab Nat) : RngSt :=
  ⟨(List.range 28).map (fun n => (n, ⟨.testing (activeAtStart n), 0⟩)), [], counters, [], []⟩
def BReg.zero : BReg := ⟨0, false, false, false, false⟩
def Facet.zero : Facet :=
  { g := [], v := [], b := [], k := none, ldk := none, ldkFail := none, deriv := 0, hsub := 0, acc := 0
    hash := none, cvu := none, eq := false, c := false, auth := false, pinok := false, lens := []
    seq := [], loc := [], lines := [], window := none, pc := 0, calls := [], gate := none, gateFrom := none, gateDepth := 0, kTouched := false
    entry := none, first := none, work := .none, owner := 0, subject := none, sb := [], squash := false, dma := none
    parity := [], meets := [], nextRole := 0, halt := 0, cmdout := [], hsaved := [] }
def KeyRec.empty : KeyRec :=
  { handle := 0, state := 0, use := 0, exportable := false, counted := false, focusBound := false, alg := 0, owner := 0
    ext := false, origin := 0, klen := 0, linked := 0, uses := 0, limit := 0, hw := 0, grace := 0, focus := 0xFFFF
    kcv := [], kcvMethod := 0, granule := 0, granules := 0, bodyLen := 0, material := [], bodyTag := [], label := [] }
/-- A leaf of an unallocated page (04 Table 04.10). -/
def Leaf.free : Leaf := ⟨0, 0, [], 0xFFFF, 0, false, false, false, false, 0xFFFF⟩
def KsSt.zero : KsSt :=
  { recs := [], bodies := [], heap := [], poison := [], leaves := [], cache := [], cacheTick := 0, fills := []
    marks := [], leaseWait := [], advance := [], toSeal := [], pendExp := [], ring := [], expSeq := 0, waits := [], wiping := []
    cand := [], bodyCand := [], tree := [], groups := [], nearSeen := [], asked := [], sets := [], await := [], roots := (RootSlot.zero, RootSlot.zero), log := [], epoch := 0, kekCheck := 0 }

/-! ## Reset controller (18) -/

/-- The reset controller of the auxiliary island (18 R446 to R449), and what a start and a power failure hold. -/
structure RstSt where
  /-- Level of the reset in progress: 0 none, 1 C, 2 S, 3 P. -/
  level : Nat
  /-- Has the reset in progress taken effect, so that its release path runs? -/
  begun : Bool
  /-- Source to the auxiliary tick of its last request, plus 1. -/
  last : Tab Nat
  /-- An S-reset recovery is in progress, from the request until step 7 ends (R448). -/
  recovery : Bool
  /-- The reset in progress loses the unflushed records (R449). -/
  noFlush : Bool
  /-- Straps as the pads hold them (18 R440). -/
  straps : Nat
  /-- PWRGOOD or RST_N is low, or a rail is down: a P-reset is held. -/
  padsHold : Bool
  /-- The source of the request that raised the level in progress; a bit for each source that requested or joined it; it was
  raised under R448; it ends a power-fail sequence. -/
  src : Nat
  joined : Nat
  esc : Bool
  pfEnd : Bool
  /-- PLL attempts of release step 2 (18 R443). -/
  pllTries : Nat
  /-- DEV_START.STAGE of the last critical-state error, plus 1 (20 R484). -/
  critStage : Nat
  /-- The present start follows an escalated P-reset (20 R484). -/
  escStart : Bool
  /-- The start stopped at its step (20 R484). -/
  stopped : Bool
  /-- Acceptance and focus execution are open (18 R451 step 7, 10 R283). -/
  accOpen : Bool
  /-- A power-fail sequence runs, and its clean mark stands in MRAM (18 R459). -/
  pfail : Bool
  clean : Bool
  /-- The image bytes received so far through the mailbox or Periscope, and the offset next expected (18 R453, 19 R476). -/
  imageBuf : Bytes
  /-- The image in force was checked: security version, and its request to advance the floor (18 R456). -/
  secVersion : Nat
  advanceFloor : Bool
  /-- Digests of the image in force and of its vendor library (14 R378). -/
  imageDigest : Bytes
  libDigest : Bytes
  /-- The image's format (18 R454), and its VR_CFG.ENABLE (18 Table 18.26). -/
  format : Nat
  ringEnable : Bool
  /-- Ports whose image record requests ENABLE (18 Table 18.22), and which take the strap breakout. -/
  portEnable : List Nat
  /-- Role map of the image: logical facet to role (18 Table 18.26). -/
  roles : Tab Nat
  /-- TotalVFs of the image by port, until step 7 shows them (18 R452). -/
  totals : List Nat
  /-- Owner program entries of segment 0x04, installed once the signing credentials exist (18 Table 18.20). -/
  ownerProgs : List Bytes
  /-- Custodian credentials, policies, signing credentials of segment 0x0B: type, owner and body (18 Table 18.25). -/
  credentials : List (Nat × Nat × Bytes)
  /-- Focus defaults of segment 0x08, installed at step 6. -/
  focusDefaults : List Bytes
  deriving DecidableEq, Repr
def RstSt.zero : RstSt :=
  { level := 3, begun := true, last := [], recovery := false, noFlush := false, straps := 0, padsHold := true, src := 0, joined := 1, esc := false, pfEnd := false
    pllTries := 0, critStage := 0, escStart := false, stopped := false, accOpen := false, pfail := false
    clean := false, imageBuf := [], secVersion := 0, advanceFloor := false, imageDigest := [], libDigest := [], format := 2, ringEnable := false
    portEnable := [], roles := [], totals := [], ownerProgs := [], credentials := [], focusDefaults := [] }

/-! ## Facet wear (20 R486 to R490) -/

/-- A substitution in progress (02 R52): the facet replaced, its logical number and role, the spare under test. -/
structure SubSt where
  old : Nat
  logical : Nat
  role : Nat
  spare : Nat
  deriving DecidableEq, Repr

/-- Wear history and the retirement record, both in MRAM. -/
structure WearSt where
  /-- Times of the counted faults within 1,600 mt, by `facet * 16 + cause`. -/
  recent : Tab (List Nat)
  /-- Lifetime fault counts, by `facet * 16 + cause`. -/
  life : Tab Nat
  /-- The retirement record: facet to cause. -/
  retired : Tab Nat
  /-- Logical numbers removed from service. -/
  removed : List Nat
  /-- Facets that wait for a substitution, in the order of their triggers. -/
  queue : List Nat
  sub : Option SubSt
  /-- Consecutive ageing measurements at or above the retirement threshold. -/
  ageRun : Tab Nat
  /-- Substitutions ended. -/
  count : Nat
  /-- Logical numbers of facets with a recorded decision whose substitution a reset cut short (R488). -/
  pend : List Nat
  /-- Management ticks each facet was powered (FCT_HOURS). -/
  powered : Tab Nat
  /-- Management ticks of powered time since every MRAM word was last rewritten, and the count that steward scratch carries across power
  cycles (01 R23). -/
  mramAge : Nat
  mramKept : Nat
  deriving DecidableEq, Repr
def WearSt.zero : WearSt := ⟨[], [], [], [], [], none, [], 0, [], [], 0, 0⟩

/-! ## Accepted work (06) -/

/-- Journal record states (06 Table 06.16). `stamped`: read and stamped, its acceptance condition not yet met; the
spec's table still calls such a record FREE. -/
inductive JState where
  | stamped | accepted | executing | done | releasing | recAccepted | recDone
  deriving DecidableEq, Repr

/-- A completion half (06 Table 06.15). -/
structure Comp where
  status : Nat
  len : Nat
  sec : Nat
  ns : Nat
  sha : Bytes
  deriving DecidableEq, Repr

/-- A journal record (06 Table 06.15). -/
structure JRec where
  st : JState
  tag : Nat
  owner : Nat
  ctx : Nat
  mode : Nat
  flags : Nat
  aseq : Nat
  sec : Nat
  ns : Nat
  opcode : Nat
  batch : Nat
  digest : Bytes
  gap : Nat
  answer : Bool
  orig : Nat
  slot : Option Nat
  /-- The acceptance half and the completion half have committed in MRAM. -/
  accMram : Bool
  compMram : Bool
  /-- The successor has acknowledged the acceptance half and the completion half. -/
  accAck : Bool
  compAck : Bool
  comp : Option Comp
  /-- The submission copy; empty where only the MRAM halves remain. -/
  sub : Bytes
  /-- The result, when the record holds it (byte 450 bit 2). -/
  result : Bytes
  held : Bool
  /-- A status given at classification: the entry is not dispatched (06 R152). -/
  pre : Option Nat
  /-- The CQ index its completion was posted at. -/
  cq : Option Nat
  /-- The facet that executes it, plus 1. -/
  facet : Nat
  /-- Parked on a public-key unit (07 R195). -/
  parked : Bool
  /-- A recovered record that was re-presented after its completion: its completion is an answer (06 R172). -/
  again : Bool
  /-- The largest submission index past it: AH when the entry is accepted. -/
  ahNext : Nat
  /-- Its function was reset while it ran: it becomes RECOVERED_DONE when it is done, and nothing is written to the host (14 R358). -/
  flr : Bool
  /-- It was recovered, and has been re-presented (06 R172). -/
  recovered : Bool
  deriving DecidableEq, Repr

/-- A queue durable entry (06 Table 06.17). -/
structure QDur where
  next : Nat
  mark : Nat
  mode : Nat
  deriving DecidableEq, Repr
def QDur.zero : QDur := ⟨0, 0, 0⟩

/-- One queue pair beside its registers. -/
structure Queue where
  /-- Stamp of the last acceptance, in nanoseconds, and its batch number (06 R151, R152). -/
  lastAcc : Nat
  lastBatch : Nat
  /-- The SQ index of the next entry to read. -/
  readIdx : Nat
  /-- Acceptance waits for the release of every mode-0 record (06 R155). -/
  modeWait : Bool
  /-- What the entry at the head needs where acceptance waits on a journal limit (06 R156): 0 a record, 1 a record of the owner's
  mode, 2 a record under the durability override, n + 3 that the open answer to record n is posted. -/
  need : Nat
  /-- ASEQ values of mode 0 since the last one of modes 1 to 3 (06 Table 06.15, volatile gap). -/
  gap : Nat
  /-- The durable release mark the successor has acknowledged (06 R160). -/
  relAck : Nat
  /-- A release mark is due: CH moved since the last one was written. -/
  relDue : Bool
  /-- Records read and not yet accepted, in the order of the SQ (06 R151). -/
  reading : List Nat
  /-- The image binds the context to a function, and as a standby context (18 Table 18.27). -/
  bound : Bool
  standby : Bool
  deriving DecidableEq, Repr
def Queue.zero : Queue := ⟨0, 0, 0, false, 0, 0, 0, false, [], false, false⟩

/-- The journal and the queues. -/
structure JrSt where
  recs : Tab (Option JRec)
  durable : Tab QDur
  queues : Tab Queue
  /-- Changes made under a work tag: `owner * 2^48 + tag` to status and result (06 R159). -/
  changes : Tab (Option (Nat × Bytes))
  /-- Changes to stream associations under their work tags, which stand in HBM with the association. -/
  soft : Tab (Option (Nat × Bytes))
  /-- The owner whose turn it is to accept, and the entries of its turn (14 R364). -/
  accOwner : Nat
  accUsed : Nat
  /-- The owner whose turn it is to dispatch (14 R365). -/
  dspOwner : Nat
  /-- Parked commands whose arrays have finished, in that order: owner and tag (14 R365). -/
  resume : List (Nat × Nat)
  deriving DecidableEq, Repr
def JrSt.zero : JrSt := ⟨[], [], [], [], [], 0, 0, 0, []⟩

/-! ## Owners and custody (05, 14) -/

/-- An open challenge: its 32 bytes, its expiry, and the work tag it is reserved to (05 R118, R119). -/
structure Challenge where
  val : Bytes
  exp : Nat
  tag : Option Nat
  deriving DecidableEq, Repr

/-- A component session (05 R127): components given as number, slot and value. -/
structure Session where
  id : Bytes
  owner : Nat
  alg : Nat
  n : Nat
  opened : Nat
  dk : Bytes
  parts : List (Nat × Nat × Bytes)
  deriving DecidableEq, Repr

/-- An owner: its table entry (14 Table 14.1), buckets in units of 10⁻⁹ of a token (14 R363), deficits, custody state (05
R113) and work state (14 Table 14.3). -/
structure Owner where
  state : Nat
  mode : Nat
  weight : Nat
  hxCap : Nat
  facetCap : Nat
  home : Nat
  ports : Nat
  cmdRate : Nat
  cmdDepth : Nat
  byteRate : Nat
  byteDepth : Nat
  keyQuota : Nat
  flowQuota : Nat
  cred : Nat
  fns : Nat
  qcs : Nat
  cmdTok : Nat
  byteTok : Int
  deficit : Int
  hxDeficit : Int
  custodians : Tab (Option Custodian)
  policy : Bytes
  challenges : List Challenge
  /-- RESETTING: squash, submitted by the owner itself, and the reset's own queue and ASEQ and acceptance time. -/
  squash : Bool
  selfReset : Bool
  resetCtx : Nat
  resetAseq : Nat
  resetAcc : Nat
  /-- Work tags of the OWNER_RESET and OWNER_FREEZE commands that complete when the drain ends, with their submitter. -/
  waiters : List (Nat × Nat)
  /-- RESETTING under an OWNER_ERASE. -/
  erasing : Bool
  saveSec : Nat
  nonce : Bytes
  /-- The owner is in mode 2 or 3 and its queues wait until the node knows who was taken over (13 R340). -/
  waiting : Bool
  /-- The queue served last for acceptance and for dispatch, plus 1 (14 R364, R365). -/
  accLast : Nat
  dspLast : Nat
  deriving DecidableEq, Repr
/-- An owner not in the image's owner table. -/
def Owner.absent : Owner :=
  { state := 0, mode := 0, weight := 0, hxCap := 0, facetCap := 0, home := 0, ports := 0, cmdRate := 0, cmdDepth := 0
    byteRate := 0, byteDepth := 0, keyQuota := 0, flowQuota := 0, cred := 0, fns := 0, qcs := 0, cmdTok := 0, byteTok := 0
    deficit := 0, hxDeficit := 0, custodians := [], policy := [], challenges := [], squash := false, selfReset := false
    resetCtx := 0, resetAseq := 0, resetAcc := 0, waiters := [], erasing := false, saveSec := 0, nonce := []
    waiting := false, accLast := 0, dspLast := 0 }

/-- The device's own secrets (05 Table 05.1): the root seed of OTP, the BBRAM share, and the key store's root registers once they are formed: the
device root secret and the device KEK. -/
structure Secrets where
  seed : Bytes
  share : Option Bytes
  root : Option (List (BitVec 8) × List (BitVec 8))
  deriving DecidableEq, Repr

/-! ## Stream protection (09) -/

/-- A key slot of a flow (09 R264): state 0 EMPTY, 1 STANDBY, 2 ACTIVE, 3 RETIRING; key and its handle; epoch, AN; the next
PN (egress), the lowest acceptable PN (ingress MACsec) or H (ingress sealed flow); an ingress MACsec slot's next PN; the
bitmap of the 4,096 PNs up to H; the PN mark; what was recorded once; when it became ACTIVE and when its overlap ends, in
nanoseconds of Prolith time; the frames stamped under it that are in flight. -/
structure FSlot where
  st : Nat
  key : Bytes
  alg : Nat
  handle : Nat
  epoch : Nat
  an : Nat
  pn : Nat
  nextPn : Nat
  bitmap : Nat
  mark : Nat
  warned : Bool
  exhausted : Bool
  since : Nat
  until_ : Nat
  inFlight : Nat
  deriving DecidableEq, Repr
def FSlot.empty : FSlot := ⟨0, [], 0, 0, 0, 0, 0, 0, 0, 0, false, false, 0, 0, 0⟩

/-- A slot that has become EMPTY: frames taken under it before keep their key, and the slot their replay state. -/
def FSlot.emptied (x : FSlot) : FSlot := if x.inFlight = 0 then FSlot.empty else { x with st := 0, key := [] }

/-- A flow context (09 R243, R246): an association and its counters. -/
structure Flow where
  owner : Nat
  dir : Nat
  suite : Nat
  port : Nat
  desc : Bytes
  s0 : FSlot
  s1 : FSlot
  seqNext : Nat
  relNext : Nat
  /-- Counters in the order of 09 Table 09.13: 0 frames, 1 octets, 2 AUTH, 3 REPLAY, 4 NO_KEY, 5 FLOW_LIMIT, 6 MALFORMED,
  7 POLICY, 8 PN_EXHAUSTED, 9 LENS_FAULT, 10 FAULT, 11 PEER_DOWN, 12 RESET. -/
  counters : Tab Nat
  frames : Nat
  cells : Nat
  withdrawn : Bool
  /-- SA_WITHDRAW commands that wait for the last frame: owner and tag. -/
  waiters : List (Nat × Nat)
  /-- Management tick of the last AUTH event, plus 1. -/
  lastAuth : Nat
  deriving DecidableEq, Repr

/-- Where a frame stands: it waits for its context, waits for a PN mark, is ready, is held by a facet, has passed to the
collimator, or has been discarded. -/
inductive FStage where
  | fill | mark | ready
  | facet (p : Nat)
  | done | gone
  deriving DecidableEq, Repr

/-- A frame in frame SRAM (09 R257): 64 bytes of headroom, the frame, 64 bytes of tailroom. -/
structure Frame where
  id : Nat
  flow : Nat
  dir : Nat
  seq : Nat
  port : Nat
  sub : Nat
  slot : Nat
  pn : Nat
  buf : Bytes
  start : Nat
  len : Nat
  stage : FStage
  cells : Nat
  stamp : Nat
  /-- The key that its slot held when it took its sequence number, and that slot's epoch (09 R265). -/
  key : Bytes
  alg : Nat
  handle : Nat
  epoch : Nat
  /-- What the prism has written at its head, from the egress PN on (09 R250, R253); empty before, and on ingress. -/
  head : Bytes
  deriving DecidableEq, Repr

/-- A frame in a sub-port's transmit buffer; a sealed frame carries its port and template until it leaves (09 R253). -/
structure TxFrame where
  data : Bytes
  template : Option (Nat × Nat)
  deriving DecidableEq, Repr

/-- Prism and collimator (09). -/
structure StrSt where
  flows : Tab (Option Flow)
  /-- Frames in frame SRAM, in the order they reached the prism. -/
  frames : List Frame
  nextId : Nat
  /-- The flow-context cache. -/
  cache : List Nat
  /-- Frames by facet, the running one first. -/
  held : Tab (List Nat)
  /-- When a facet last received a frame, in frame numbers. -/
  lastRx : Tab Nat
  lagging : List Nat
  /-- Management tick of the end of a facet's last episode, plus 1. -/
  lagEnd : Tab Nat
  /-- Transmit buffers by `port * 4 + sub`, oldest first. -/
  tx : Tab (List TxFrame)
  /-- The flow-context key, which the prism key lane holds from step 5 of a start on (09 R246). -/
  lane : Option Bytes
  deriving DecidableEq, Repr
def StrSt.zero : StrSt := ⟨[], [], 0, [], [], [], [], [], [], none⟩

/-! ## Life cycle, debug and tamper (17) -/

/-- OTP and tamper state that no register holds (17). -/
structure LcSt where
  /-- The three copies of the life-cycle codeword (17 R421). -/
  copies : List Nat
  /-- A transition being programmed: its target (17 R425). -/
  prog : Option Nat
  /-- SHA-384 of the owner-0 debug root, once programmed (17 R430). -/
  debugRoot : Option Bytes
  /-- The image floor (18 R456). -/
  floor : Nat
  /-- The outstanding debug challenge (17 R429). -/
  challenge : Option Bytes
  /-- Certificate parts received over Periscope (19 R475). -/
  certBuf : Bytes
  /-- Sensors in alarm (17 R432). -/
  alarms : List Nat
  /-- Powered erase-class episodes not yet programmed into the OTP counter. -/
  advance : Nat
  /-- Management ticks of the mismatches that sensor 7 counts. -/
  mismatches : List Nat
  /-- The Loupe instruction register, and whether EXTEST, CLAMP or HIGHZ holds the compute die (17 R426). -/
  ir : Nat
  loupeHold : Bool
  /-- The preloaded boundary register, and whether the pads are driven from it or floated. -/
  boundary : Bytes
  drive : Nat
  /-- The trace selection of DBG_CTRL. -/
  trace : Nat
  /-- The steward is halted (17 R427). -/
  stewardHalt : Bool
  deriving DecidableEq, Repr
/-- A part as it leaves Uluhafy: Production (17 R424). -/
def LcSt.zero : LcSt := ⟨[0x00FFF000, 0x00FFF000, 0x00FFF000], none, none, 0, none, [], [], 0, [], 1, false, [], 0, 0, false⟩


/-! ## Veinad ring (13) -/

/-- A receive lane (13 R334): candidate positions and their counts, newest last; locked, the position expected, the bad
count; and of the last valid marker its position, marker count, sender node ID and version. -/
structure Lane where
  cands : List (Nat × Nat)
  locked : Bool
  expect : Nat
  bad : Nat
  pos : Nat
  count : Nat
  node : Nat
  ver : Nat
  deriving DecidableEq, Repr
def Lane.zero : Lane := ⟨[], false, 0, 0, 0, 0, 0, 0⟩

/-- A frame in a retry buffer (13 R337): its sequence number, kind, bytes as sent, and how often it was resent. -/
structure RFrame where
  seq : Nat
  kind : Nat
  bytes : Bytes
  resent : Nat
  deriving DecidableEq, Repr

/-- A ring port's link (13 R336, R337): the peer authenticated; keys and sequence numbers of both directions; frames sent
and not acknowledged, frames that wait for the buffer; frames received since the last LINK_ACK; the rekey points named. -/
structure RLink where
  auth : Bool
  serial : Bytes
  txKey : Bytes
  rxKey : Bytes
  txSeq : Nat
  rxSeq : Nat
  retry : List RFrame
  queue : List Bytes
  sinceAck : Nat
  rekeyAt : Option Nat
  rxRekeyAt : Option Nat
  deriving DecidableEq, Repr
def RLink.zero : RLink := ⟨false, [], [], [], 0, 0, [], [], 0, none, none⟩

/-- A half of the mirror area with its journal part (13 Mirroring): whose set it holds, whether the copy epoch is sealed and
its number, the last mirror sequence number stored, and the entries by kind and key; `src` is the node that copies the set here. -/
structure Half where
  home : Option Nat
  src : Nat
  sealed_ : Bool
  epoch : Nat
  mseq : Nat
  store : Tab Bytes
  /-- Pages of the copy that an uncorrectable word made stale (04 R106). -/
  stale : List Nat
  deriving DecidableEq, Repr
def Half.zero : Half := ⟨none, 0, false, 0, 0, [], []⟩

/-- A taken-over set (13 R347, R348): its home node, the half that held it, its owners, whether every page was re-sealed, and
its own seal epoch and root slots; the node that holds a sealed copy of it, plus 1. -/
structure TakenSet where
  home : Nat
  half : Nat
  owners : List Nat
  resealed : Bool
  epoch : Nat
  roots : RootSlot × RootSlot
  holder : Nat
  deriving DecidableEq, Repr

/-- The ring engine (13) and MRAM ring state. -/
structure RingSt where
  /-- The member table of the image: device serial, node ID, certificate (13 R331). -/
  table : List (Bytes × Nat × Bytes)
  /-- SHA-384 of the image's ring segment, and the trust-group root (R331). -/
  digest : Bytes
  root : Bytes
  /-- The active nodes in the order of direction F, as MEMBERS frames and the node's own sight give it. -/
  order : List Nat
  /-- The node that holds a sealed copy of this node's own set, plus 1 (R343, R353). -/
  holder : Nat
  lanes : Tab Lane
  links : Tab RLink
  h0 : Half
  h1 : Half
  taken : List TakenSet
  /-- The node holds a lease from its successor; the node it has granted one to that it counts as running, plus 1; its count of
  grants (R344). -/
  leased : Bool
  granted : Nat
  grants : Nat
  /-- Proof that the predecessor is in pass (R346). -/
  passProof : Bool
  /-- Peers of the two ports before they last changed, plus 1 (R345). -/
  former : Tab Nat
  /-- The next mirror sequence number, and the last one acknowledged. -/
  mseq : Nat
  macked : Nat
  /-- Mirror entries in flight that the journal waits for: sequence number, kind (0 acceptance, 1 completion, 2 release), record
  index or queue context, release mark. -/
  mwait : List (Nat × Nat × Nat × Nat)
  /-- The outgoing copy: whose set (0 own, 1 + n taken over), its epoch, the mirror sequence it seals at, and the number of entries its
  holder has acknowledged; digest failures in a row. -/
  copySet : Nat
  copyEpoch : Nat
  copySeal : Nat
  copyAck : Nat
  copyFails : Nat
  /-- The copier waits 1,600 mt after two digest failures (R351). -/
  copyHold : Bool
  /-- The node has learnt which of its owners were taken over (R340). -/
  known : Bool
  /-- A TAKEOVER named this node while it was MEMBER: its S-reset is to be requested (18 R446). -/
  fenceReset : Bool
  /-- Version ranges of the members: node ID to lowest and highest ring protocol version. -/
  versions : Tab (Nat × Nat)
  /-- A version agreed on a join that waits for the next sealed copy epoch (R339); 0 for none. -/
  nextVersion : Nat
  /-- The command-set version that the ring has in common; 0 for none. -/
  common : Nat
  deriving DecidableEq, Repr
def RingSt.zero : RingSt :=
  { table := [], digest := [], root := [], order := [], holder := 0, lanes := [], links := [], h0 := Half.zero, h1 := Half.zero
    taken := [], leased := false, granted := 0, grants := 0, passProof := false, former := [], mseq := 0, macked := 0, mwait := []
    copySet := 0, copyEpoch := 0, copySeal := 0, copyAck := 0, copyFails := 0, copyHold := false, known := false
    fenceReset := false, versions := [], nextVersion := 0, common := 0 }



/-! ## Focus table and Prolith time (10) -/

/-- A focus entry (10 Table 10.8), with the work that added it and the nodes that hold its record. The instant is in
nanoseconds of Prolith time. -/
structure FEntry where
  typ : Nat
  st : Nat
  owner : Nat
  instant : Nat
  node : Nat
  outcome : Nat
  params : Bytes
  tag : Nat
  holders : List Nat
  deriving DecidableEq, Repr

/-- The PTP slave (10 R278): the masters heard, with the data set of each one's last Announce; a two-step Sync that waits for its
Follow_Up: sequence number, arrival, correction; the Delay_Req in flight: sequence number, departure, and the time that its Sync
took; the next sequence number. Times are in 2^-16 ns. -/
structure PtpSt where
  masters : List (Nat × List Nat)
  sync : Option (Nat × Nat × Int)
  req : Option (Nat × Nat × Int)
  next : Nat
  deriving DecidableEq, Repr
def PtpSt.zero : PtpSt := ⟨[], none, none, 0⟩

/-- The focus table and the clock's discipline. -/
structure FocSt where
  table : Tab (Option FEntry)
  /-- Executed batch cuts: instant, batch number, owner or 0xFFFF (10 R296). -/
  cuts : List (Nat × Nat × Nat)
  /-- Additions forwarded to the time source that have no number yet (10 R290). -/
  fwd : List FEntry
  /-- Consecutive samples that count toward the next state (10 Table 10.4), and the same of ring samples. -/
  run : Nat
  ringRun : Nat
  /-- Time floor, in nanoseconds (10 R283), and the greatest acceptance time since it was written. -/
  floor : Nat
  greatest : Nat
  /-- Prolith time runs (10 R283). -/
  runs : Bool
  /-- Time of the last PPS edge; the seconds a valid time-of-day message gave for the next one (10 R279). -/
  edge : Nat
  tod : Option Nat
  /-- The node's own discipline state, which a node that takes time from a ring does not report (10 R285). -/
  own : Nat
  /-- The ring's time source as the last time blocks of each port gave it: port to node, state, hops, priority. -/
  src : Tab (Option (Nat × Nat × Nat × Nat))
  /-- Removals that nodes have still to acknowledge: entry number, owner and tag of the command, the nodes. -/
  removing : List (Nat × Nat × Nat × List Nat)
  /-- The offset still to be slewed off, in nanoseconds, and the last frequency estimate, in nanoseconds a management tick (10 R281). -/
  slew : Int
  freq : Int
  ptp : PtpSt
  /-- When the pulse at PPS_OUT ends (10 R284). -/
  ppsUntil : Nat
  /-- The entries copied from the ring since the node joined, and whether the whole table has come (10 R290). -/
  copied : List Nat
  tableIn : Bool
  deriving DecidableEq, Repr
def FocSt.zero : FocSt := ⟨[], [], [], 0, 0, 0, 0, false, 0, none, 0, [], [], 0, 0, PtpSt.zero, 0, [], false⟩


/-! ## Huxel arrays (11) -/

/-- A custody command whose quorum is being verified: the custodian slot of the signature (8 for a credential that CUST_ENROL enrols), the
command's opcode, operands and body. -/
structure Judge where
  slot : Nat
  opcode : Nat
  w : Work
  body : Bytes
  deriving DecidableEq, Repr

/-- A parked operation (11 R299, R302, 07 R195): whose command it is, its opcode and operands after the quorum block, algorithm
and length parameter; units ended, the array it runs on plus 1, its operand slot; the key use was consumed; what its command
resumes with once its last unit ended; a squash ends it after its running unit. -/
structure HxOp where
  owner : Nat
  tag : Nat
  opcode : Nat
  w : Work
  alg : Nat
  len : Nat
  units : Nat
  array : Nat
  slot : Nat
  used : Bool
  result : Option Nat
  squash : Bool
  /-- The next unit is the last one: the check unit of ML-DSA, the final unit of an RSA key generation. -/
  final : Bool
  /-- What the last unit gave: a signature, a verdict or a shared secret and ciphertext; private and public components. -/
  out : Bytes
  out2 : Bytes
  /-- Where the operation verifies a signature that authorises a custody command (05 R121): what goes on after it; else none. -/
  judge : Option Judge
  deriving DecidableEq, Repr

/-- The eight arrays and their queue. -/
structure HxSt where
  /-- Parked operations; those without a result wait in this order, oldest first. -/
  ops : List HxOp
  /-- Arrays that are zeroing after a unit (R297). -/
  zeroing : List Nat
  /-- Invariant failures of an array within 1,600 mt: array to ticks (R306). -/
  fails : Tab (List Nat)
  /-- The owner the deficit arbiter's pointer stands at, and whether it has grown that owner's deficit (R309). -/
  ptr : Nat
  grown : Bool
  /-- Verified signatures of custody commands that have not completed: owner, work tag, custodian slot, outcome (05 R121). -/
  verdicts : List (Nat × Nat × Nat × Nat)
  deriving DecidableEq, Repr
def HxSt.zero : HxSt := ⟨[], [], [], 0, false, []⟩


/-! ## Functions and host ports (14) -/

/-- A function beside its queues: its TDI state (0 CONFIG_UNLOCKED, 1 CONFIG_LOCKED, 2 RUN, 3 ERROR), the selective stream its
traffic is bound to plus 1, the durability mode its report named, OWN_FSTAT.STATE_CHG, its PCI configuration bits. -/
structure FnSt where
  tdi : Nat
  stream : Nat
  mode : Nat
  chg : Bool
  cfg : Nat
  /-- The owner that the image binds the function to (14 R355). -/
  owner : Nat
  /-- The MSI-X table and the pending-bit array, by byte offset (21 Table 21.1). -/
  msix : Tab Word
  pba : Tab Word
  /-- Writes to the host that its engine issues after STOP_INTERFACE: it is in ERROR (14 R380). -/
  held : List Out
  deriving DecidableEq, Repr
def FnSt.zero : FnSt := ⟨0, 0, 0, false, 0, 0, [], [], []⟩

/-- A host port: its link, TotalVFs and NumVFs, FLIT mode; SPDM: how far the connection has come (0 none, 1 version, 2
capabilities, 3 algorithms, 4 key exchange) and whether a session is secured; IDE: streams in the secure state, and the keys by
stream, sub-stream and direction. Port 4 is the Periscope responder. -/
structure HPort where
  up : Bool
  total : Nat
  num : Nat
  flit : Bool
  spdm : Nat
  session : Bool
  ide : List Nat
  ideKeys : Tab Bytes
  deriving DecidableEq, Repr
def HPort.zero : HPort := ⟨false, 0, 0, true, 0, false, [], []⟩

/-- A restore slot (14 R375): the owner, TK, and bytes 0 to 1,735 of the blob. -/
structure RestoreSlot where
  owner : Nat
  tk : Bytes
  head : Bytes
  deriving DecidableEq, Repr

/-! ## Periscope (19) -/

/-- The Periscope controller beside its registers, on the auxiliary island. -/
structure PscSt where
  /-- The bus controller enabled in-band interrupts (ENEC). -/
  ibi : Bool
  /-- The maximum read length (SETMRL). -/
  mrl : Nat
  /-- PSC_ALERT_N is asserted, and the source that STATUS names for it. -/
  alertN : Bool
  named : Option Nat
  /-- A notification that lost arbitration: its source and the arbitrations it lost (19 R467). -/
  notify : Option (Nat × Nat)
  deriving DecidableEq, Repr
def PscSt.zero : PscSt := ⟨false, 256, false, none, none⟩

/-- The state of the block. -/
structure State where
  /-- The commands that wait, first in, first out: the model's own queue (log entry 1). -/
  pending : List Instr
  /-- The model's own counter: each free value the machine takes is the value of an opaque constant at this counter (log entry 2). -/
  freeCtr : Nat
  /-- The registers of the register map (21 R494) by offset in PF BAR0; a register not listed holds its reset value. -/
  regs : Tab Word
  /-- Upper halves latched by a LO read, by `agent * 2^24 + offset` (21 R497). -/
  latches : Tab (Option Word)
  /-- The data of the last register read. -/
  rdata : BitVec 64
  /-- The bytes of the last reply. -/
  out : Bytes
  /-- What the device sent, newest last. -/
  sent : List Out
  /-- The outcomes of the command rows, newest last. -/
  dones : List Done
  /-- The event router (16). -/
  evr : EvrSt
  /-- The event recorder (16). -/
  log : LogSt
  /-- The aperture units (15). -/
  apt : AptSt
  /-- The eight arbiters (15 Table 15.13). -/
  arb : Tab ArbSt
  /-- The entropy source (12). -/
  rng : RngSt
  /-- The steward's check-value unit (12 R329). -/
  cv : Option CvSt
  /-- Device memory by facet address (03 Table 03.1): HBM, frame SRAM, shared SRAM, MRAM. -/
  gmem : List Host.Cell
  /-- The 72 physical facets (02). -/
  facets : Tab Facet
  /-- The program store (03 R66), by `signer * 65536 + entry ID`. -/
  progs : Tab (Option Prog)
  /-- The key store (04). -/
  ks : KsSt
  /-- The main rails are up; with VAUX alone no event record is created (16 R418). -/
  mainPower : Bool
  /-- The port whose PF is the primary PF (14 R355; from the image). -/
  primary : Nat
  /-- The reset controller (18). -/
  rst : RstSt
  /-- Ticks of the auxiliary island's own oscillator, in units of 625 µs (18 R448). -/
  auxTick : Nat
  /-- Facet wear and the retirement record (20 R486 to R490). -/
  wear : WearSt
  /-- The journal and the queues (06). -/
  jr : JrSt
  /-- The owners (14). -/
  own : Tab Owner
  /-- The component sessions (05 R127). -/
  sessions : List Session
  /-- The device's own secrets (05 Table 05.1). -/
  sec : Secrets
  /-- The owner-key table of the key store (05 R111): page-sealing keys now held. -/
  ownKeys : Tab (Option Bytes)
  /-- KEY_ACTIVATE actions that have taken effect: owner, handle, and the instant in nanoseconds (05 R137). -/
  acted : List (Nat × Nat × Nat)
  /-- The gate table of the image in force: gate number to entry ID of a vendor CUSTODY entry (03 R72). -/
  gates : Tab (Option Nat)
  /-- Prism, collimator and flow contexts (09). -/
  str : StrSt
  /-- The STREAM-class entry of each suite in the image in force: suite to entry ID plus 1 (09 R261). -/
  streamEnt : Tab Nat
  /-- Life cycle, debug and tamper (17). -/
  lc : LcSt
  /-- VAUX is present: the auxiliary island runs (18 R457). -/
  vaux : Bool
  /-- The ring engine and MRAM ring state (13). -/
  ring : RingSt
  /-- The focus table and Prolith time (10). -/
  foc : FocSt
  /-- The Huxel arrays (11). -/
  hx : HxSt
  /-- The functions, by function number (14). -/
  fns : Tab FnSt
  /-- The host ports (14). -/
  hports : Tab HPort
  /-- Times of uncorrectable words within 1,600 mt, by HBM stack (20 R481). -/
  hbmBad : Tab (List Nat)
  /-- Uncorrectable words of the Huxel operand region whose user has not read them yet (04 Table 04.15). -/
  marked : List Nat
  /-- The restore slots (14 R375). -/
  slots : List RestoreSlot
  /-- Blob IDs restored at this node, newest last (14 R374). -/
  blobIds : List Bytes
  /-- The Periscope controller (19). -/
  psc : PscSt
  deriving DecidableEq, Repr

/-- Right after reset: P-reset is held (18 R440), every register holds the reset value of its table, and every queue
and memory is empty. Values the spec gives no reset for are named in log entry 4. -/
def State.reset : State where
  pending := []
  freeCtr := 0
  regs := [(0x1000, 0xC0000001)]
  latches := []
  rdata := 0
  out := []
  sent := []
  dones := []
  evr := EvrSt.zero
  log := LogSt.zero
  apt := AptSt.zero
  arb := []
  rng := RngSt.started []
  cv := none
  gmem := []
  facets := []
  progs := []
  ks := KsSt.zero
  mainPower := false
  primary := 0
  rst := RstSt.zero
  auxTick := 0
  wear := WearSt.zero
  jr := JrSt.zero
  own := []
  sessions := []
  sec := ⟨[], none, none⟩
  ownKeys := []
  acted := []
  gates := []
  str := StrSt.zero
  streamEnt := []
  lc := LcSt.zero
  vaux := true
  ring := RingSt.zero
  foc := FocSt.zero
  hx := HxSt.zero
  fns := []
  hports := []
  hbmBad := []
  marked := []
  slots := []
  blobIds := []
  psc := PscSt.zero

/-- Why a step stops with a fault. -/
inductive Fault where
  /-- A word address outside the HBM map of 01 Table 01.11, named by an event of the scrubber (SCRUB_WORD_READ,
  UNCORRECTABLE_WORD). Safe: the machine stops where the spec names no word. -/
  | noSuchWord
  deriving DecidableEq, Repr

/-- Why a command is turned away. -/
inductive Refusal where
  /-- The command has no meaning in the model yet. Raised by `exec` alone; safe. -/
  | notModelled (mnemonic : String)
  deriving DecidableEq, Repr

end Sys2Proof.Machine
end

