-- ==== Sys2Proof/Machine/Ops.lean ====
section
/-! DEFINITION. Machine/Ops.lean: the named operations every command shares: free values, registers and their fields
(00 R4, R6), the event router (16 R398 to R411), the event recorder (16 R413 to R418), memory cells. -/

namespace Sys2Proof.Machine

open Sys2Proof

/-! ## Free values -/

/-- A value the spec leaves open, and the state with the counter moved on. -/
def State.free (s : State) : Nat × State := (Config.freeNat s.freeCtr, { s with freeCtr := s.freeCtr + 1 })

/-! ## Registers -/

/-- Is the register at `off` one of row `r`? -/
def RegRow.has (r : RegRow) (off : Nat) : Bool :=
  decide (r.base ≤ off) && decide ((off - r.base) / r.s1 < r.n1) &&
    decide ((off - r.base) % r.s1 / r.s2 < r.n2) && decide ((off - r.base) % r.s1 % r.s2 = 0)

/-- The row of the register at `off`; none at a reserved offset. -/
def regRow (off : Nat) : Option RegRow := (regBlock off).find? (fun r => r.has off)

/-- The value of a row's register built field by field. -/
def buildWord (l : List RField) (v : RField → Nat) : Word :=
  l.foldl (fun w f => setBits w f.lo (f.hi - f.lo + 1) (v f)) 0

/-- The reset value of the register at `off` (00 R6). -/
def resetWord (off : Nat) : Word :=
  match regRow off with
  | none => 0
  | some r => buildWord r.fields (fun f => f.rst)

/-- The stored value of a register. -/
def State.reg (s : State) (off : Nat) : Word := tget (resetWord off) s.regs off

/-- Store a register's value. -/
def State.setReg (s : State) (off : Nat) (w : Word) : State := { s with regs := tset (resetWord off) s.regs off w }

/-- The offset of element `i`, `j` of a field's register array. -/
def Fld.at (f : Fld) (i j : Nat) : Nat := f.off + i * f.s1 + j * f.s2

/-- Read a field. -/
def State.get (s : State) (f : Fld) (i : Nat := 0) (j : Nat := 0) : Nat := bitsOf (s.reg (f.at i j)) f.lo f.w

/-- Is a one-bit field set? -/
def State.is (s : State) (f : Fld) (i : Nat := 0) (j : Nat := 0) : Bool := decide (s.get f i j = 1)

/-- Write a field without telling the event router. -/
def State.poke (s : State) (f : Fld) (v : Nat) (i : Nat := 0) (j : Nat := 0) : State :=
  s.setReg (f.at i j) (setBits (s.reg (f.at i j)) f.lo f.w v)

/-- Return every field that reset level `lv` clears to its reset value (00 Table 00.3): 0 C, 1 S, 2 P. -/
def resetOne (lv : Nat) (off : Nat) (w : Word) : Word :=
  match regRow off with
  | none => w
  | some r => buildWord r.fields (fun f =>
      let hit := match f.clr with
        | .c => true
        | .s => decide (1 ≤ lv)
        | .p => decide (2 ≤ lv)
        | .kept => false
        | .fixed => false
      if hit then f.rst else bitsOf w f.lo (f.hi - f.lo + 1))

/-- A reset of level `lv` on every listed register. -/
def resetRegs (lv : Nat) (t : Tab Word) : Tab Word :=
  match t with
  | [] => []
  | (k, v) :: r =>
    let v' := resetOne lv k v
    if v' = resetWord k then resetRegs lv r else (k, v') :: resetRegs lv r

/-- A 64-bit register pair whose low half is field `f` and whose high half is 4 bytes above. -/
def State.get64 (s : State) (f : Fld) (i : Nat := 0) (j : Nat := 0) : Nat :=
  (s.reg (f.at i j)).toNat + (s.reg (f.at i j + 4)).toNat * 4294967296

/-- Write a 64-bit register pair, modulo 2^64 (21 R495). -/
def State.put64 (s : State) (f : Fld) (v : Nat) (i : Nat := 0) (j : Nat := 0) : State :=
  (s.setReg (f.at i j) (BitVec.ofNat 32 v)).setReg (f.at i j + 4) (BitVec.ofNat 32 (v / 4294967296))

/-- Count `n` more in a 64-bit pair. -/
def State.add64 (s : State) (f : Fld) (n : Nat) (i : Nat := 0) (j : Nat := 0) : State :=
  s.put64 f (s.get64 f i j + n) i j

/-- Count one more in a field that saturates. -/
def State.incSat (s : State) (f : Fld) (i : Nat := 0) (j : Nat := 0) : State :=
  s.poke f (min (2 ^ f.w - 1) (s.get f i j + 1)) i j

/-- Count one more in a field that wraps (21 R495). -/
def State.incWrap (s : State) (f : Fld) (i : Nat := 0) (j : Nat := 0) : State := s.poke f (s.get f i j + 1) i j

/-! ## MSI-X (21 Table 21.1) -/

/-- A word of a function's MSI-X table; the vector control of an entry not written masks it. -/
def FnSt.msixWord (f : FnSt) (off : Nat) : Word := tget (if off % 16 = 12 then 1 else 0) f.msix off

/-- Does a function issue no DMA: its TDI is in ERROR (14 R380)? -/
def State.dmaStopped (s : State) (fn : Nat) : Bool := decide ((tget FnSt.zero s.fns fn).tdi = 3)

/-- A write leaves for the host memory of a function; in ERROR it waits for STOP_INTERFACE. -/
def hostSend (s : State) (fn : Nat) (o : Out) : State :=
  let f := tget FnSt.zero s.fns fn
  if s.dmaStopped fn then { s with fns := tset FnSt.zero s.fns fn { f with held := f.held ++ [o] } } else { s with sent := s.sent ++ [o] }

/-- Vector `v` of a function is raised: a message, or a pending bit while the function or the vector is masked (PRESUMED from PCI Express). -/
def raiseVector (s : State) (fn v : Nat) : State :=
  let f := tget FnSt.zero s.fns fn
  if !(f.cfg.testBit 0 && f.cfg.testBit 1) then s
  else if f.cfg.testBit 2 || (f.msixWord (16 * v + 12)).getLsbD 0 then
    { s with fns := tset FnSt.zero s.fns fn { f with pba := tset 0 f.pba (v / 32 * 4) (tget 0 f.pba (v / 32 * 4) ||| BitVec.ofNat 32 (2 ^ (v % 32))) } }
  else hostSend s fn (.msix fn v)

/-! ## Event router (16) -/

/-- The bits that latch a source (16 Table 16.1): first source, first register, stride, how many, mask. -/
def sourceRows : List (Nat × Nat × Nat × Nat × Nat) :=
  [(0, 0x100004, 0x1000, 72, 0x4), (72, 0x60000, 0x100, 8, 0xA0000000), (80, 0xC0004, 0x1000, 16, 0x0F800000),
   (96, 0x200100, 0x400, 12, 0xE0000000), (108, 0x204004, 0x20, 8, 0xA0000000), (128, 0x50000, 4, 1, 0x80070000),
   (129, 0x50010, 4, 1, 0x60000000), (130, 0x70000, 4, 1, 0x18000000), (131, 0xB0000, 4, 1, 0xF0000000),
   (132, 0x60804, 4, 1, 0xE0000000), (133, 0x80014, 4, 1, 0x0E000000), (134, 0xA0024, 4, 1, 0xFE000000),
   (134, 0xA0020, 4, 1, 0x10000000), (135, 0xA0010, 4, 2, 0x04000000), (137, 0x2100, 4, 1, 0xE000FF00),
   (138, 0x1200, 4, 1, 0x48000000), (139, 0x8004, 4, 1, 0x80000000), (139, 0x8008, 4, 1, 0xFFFFFFFF),
   (140, 0x4004, 4, 1, 0xC0000000)]

/-- The source that register `off` drives, and the mask of the bits that drive it. -/
def sourceAt (off : Nat) : Option (Nat × Nat) :=
  (sourceRows.find? (fun r => decide (r.2.1 ≤ off) && decide ((off - r.2.1) / r.2.2.1 < r.2.2.2.1)
      && decide ((off - r.2.1) % r.2.2.1 = 0))).map
    (fun r => (r.1 + (off - r.2.1) / r.2.2.1, r.2.2.2.2))

/-- EVR_LIVE of a source: the bits that Table 16.1 names, as they read now (16 R399). -/
def State.evLive (s : State) (src : Nat) : Bool :=
  sourceRows.any (fun r => decide (r.1 ≤ src) && decide (src - r.1 < r.2.2.2.1) &&
    decide ((s.reg (r.2.1 + (src - r.1) * r.2.2.1)).toNat &&& r.2.2.2.2 ≠ 0))

/-- EVR_ROUTE of a source: byte `src mod 4` of its word. -/
def State.evRoute (s : State) (src : Nat) : Nat := bitsOf (s.reg (0x5000 + 4 * (src / 4))) (8 * (src % 4)) 8

/-- EVR_PRIO of a source. -/
def State.evPrio (s : State) (src : Nat) : Nat := bitsOf (s.reg (0x4800 + 4 * (src / 4))) (8 * (src % 4)) 8

/-- The claimed sources of a target, top first. -/
def State.evStack (s : State) (t : Nat) : List Nat := tget [] s.evr.claims t

/-- Is a source claimed by some target? -/
def State.evClaimed (s : State) (src : Nat) : Bool := s.evr.claims.any (fun e => e.2.contains src)

/-- May target `t` receive source `src` (16 R404)? -/
def State.evEligible (s : State) (src t : Nat) : Bool :=
  (s.evRoute src).testBit t && s.evr.avail.contains t && !(s.is F.EVR_TCFG_MASK t)

/-- Is a source pending (16 R404)? -/
def State.evPending (s : State) (src : Nat) : Bool :=
  s.evr.latched.contains src && decide (s.evRoute src ≠ 0) && !(s.evr.held.contains src) && !(s.evClaimed src)

/-- The first eligible target after the one that last received the source, ascending with wrap (16 R404). -/
def State.evNextTarget (s : State) (src : Nat) : Option Nat :=
  let last := tget 0 s.evr.rr src
  ([last, last + 1, last + 2, last + 3, last + 4, last + 5].map (fun t => t % 6)).find? (fun t => s.evEligible src t)

/-- Assign one latched source again (16 R404, R405). -/
def evAssign (s : State) (src : Nat) : State :=
  let cur := tget 0 s.evr.assigned src
  if !(s.evPending src) then { s with evr := { s.evr with assigned := tset 0 s.evr.assigned src 0 } }
  else if cur ≠ 0 && s.evEligible src (cur - 1) then s
  else match s.evNextTarget src with
    | none => { s with evr := { s.evr with assigned := tset 0 s.evr.assigned src 0 } }
    | some t => { s with evr := { s.evr with assigned := tset 0 s.evr.assigned src (t + 1), rr := tset 0 s.evr.rr src (t + 1) } }

/-- The group priority of a source under the split in force (16 R406). -/
def State.evGroup (s : State) (src : Nat) : Nat := s.evPrio src / 2 ^ s.evr.g

/-- Is the first source to be offered before the second: by priority in priority mode, else by number (16 R406, R410)? -/
def State.evBefore (s : State) (a b : Nat) : Bool :=
  if s.is F.EVR_CTRL_MODE then
    decide (s.evPrio a < s.evPrio b) || (decide (s.evPrio a = s.evPrio b) && decide (a < b))
  else decide (a < b)

/-- The source offered to a target now (16 R406, R410). -/
def State.evOffer (s : State) (t : Nat) : Option Nat :=
  let mine := (s.evr.assigned.filter (fun e => e.2 == t + 1)).map Prod.fst
  let best := mine.foldl (fun acc x => match acc with
    | none => some x
    | some y => if s.evBefore x y then some x else some y) none
  match best, s.evStack t with
  | none, _ => none
  | some x, [] => some x
  | some x, top :: rest =>
    if s.is F.EVR_CTRL_MODE && decide (s.evGroup x < s.evGroup top) && decide (rest.length + 1 < 8) then some x else none

/-- Bring one target's offer up to date: an MSI-X message to a PF when the offer becomes a source or another one
(16 R406), and a note when an unclaimed offer was withdrawn (16 R405, R407). -/
def evTarget (s : State) (t : Nat) : State :=
  let old := tget 0 s.evr.offer t
  let new := match s.evOffer t with
    | none => 0
    | some x => x + 1
  let gone := decide (old ≠ 0) && decide (old ≠ new) && !(s.evPending (old - 1) && decide (tget 0 s.evr.assigned (old - 1) = t + 1))
    && !(s.evClaimed (old - 1))
  let s := { s with evr := { s.evr with offer := tset 0 s.evr.offer t new,
                                        withdrawn := if gone then sput s.evr.withdrawn t else s.evr.withdrawn } }
  if decide (new ≠ 0) && decide (new ≠ old) && decide (1 ≤ t) && decide (t ≤ 4) then
    raiseVector s ((t - 1) * 2048) (s.get F.EVR_TCFG_VECTOR t)
  else s

/-- The pending sources are noted; one that becomes pending and is routed to the steward wakes its core (16 R411). -/
def evWake (s : State) : State :=
  let now := s.evr.latched.filter s.evPending
  let new := now.filter (fun x => !(s.evr.pend.contains x))
  { s with evr := { s.evr with pend := now, woken := s.evr.woken || new.any (fun x => (s.evRoute x).testBit 0) } }

/-- Assign every latched source in ascending order, then bring the offers up to date (16 R404 to R406). A group split
that waits takes effect once every stack is empty (16 R409). -/
def evSettle (s : State) : State :=
  let s := match s.evr.gWait with
    | some g => if s.evr.claims = [] then ({ s with evr := { s.evr with g := g, gWait := none } }).poke F.EVR_STATUS_PG_PENDING 0 else s
    | none => s
  let s := { s with evr := { s.evr with assigned := s.evr.assigned.filter (fun e => s.evr.latched.contains e.1) } }
  let s := (evWake s).evr.latched.foldl evAssign (evWake s)
  [0, 1, 2, 3, 4, 5].foldl evTarget s

/-- A setting event of a source (16 R399, R401). A source already latched stays as it is. -/
def evLatch (s : State) (src : Nat) : State :=
  if s.evr.latched.contains src then s
  else
    let grp := src / 32
    let running := s.evr.timers.contains grp
    let time := s.get F.EVR_HOLDOFF_TIME grp
    let hold := running || decide (time ≠ 0)
    let s := { s with evr := { s.evr with
      latched := sput s.evr.latched src
      held := if hold then sput s.evr.held src else s.evr.held
      timers := if !running && decide (time ≠ 0) then sput s.evr.timers grp else s.evr.timers } }
    evSettle s

/-- Clear the latched bit of a source (16 R399). -/
def evClear (s : State) (src : Nat) : State :=
  evSettle { s with evr := { s.evr with latched := sdel s.evr.latched src, held := sdel s.evr.held src } }

/-- Write a field; a rise of a bit that Table 16.1 names latches its source (16 R399). -/
def State.put (s : State) (f : Fld) (v : Nat) (i : Nat := 0) (j : Nat := 0) : State :=
  let off := f.at i j
  let old := (s.reg off).toNat
  let s := s.poke f v i j
  match sourceAt off with
  | none => s
  | some (src, mask) =>
    if (s.reg off).toNat &&& mask &&& (mask - (old &&& mask)) ≠ 0 then evLatch s src else s

/-- Set a latched bit of a register: a setting event of the source whose bit it is (16 R399). -/
def State.raise (s : State) (f : Fld) (i : Nat := 0) (j : Nat := 0) : State :=
  let s := s.poke f 1 i j
  match sourceAt (f.at i j) with
  | none => s
  | some (src, mask) => if mask.testBit f.lo then evLatch s src else s

/-! ## Time and ticks -/

/-- The management tick count (01 R13). -/
def State.mtick (s : State) : Nat := s.get64 F.DEV_MTICK_LO

/-- Prolith time, seconds (10 Table 10.2). -/
def State.nowSec (s : State) : Nat := s.get F.FOC_NOW_SLO + s.get F.FOC_NOW_SHI_SEC_HI * 4294967296

/-- Prolith time, nanoseconds. -/
def State.nowNs (s : State) : Nat := s.get F.FOC_NOW_NS_NS

/-- Prolith time in nanoseconds since its epoch. -/
def State.now (s : State) : Nat := s.nowSec * 1000000000 + s.nowNs

/-! ## The event record (16) -/

/-- The 60 bytes of a record before its CRC (16 Table 16.7). -/
def EvRec.body (r : EvRec) : Bytes :=
  leBytes 8 r.seq ++ leBytes 6 r.sec ++ leBytes 4 r.ns ++ leBytes 8 r.mtick ++ leBytes 1 r.sev ++
    leBytes 1 (b2n r.flushed) ++ leBytes 2 r.code ++ leBytes 2 r.source ++ leBytes 2 r.owner ++ leBytes 2 r.rep ++
    leBytes 4 r.lastTick ++ fitBytes 20 r.data

/-- The 64 bytes of a record in the place of context `ctx`. -/
def EvRec.bytes (r : EvRec) (ctx : Nat) : Bytes := r.body ++ leBytes 4 (crc32c ctx r.body)

/-- The lowest empty slot of the MRAM log. -/
def logFree (fuel k : Nat) (t : Tab (Option EvRec)) : Option Nat :=
  match fuel with
  | 0 => none
  | f + 1 => if k < 16384 ∧ (tget none t k).isNone then some k else if k < 16384 then logFree f (k + 1) t else none

/-- The slot a record is written into: its own if the log holds it, an empty one (severity −1), else that of the oldest
record of equal or lower severity (16 R418). -/
def logSlot (t : Tab (Option EvRec)) (r : EvRec) : Option Nat :=
  match tfind (fun _ e => match e with
      | some x => x.seq == r.seq
      | none => false) t with
  | some (k, _) => some k
  | none =>
    match logFree (t.length + 1) 0 t with
    | some k => some k
    | none =>
      (t.foldl (fun (acc : Option (Nat × Nat)) e => match e.2 with
        | none => acc
        | some x => if x.sev ≤ r.sev then
            match acc with
            | none => some (x.seq, e.1)
            | some (q, k) => if x.seq < q then some (x.seq, e.1) else some (q, k)
          else acc) none).map Prod.snd

/-- A record is lost at the buffer or at the MRAM log; LOG_DROPPED becoming nonzero latches the recorder's source (16 Table 16.1). -/
def logDrop (s : State) (f : Fld) : State :=
  let z := decide (s.reg f.off = 0)
  let s := s.poke f (min 65535 (s.get f + 1))
  if z then evLatch s 139 else s

/-- Write one record to the MRAM log (16 R418). -/
def logWrite (s : State) (r : EvRec) : State :=
  match logSlot s.log.mram r with
  | some k => { s with log := { s.log with mram := tset none s.log.mram k (some { r with flushed := true }) } }
  | none => logDrop s F.LOG_DROPPED_MRAM

/-- Flush every unflushed record in sequence order (16 R417). -/
def logFlush (s : State) : State :=
  let s := (s.log.buf.filter (fun r => !r.flushed)).foldl logWrite s
  { s with log := { s.log with buf := s.log.buf.map (fun r => { r with flushed := true }) } }

/-- Put a new record into the buffer, replacing one when it is full (16 R416). -/
def logPush (s : State) (r : EvRec) : State :=
  if s.log.buf.length < 8192 then
    { s with log := { s.log with buf := s.log.buf ++ [{ r with idx := s.log.buf.length }], next := s.log.next + 1 } }
  else
    match (s.log.buf.find? (fun x => x.flushed)).or (s.log.buf.find? (fun x => decide (x.sev ≤ r.sev))) with
    | some x => { s with log := { s.log with buf := (s.log.buf.filter (fun y => y.seq != x.seq)) ++ [{ r with idx := x.idx }],
                                             next := s.log.next + 1 } }
    | none => logDrop s F.LOG_DROPPED_BUFFER

/-- Record an event (16 R413 to R417). `src` is a router source number, or 0x8000 plus a master ID. An event of severity
3 or higher is flushed at once (log entry 6). -/
def event (s : State) (sev code src : Nat) (owner : Nat := 0xFFFF) (data : Bytes := []) : State :=
  if !s.mainPower then s
  else
    let fold := match s.log.buf.getLast? with
      | some r => decide (r.code = code) && decide (r.source = src) && decide (r.sev = sev) && decide (r.rep < 65535)
      | none => false
    let next := s.log.next
    let s :=
      if fold then
        { s with log := { s.log with buf := s.log.buf.dropLast ++ (s.log.buf.getLast?.toList.map (fun r =>
            { r with rep := r.rep + 1, lastTick := s.mtick % 4294967296, flushed := false })) } }
      else
        logPush s { seq := s.log.next, sec := s.nowSec, ns := s.nowNs, mtick := s.mtick, sev := sev, flushed := false,
                    code := code, source := src, owner := owner, rep := 0, lastTick := 0, idx := 0, data := data }
    let made := fold || decide (s.log.next ≠ next)
    let s := if made ∧ s.get F.LOG_CTRL_IRQ_SEV ≤ sev then s.raise F.LOG_STATUS_SEV_SEEN else s
    if made ∧ 3 ≤ sev then logFlush s else s

/-- Byte `a` of the event log's region (01 Table 01.12). -/
def logByte (s : State) (a : Nat) : Byte := match tget none s.log.mram (a / 64) with
  | some r => (r.bytes (0x1600000 + 64 * (a / 64))).getD (a % 64) 0
  | none => 0

/-- The event log's place in the global MRAM range (01 Table 01.12, 03 Table 03.1). -/
def logBase : Nat := 0x2201600000

/-- The steward as an event's source (16 R413). -/
def stewardSrc : Nat := 0x8080

/-! ## Reset requests (18 R446 to R448) -/

/-- A reset request from source `src` of 18 Table 18.6 at `level` (1 C, 2 S, 3 P): its bit is set, a second request of
one source within 100 ms is raised one level, a critical-state error or watchdog expiry during an S-reset recovery is
taken as P-reset, and a request joins a reset of its level or above (18 R447, R448), or a power-fail sequence, which only the
rails cut short (18 R460, R461). What a P-reset is to record stands
in `joined` and `esc` until it clears RST_CAUSE. -/
def requestReset (s : State) (src level : Nat) : State :=
  let again := decide (tget 0 s.rst.last src ≠ 0) && decide (s.auxTick + 1 - tget 0 s.rst.last src < 160)
  let inRec := (decide (src = 4) || decide (src = 6)) && s.rst.recovery
  let lv := if inRec then 3 else if again then min 3 (level + 1) else level
  let up := decide (lv ≠ level)
  let s := s.poke F.RST_CAUSE_SOURCES (s.get F.RST_CAUSE_SOURCES ||| 2 ^ src)
  let s := if up then s.poke F.RST_CAUSE_ESCALATED 1 else s
  let r := { s.rst with last := tset 0 s.rst.last src (s.auxTick + 1) }
  if lv ≤ s.rst.level ∨ (s.rst.pfail ∧ src ≠ 0) then { s with rst := { r with joined := r.joined ||| 2 ^ src, esc := r.esc || up } }
  else { s with rst := { r with level := lv, begun := false, src := src, joined := 2 ^ src, esc := up,
                                recovery := r.recovery || decide (lv = 2) } }

/-- The event of a critical-state error (20 R483). -/
def evCritical : Nat := 0x1202

/-- A critical-state error of row `row` of 20 Table 20.2: an event at severity 4 and a request for S-reset, without a
flush for row 1 (20 R483). One that recurs at the same step of a start that followed an escalated P-reset requests no
further reset: the start stops at that step (20 R484). -/
def critical (s : State) (row : Nat) (data : Bytes := []) : State :=
  let s := event s 4 evCritical stewardSrc 0xFFFF (leBytes 1 row ++ data)
  let st := s.get F.DEV_START_STAGE + 1
  if s.rst.escStart && decide (s.rst.critStage = st) then { s with rst := { s.rst with stopped := true } }
  else requestReset { s with rst := { s.rst with critStage := st, noFlush := s.rst.noFlush || decide (row = 1) } } 6 2

/-! ## Writers (21 R494, R496) -/

/-- The PF of the primary port. -/
def State.isPrimary (s : State) (a : Agent) : Bool :=
  match a with
  | .fn f => decide (f.port.val = s.primary) && f.vf.isNone
  | .steward => true
  | .psc => false

/-- Is the block of register `off` out of an agent's reach: a function's port answers from step 2 on, and until step 7 it serves the DEV, RST,
CLK, PWR, LC, TMP and LOG blocks, and from the end of step 4 the KS block to the primary PF (18 R452); a VF at or beyond NumVFs is absent. -/
def State.outOfReach (s : State) (a : Agent) (off : Nat) : Bool :=
  match a with
  | .fn f =>
    let st := s.get F.DEV_START_STAGE
    decide (st < 2) || (match f.vf with
      | some n => decide ((tget HPort.zero s.hports f.port.val).num ≤ n.val)
      | none => false) ||
    (decide (st < 7) && !(decide (off < 0x1300) || (decide (0x2000 ≤ off) && decide (off < 0x2200)) ||
      (decide (0x8000 ≤ off) && decide (off < 0x8100)) ||
      (decide (0x50000 ≤ off) && decide (off < 0x50100) && decide (5 ≤ st) && s.isPrimary a)))
  | _ => false

/-- The number of a function: 2,048 per port, 0 the PF, 1 + n VF n. -/
def fnNum (f : FnId) : Nat := f.port.val * 2048 + (match f.vf with
  | none => 0
  | some n => n.val + 1)

/-- The number of a reading agent (21 R497). -/
def agentNum (a : Agent) : Nat :=
  match a with
  | .fn f => fnNum f
  | .steward => 8192
  | .psc => 8193

/-! ## Memory cells -/

/-- The byte at an address; an unlisted byte reads 0 (log entry 5). -/
def memGet (m : List Host.Cell) (a : Nat) : Byte := tget 0 m a

/-- Write one byte. -/
def memSet (m : List Host.Cell) (a : Nat) (b : Byte) : List Host.Cell := tset 0 m a b

/-- Read `n` bytes. -/
def memRead (m : List Host.Cell) (a : Nat) (n : Nat) : Bytes := (List.range n).map (fun i => memGet m (a + i))

/-- Write a byte string. -/
def memWrite (m : List Host.Cell) (a : Nat) (d : Bytes) : List Host.Cell :=
  match d with
  | [] => m
  | b :: r => memWrite (memSet m a b) (a + 1) r

/-- Zero `n` bytes. -/
def memZero (m : List Host.Cell) (a n : Nat) : List Host.Cell := m.filter (fun c => decide (c.1 < a) || decide (a + n ≤ c.1))

/-- The canonical form of a memory. -/
def memWf (m : List Host.Cell) : Bool := twf (0 : Byte) m

/-! ## Entropy (12 R318 to R321) -/

/-- Is the entropy source stopped? -/
def State.rngStopped (s : State) : Bool := decide (s.get F.RNG_STATUS_STATE = 3)

/-- Fresh full-entropy bytes, each delivered to one consumer only (12 R320): from the output FIFO when it holds them,
else from the block that closes next, a free value. -/
def drawBytes (s : State) (n : Nat) : Bytes × State :=
  if n ≤ s.rng.fifo.length then (s.rng.fifo.take n, { s with rng := { s.rng with fifo := s.rng.fifo.drop n } })
  else
    let blocks := (List.range ((n + 31) / 32)).flatMap (fun i => beBytes 32 (Config.entropy (s.freeCtr + i)).toNat)
    (blocks.take n, { s with freeCtr := s.freeCtr + (n + 31) / 32 })

/-! ## Facets -/

/-- Physical facet `p`. -/
def State.facet (s : State) (p : Nat) : Facet := tget Facet.zero s.facets p

/-- Write physical facet `p`. -/
def State.setFacet (s : State) (p : Nat) (f : Facet) : State := { s with facets := tset Facet.zero s.facets p f }

/-- Change physical facet `p`. -/
def State.modFacet (s : State) (p : Nat) (f : Facet → Facet) : State := s.setFacet p (f (s.facet p))

/-! ## Facet wear (20 R486 to R490) -/

/-- Events of 20: a hang, a retirement, a removal, fewer than 52 facets. -/
def evHang : Nat := 0x1201
def evRetire : Nat := 0x1203
def evRemove : Nat := 0x1204
def evFew : Nat := 0x1205

/-- FCT_MAP.STATE codes (02 Table 02.9). -/
def mapOff : Nat := 0
def mapSpare : Nat := 1
def mapActive : Nat := 2
def mapDraining : Nat := 3
def mapRetired : Nat := 4
def mapTest : Nat := 5

/-- How many physical facets read a given FCT_MAP.STATE. -/
def State.countMap (s : State) (st : Nat) : Nat := ((List.range 72).filter (fun p => s.get F.FCT_MAP_STATE p == st)).length

/-- Bring DEV_WEAR up to date (20 Table 20.8). -/
def wearUpdate (s : State) : State :=
  let s := s.poke F.DEV_WEAR_SPARES (s.countMap mapSpare)
  let s := s.poke F.DEV_WEAR_RETIRED s.wear.retired.length
  let s := s.poke F.DEV_WEAR_IN_SERVICE (64 - s.wear.removed.length)
  let s := s.poke F.DEV_WEAR_DEGRADED (b2n (decide (0 < s.wear.removed.length)))
  s.poke F.DEV_WEAR_AGE_WARN (b2n ((List.range 72).any (fun p => s.is F.FCT_AGE_WARN p)))

/-- A retirement decision, recorded before anything moves (20 R487, R488, R490). A planned retirement starts the drain. -/
def decideRetire (s : State) (p cause : Nat) (planned : Bool) : State :=
  if tget 0 s.wear.retired p ≠ 0 then s
  else
    let s := { s with wear := { s.wear with retired := tset 0 s.wear.retired p cause, queue := s.wear.queue ++ [p] } }
    let s := (s.poke F.FCT_AGE_PENDING 1 p).poke F.FCT_AGE_CAUSE cause p
    let s := if planned && s.is F.FCT_MAP_VALID p then s.poke F.FCT_MAP_STATE mapDraining p else s
    wearUpdate (event s 3 evRetire stewardSrc 0xFFFF (leBytes 1 p ++ leBytes 1 (s.get F.FCT_MAP_LOGICAL p) ++ leBytes 1 cause))

/-- The thresholds of 20 Table 20.5: within 1,600 mt, and in the lifetime. -/
def wearLimits (cause : Nat) : Nat × Nat :=
  match cause with
  | 1 => (2, 4)
  | 2 => (2, 8)
  | 3 => (2, 4)
  | _ => (1, 1)

/-- A fault of a physical facet that counts toward retirement (20 R487). -/
def facetFault (s : State) (p cause : Nat) : State :=
  let k := p * 16 + cause
  let times := ((tget [] s.wear.recent k).filter (fun t => decide (s.auxTick < t + 1600))) ++ [s.auxTick]
  let n := tget 0 s.wear.life k + 1
  let s := { s with wear := { s.wear with recent := tset [] s.wear.recent k times, life := tset 0 s.wear.life k n } }
  if (wearLimits cause).1 ≤ times.length ∨ (wearLimits cause).2 ≤ n then decideRetire s p cause false else s

/-- A corrected data SRAM error: 1,024 within 1,600 mt is a planned retirement (20 Table 20.5). -/
def facetCorrected (s : State) (p : Nat) : State :=
  let k := p * 16 + 8
  let times := ((tget [] s.wear.recent k).filter (fun t => decide (s.auxTick < t + 1600))) ++ [s.auxTick]
  let s := { s with wear := { s.wear with recent := tset [] s.wear.recent k times } }
  if 1024 ≤ times.length then decideRetire s p 3 true else s

end Sys2Proof.Machine
end

