-- ==== Sys2Proof/Machine/Apertures.lean ====
section
/-! DEFINITION. Machine/Apertures.lean: the aperture units' access check, their barrier and locks, and the arbiters
(15). -/

namespace Sys2Proof.Machine

open Sys2Proof

/-- Event codes of 15. -/
def evAptOverlap : Nat := 0x0D01
def evAptSet : Nat := 0x0D02
def evAptWriter : Nat := 0x0D03
def evAptDeny : Nat := 0x0D04
def evArbHold : Nat := 0x0D05

/-- A descriptor after reset: 30 admits the configuration loader and 31 the steward (15 Table 15.4). -/
def descReset (d : Nat) : Desc :=
  if d = 30 then ⟨0, 0xDC0000B0#32⟩ else if d = 31 then ⟨0, 0xDC000080#32⟩ else ⟨0, 0⟩

/-- The active descriptor `d` of unit `u`. -/
def State.desc (s : State) (u d : Nat) : Desc := (tget none s.apt.active (u * 32 + d)).getD (descReset d)

/-- The staged descriptor `d` of unit `u`: its two registers (15 R388). -/
def State.staged (s : State) (u d : Nat) : Desc :=
  ⟨s.reg (0x200000 + u * 0x400 + d * 8), s.reg (0x200004 + u * 0x400 + d * 8)⟩

/-- Fields of APT_DnATTR (15 Table 15.4). -/
def Desc.en (d : Desc) : Bool := d.attr.getLsbD 31
def Desc.inner (d : Desc) : Bool := d.attr.getLsbD 30
def Desc.outer (d : Desc) : Bool := d.attr.getLsbD 29
def Desc.wr (d : Desc) : Bool := d.attr.getLsbD 28
def Desc.rd (d : Desc) : Bool := d.attr.getLsbD 27
def Desc.size (d : Desc) : Nat := bitsOf d.attr 21 6
def Desc.srd (d : Desc) : Nat := bitsOf d.attr 13 8
def Desc.mign (d : Desc) : Nat := bitsOf d.attr 10 3
def Desc.master (d : Desc) : Nat := bitsOf d.attr 0 10

/-- The granule exponent of a unit (15 Table 15.1). -/
def aptG (u : Nat) : Nat := if u < 8 then 6 else 32

/-- The end of a unit's space (15 Table 15.1). -/
def aptEnd (u : Nat) : Nat :=
  match u with
  | 0 => 0x600000000
  | 1 => 0xC00000000
  | 2 => 0x4000000
  | 3 => 0x3000000
  | 4 => 0x800000
  | 5 => 0x20000000
  | 6 => 0x400000000
  | 7 => 0x400000
  | _ => 2 ^ 64

/-- Where a descriptor's window starts and how long it is. -/
def Desc.start (d : Desc) (u : Nat) : Nat := d.addr.toNat * 2 ^ aptG u
def Desc.len (d : Desc) (u : Nat) : Nat := 2 ^ (aptG u + d.size)

/-- Do the `n` bytes from an address lie in the window, and none of them in an excluded sub-region (15 R384)? -/
def Desc.covers (d : Desc) (u a n : Nat) : Bool :=
  decide (d.start u ≤ a) && decide (a + n ≤ d.start u + d.len u) && decide (a + n ≤ aptEnd u) &&
    (List.range 8).all (fun k => decide (k < (a - d.start u) * 8 / d.len u) || decide ((a + n - 1 - d.start u) * 8 / d.len u < k) ||
      !(d.srd.testBit k))

/-- Does the descriptor match the access (15 R384)? -/
def Desc.matches (d : Desc) (u a len master : Nat) (inner : Bool) : Bool :=
  d.en && d.covers u a len && decide (master / 2 ^ d.mign = d.master / 2 ^ d.mign) &&
    (if inner then d.inner else d.outer)

/-- Is the descriptor in error (15 R385)? -/
def Desc.bad (d : Desc) (u : Nat) : Bool :=
  decide (32 < d.size) || (decide (d.srd ≠ 0) && decide (d.size < 3)) || decide (d.addr.toNat % 2 ^ d.size ≠ 0) ||
    (decide (8 ≤ u) && decide (d.addr ≠ 0) && decide (d.size = 32))

/-- The admitted ranges of a descriptor, clipped to the unit's space. -/
def Desc.ranges (d : Desc) (u : Nat) : List (Nat × Nat) :=
  let clip := fun (a b : Nat) => (a, min b (aptEnd u))
  let l := if d.srd = 0 then [clip (d.start u) (d.start u + d.len u)]
    else ((List.range 8).filter (fun k => !(d.srd.testBit k))).map
      (fun k => clip (d.start u + d.len u / 8 * k) (d.start u + d.len u / 8 * (k + 1)))
  l.filter (fun r => decide (r.1 < r.2))

/-- Do two descriptors overlap (15 R386)? -/
def overlaps (u : Nat) (a b : Desc) : Bool :=
  a.en && b.en && ((a.inner && b.inner) || (a.outer && b.outer)) &&
    decide (a.master / 2 ^ max a.mign b.mign = b.master / 2 ^ max a.mign b.mign) &&
    (a.ranges u).any (fun x => (b.ranges u).any (fun y => decide (x.1 < y.2) && decide (y.1 < x.2)))

/-- The outer-world floor: does one of the `n` bytes from an address lie in it (15 Table 15.7)? -/
def aptFloor (u a n : Nat) (write served : Bool) : Bool :=
  let hit := fun (lo hi : Nat) => decide (a < hi) && decide (lo < a + n)
  match u with
  | 0 => hit 0 0x314000000 || hit 0x340000000 0x380000000 || hit 0x400000000 0x480000000 || (write && hit 0x380000000 0x3C0000000)
  | 1 => hit 0x900000000 0xC00000000
  | 3 => false
  | 4 => false
  | 6 => false
  | 2 => true
  | 5 => true
  | 7 => true
  | _ => !served

/-- Why an access is refused (15 Table 15.10); 0 admitted. A match of two descriptors also names them. -/
def aptCause (s : State) (u a len master : Nat) (inner write served : Bool) : Nat × Nat × Nat :=
  if !inner && aptFloor u a len write served then (3, 0, 0)
  else
    let hits := (List.range 32).filter (fun d => (s.desc u d).matches u a len master inner)
    match hits with
    | [] => (1, 0, 0)
    | [d] =>
      if !(if write then (s.desc u d).wr else (s.desc u d).rd) then (2, 0, 0)
      else if u = 6 && (decide (master < 72) || (decide (0x90 ≤ master) && decide (master < 0x98))) &&
          !(match tget 0 s.apt.slots master with
            | 0 => false
            | k + 1 => decide (0x3C0000000 + k * 16384 ≤ a) && decide (a + len ≤ 0x3C0000000 + (k + 1) * 16384)) then (4, 0, 0)
      else (0, 0, 0)
    | d1 :: d2 :: _ => (5, d1, d2)

/-- The severity of a refusal, by master and world (15 Table 15.8). -/
def aptSev (master : Nat) (inner : Bool) : Nat :=
  if master < 72 then (if inner then 4 else 5) else if master = 0xB8 then 2 else 4

/-- Check an access at an aperture unit: is it admitted, and the state with a refusal counted, captured and recorded
(15 R384, R387, R391 to R393). The outcome of Table 15.8 for the master is the caller's, but a refusal of the steward,
key store, prism, collimator or ring engine is a critical-state error here. -/
def aptCheck (s : State) (u a len master : Nat) (inner write : Bool) (served : Bool := false) : Bool × State :=
  let r := aptCause s u a len master inner write served
  if r.1 = 0 then (true, s)
  else
    let s := if r.1 = 5 then
        let s := (s.poke F.APT_STATUS_DESC_A r.2.1 u).poke F.APT_STATUS_DESC_B r.2.2 u
        let s := s.raise F.APT_STATUS_OVERLAP u
        event { s with apt := { s.apt with pairs := if s.apt.pairs.contains (u, r.2.1, r.2.2) then s.apt.pairs
            else s.apt.pairs ++ [(u, r.2.1, r.2.2)] } } 5 evAptOverlap (96 + u)
      else s
    let s := s.incSat F.APT_STATUS_DENIED u
    let s := if s.is F.APT_STATUS_DENY_SEEN u then s
      else
        let s := (s.poke F.APT_DADDR_LO a u).poke F.APT_DADDR_HI (a / 4294967296) u
        (((s.poke F.APT_DINFO_CAUSE r.1 u).poke F.APT_DINFO_WRITE (b2n write) u).poke F.APT_DINFO_INNER (b2n inner) u).poke
          F.APT_DINFO_MASTER master u
    let s := s.raise F.APT_STATUS_DENY_SEEN u
    let s := event s (aptSev master inner) evAptDeny (96 + u) 0xFFFF (leBytes 8 a ++ leBytes 2 master)
    let crit := decide (master = 0x80) || decide (master = 0x81) || decide (master = 0x82) || decide (master = 0x83) || decide (master = 0xA8)
    (false, if crit then critical s 5 (leBytes 1 u) else s)

/-- The first failing check of a unit's staged set, in ascending descriptor order: 0 none, 1 error, 2 overlap, and the
two descriptors (15 R388). A locked descriptor takes part as its active copy (R390). -/
def stagedFault (s : State) (u : Nat) : Nat × Nat × Nat :=
  let d := fun k => if (s.get F.APT_LOCK u).testBit k then s.desc u k else s.staged u k
  match (List.range 32).find? (fun k => (d k).bad u) with
  | some k => (1, k, k)
  | none =>
    match (List.range 32).findSome? (fun i =>
        ((List.range 32).find? (fun j => decide (i < j) && overlaps u (d i) (d j))).map (fun j => (i, j))) with
    | some (i, j) => (2, i, j)
    | none => (0, 0, 0)

/-- One unit takes up its staged set, or keeps its active set and says why not (15 R388). True when it applied. -/
def aptApply (s : State) (u : Nat) : Bool × State :=
  let r := stagedFault s u
  if r.1 = 0 then
    (true, { s with apt := { s.apt with
      active := (List.range 32).foldl (fun t d =>
        if (s.get F.APT_LOCK u).testBit d then t
        else tset none t (u * 32 + d) (if s.staged u d = descReset d then none else some (s.staged u d))) s.apt.active
      pairs := s.apt.pairs.filter (fun p => p.1 != u) } })
  else
    let s := (s.poke F.APT_STATUS_DESC_A r.2.1 u).poke F.APT_STATUS_DESC_B r.2.2 u
    let s := if r.1 = 1 then s.raise F.APT_STATUS_DESC_ERR u else s.raise F.APT_STATUS_OVERLAP u
    (false, event s 3 evAptSet (96 + u))

/-- Does the staged set of a unit differ from the active one: APT_STATUS.PENDING (15 Table 15.9)? -/
def aptPending (s : State) (u : Nat) : Bool := (List.range 32).any (fun d => decide (s.staged u d ≠ s.desc u d))

/-! ## The world of a facet, and the host paths (15 R383, R391) -/

/-- Is the facet in the inner world: the custody role, or a gate (03 R72, 15 Table 15.2)? -/
def inner (s : State) (p : Nat) : Bool :=
  (s.facet p).gate.isSome || (s.is F.FCT_MAP_VALID p && decide (s.get F.FCT_MAP_ROLE p = 2))

/-- A facet's access to the host memory of function `fn` through CMDIN, CMDOUT or DONE, at the unit of the function's port. -/
def hostAccess (s : State) (p fn a len : Nat) (write : Bool) : Bool × State :=
  if len = 0 then (true, s) else aptCheck s (8 + fn / 2048) a len p (inner s p) write true

/-- An access of the port's host DMA engine to the host memory of function `fn`. -/
def dmaAccess (s : State) (fn a len : Nat) (write : Bool) : Bool × State :=
  if len = 0 then (true, s) else aptCheck s (8 + fn / 2048) a len (0xA0 + fn / 2048) true write

/-- A write of the port's host DMA engine; a refused one is not performed (15 R393). -/
def dmaWrite (s : State) (fn a : Nat) (d : Bytes) : State :=
  let r := dmaAccess s fn a d.length true
  if r.1 then { r.2 with sent := r.2.sent ++ [.host fn a d] } else r.2

/-- The event of a write from a function that may not write APT or ARB registers (15 R389). -/
def aptDenied (s : State) : State := event s 2 evAptWriter stewardSrc

/-- 15 R388: a write of APT_BAR; every named unit checks and applies its staged set. -/
def aptBar (a : Agent) (units : BitVec 12) (s : State) : State :=
  if s.outOfReach a 0x200000 then s
  else if !(s.isPrimary a) then aptDenied s
  else
    (List.range 12).foldl (fun s u =>
      if units.getLsbD u then
        let r := aptApply s u
        if r.1 then r.2 else { r.2 with apt := { r.2.apt with refused := r.2.apt.refused ||| 2 ^ u } }
      else s) ({ s with apt := { s.apt with refused := 0 } })
def execAptBarWrite (a : Agent) (units : BitVec 12) (s : State) : Host.Outcome State Fault Refusal := .next (aptBar a units s)

/-- 15 R389: a read of APT_BAR, after its stall, returns the units that refused. -/
def execAptBarRead (a : Agent) (s : State) : Host.Outcome State Fault Refusal :=
  .next { s with rdata := BitVec.ofNat 64 (if s.outOfReach a 0x200000 then 0 else s.apt.refused) }

/-- 15 R390: a write of APT_LOCK acts as a barrier of that unit alone; if it applies, the bits are set. -/
def aptLock (a : Agent) (u : Nat) (mask : Word) (s : State) : State :=
  if s.outOfReach a 0x200000 then s
  else if !(s.isPrimary a) then aptDenied s
  else if mask = 0 then s
  else
    let r := aptApply { s with apt := { s.apt with refused := 0 } } u
    if r.1 then r.2.poke F.APT_LOCK (r.2.get F.APT_LOCK u ||| mask.toNat) u
    else { r.2 with apt := { r.2.apt with refused := 2 ^ u } }
def execAptLockWrite (a : Agent) (u : Fin 12) (mask : Word) (s : State) : Host.Outcome State Fault Refusal := .next (aptLock a u.val mask s)

/-! ## Arbiters (15 R394 to R397) -/

/-- Arbiter `a`. -/
def State.arbiter (s : State) (a : Nat) : ArbSt := tget ArbSt.zero s.arb a

/-- Write arbiter `a`. -/
def State.setArb (s : State) (a : Nat) (t : ArbSt) : State := { s with arb := tset ArbSt.zero s.arb a t }

/-- Does request `x` rank ahead of `y` (15 R395)? Saturated ones first in the order they saturated, then the older
stamp, then the lower master ID. -/
def arbAhead (x y : ArbReq) : Bool :=
  match x.sat, y.sat with
  | some i, some j => decide (i < j) || (decide (i = j) && decide (x.master < y.master))
  | some _, none => true
  | none, some _ => false
  | none, none =>
    if x.stamp = y.stamp then decide (x.master < y.master)
    else let d := (y.stamp + 65536 - x.stamp) % 65536
      decide (1 ≤ d) && decide (d ≤ 32767)

/-- Does request `x` rank ahead of `y` at arbiter `a`? At the MRAM port, arbiter 4, a power-fail flush, which is the steward's, ranks
ahead of every other user (01 Table 01.3, 18 R459). -/
def State.arbFirst (s : State) (a : Nat) (x y : ArbReq) : Bool :=
  if a = 4 ∧ s.rst.pfail ∧ decide (x.master = 0x080) ≠ decide (y.master = 0x080) then decide (x.master = 0x080) else arbAhead x y

/-- Give the port to the highest-ranking request. -/
def arbGrant (s : State) (a : Nat) : State :=
  let t := s.arbiter a
  match t.waiting.foldl (fun acc x => match acc with
      | none => some x
      | some y => if s.arbFirst a x y then some x else some y) (none : Option ArbReq) with
  | none => (s.setArb a { t with holder := none, used := 0 }).poke F.ARB_STATUS_BUSY 0 a
  | some x =>
    let s := s.setArb a { t with holder := some x.master, used := 0, waiting := t.waiting.erase x }
    (s.poke F.ARB_STATUS_BUSY 1 a).poke F.ARB_STATUS_HOLDER x.master a

/-- Requests that arrive; a free port is granted at once (15 R395). -/
def arbArrive (s : State) (a : Nat) (l : List ArbArrival) : State :=
  let t := s.arbiter a
  let s := s.setArb a { t with waiting := t.waiting ++ l.map (fun x => ⟨x.master.toNat, x.stamp.toNat, none⟩) }
  if t.holder.isNone then arbGrant s a else s

/-- The holder's remaining request is stamped again and ranks behind every waiting request (15 R396, R397). -/
def arbRestamp (s : State) (a now : Nat) : State :=
  let t := s.arbiter a
  match t.holder with
  | none => s
  | some m =>
    let others := { t with holder := none }
    let s := { s with arb := tset ArbSt.zero s.arb a others }
    if others.waiting = [] then
      arbGrant (s.setArb a { others with waiting := [⟨m, now, none⟩] }) a
    else
      let s := arbGrant s a
      let t := s.arbiter a
      s.setArb a { t with waiting := t.waiting ++ [⟨m, now, none⟩] }

/-- A power-fail flush takes the MRAM port from its holder, whose remaining request is stamped again, at a fabric cycle count that the
power failure fixes (01 Table 01.3). -/
def arbPreempt (s : State) : State :=
  let t := s.arbiter 4
  if t.holder = some 0x080 then s
  else
    let r := s.free
    let back := match t.holder with
      | some m => [(⟨m, r.1 % 65536, none⟩ : ArbReq)]
      | none => []
    let s := r.2.setArb 4 { t with holder := some 0x080, used := 0, waiting := t.waiting ++ back }
    (s.poke F.ARB_STATUS_BUSY 1 4).poke F.ARB_STATUS_HOLDER 0x080 4

/-- 15 R397: a grant reaches HOLD fabric cycles and is cut off at the next transfer boundary. -/
def execArbHoldCut (a : Fin 8) (now : BitVec 16) (arrivals : List ArbArrival) (s : State) : Host.Outcome State Fault Refusal :=
  match (s.arbiter a.val).holder with
  | none => .next (arbArrive s a.val arrivals)
  | some m =>
    let s := arbArrive s a.val arrivals
    let s := (s.raise F.ARB_STATUS_HOLD_SEEN a.val).incSat F.ARB_STATUS_CUTS a.val
    let s := event s 2 evArbHold (108 + a.val) 0xFFFF (leBytes 1 a.val ++ leBytes 2 m)
    .next (arbRestamp s a.val now.toNat)

/-- 15 R396: a holder that still requests has made its BURST transfers. -/
def execArbBurstEnd (a : Fin 8) (now : BitVec 16) (arrivals : List ArbArrival) (s : State) : Host.Outcome State Fault Refusal :=
  .next (if (s.arbiter a.val).holder.isNone then arbArrive s a.val arrivals else arbRestamp (arbArrive s a.val arrivals) a.val now.toNat)

/-- The oldest waiting request of a master that is not saturated. -/
def arbOldest (t : ArbSt) (m : Nat) : Option ArbReq :=
  (t.waiting.filter (fun (r : ArbReq) => decide (r.master = m) && r.sat.isNone)).foldl (fun acc x => match acc with
    | none => some x
    | some y => if arbAhead x y then some x else some y) none

/-- 15 R395: a waiting request's age reaches 32,768 fabric cycles. Requests of the same stamp saturate in the same cycle. -/
def execArbSaturation (a : Fin 8) (master : BitVec 10) (arrivals : List ArbArrival) (s : State) : Host.Outcome State Fault Refusal :=
  let s := arbArrive s a.val arrivals
  let t := s.arbiter a.val
  match arbOldest t master.toNat with
  | none => .next s
  | some x =>
    let mark := fun (r : ArbReq) => if r.stamp = x.stamp ∧ r.sat.isNone then { r with sat := some t.satNext } else r
    let s := s.setArb a.val { t with waiting := t.waiting.map mark, satNext := t.satNext + 1 }
    .next (s.raise F.ARB_STATUS_SAT_SEEN a.val)

end Sys2Proof.Machine
end

