-- ==== Sys2Proof/Machine/PkCheck.lean ====
section
/-! DEFINITION. Machine/PkCheck.lean: component lengths (11 Table 11.2) and the checks of public inputs that the library makes
before a command parks (11 R307). -/

namespace Sys2Proof.Machine

open Sys2Proof

/-! ## Families and lengths -/

def isRsa (a : Nat) : Bool := a = 0x20
def isNist (a : Nat) : Bool := 0x21 ≤ a && a ≤ 0x23
def isXdh (a : Nat) : Bool := a = 0x24 || a = 0x26
def isEd (a : Nat) : Bool := a = 0x25 || a = 0x27
def isKem (a : Nat) : Bool := 0x30 ≤ a && a ≤ 0x32
def isDsa (a : Nat) : Bool := 0x38 ≤ a && a ≤ 0x3A

/-- Bytes of a field element of a curve. -/
def fieldLen (a : Nat) : Nat := match a with
  | 0x21 => 32
  | 0x22 => 48
  | 0x23 => 66
  | 0x26 => 56
  | 0x27 => 57
  | _ => 32

/-- Bytes of the public components; `m` is the RSA modulus length in bits. -/
def pubLen (a m : Nat) : Nat := match a with
  | 0x20 => m / 8 + 4
  | 0x30 => 800
  | 0x31 => 1184
  | 0x32 => 1568
  | 0x38 => 1312
  | 0x39 => 1952
  | 0x3A => 2592
  | _ => if isNist a then 2 * fieldLen a else fieldLen a

/-- Bytes of the private components. -/
def privLen (a m : Nat) : Nat := match a with
  | 0x20 => 5 * (m / 16)
  | 0x30 => 1632
  | 0x31 => 2400
  | 0x32 => 3168
  | 0x38 => 2560
  | 0x39 => 4032
  | 0x3A => 4896
  | _ => fieldLen a

/-- Bytes of a signature. -/
def signLen (a m : Nat) : Nat := match a with
  | 0x20 => m / 8
  | 0x38 => 2420
  | 0x39 => 3309
  | 0x3A => 4627
  | _ => 2 * fieldLen a

/-- Bytes of an ML-KEM ciphertext. -/
def kemCtLen (a : Nat) : Nat := match a with
  | 0x30 => 768
  | 0x31 => 1088
  | _ => 1568

/-! ## Curve constants (FIPS 186-5, RFC 7748, RFC 8032) -/

/-- The prime of a field. -/
def fieldP (a : Nat) : Nat := match a with
  | 0x21 => 2 ^ 256 - 2 ^ 224 + 2 ^ 192 + 2 ^ 96 - 1
  | 0x22 => 2 ^ 384 - 2 ^ 128 - 2 ^ 96 + 2 ^ 32 - 1
  | 0x23 => 2 ^ 521 - 1
  | 0x24 => 2 ^ 255 - 19
  | 0x25 => 2 ^ 255 - 19
  | _ => 2 ^ 448 - 2 ^ 224 - 1

/-- The coefficient b of a NIST curve; a is −3. -/
def curveB (a : Nat) : Nat := match a with
  | 0x21 => 0x5ac635d8aa3a93e7b3ebbd55769886bc651d06b0cc53b0f63bce3c3e27d2604b
  | 0x22 => 0xb3312fa7e23ee7e4988e056be3f82d19181d9c6efe8141120314088f5013875ac656398d8a2ed19d2a85c8edd3ec2aef
  | _ => 0x51953eb9618e1c9a1f929a21a0b68540eea2da725b99b315f3b8b489918ef109e156193951ec7e937b1652c0bd3bb1bf073573df883d2c34f1ef451fd46b503f00

/-- The order of a group. -/
def groupN (a : Nat) : Nat := match a with
  | 0x21 => 0xffffffff00000000ffffffffffffffffbce6faada7179e84f3b9cac2fc632551
  | 0x22 => 0xffffffffffffffffffffffffffffffffffffffffffffffffc7634d81f4372ddf581a0db248b0a77aecec196accc52973
  | 0x23 => 0x01fffffffffffffffffffffffffffffffffffffffffffffffffffffffffffffffffa51868783bf2f966b7fcc0148f709a5d03bb5c9b8899c47aebb6fb71e91386409
  | 0x25 => 2 ^ 252 + 27742317777372353535851937790883648493
  | _ => 2 ^ 446 - 13818066809895115352007386748515426880336692474882178609894547503885

/-- The u of points of order 1, 2, 4 and 8. -/
def lowOrder (a : Nat) : List Nat :=
  if a = 0x24 then [0, 1, fieldP 0x24 - 1, 325606250916557431795983626356110631294008115727848805560023387167927233504,
    39382357235489614581723060781553021112529911719440698176882885853963445705823]
  else [0, 1, fieldP 0x26 - 1]

/-! ## The checks (11 R307) -/

/-- A point on a NIST curve, x ‖ y. -/
def ecPointOk (a : Nat) (q : Bytes) : Bool :=
  let n := fieldLen a
  let p := fieldP a
  let x := beNat (q.take n)
  let y := beNat (q.drop n)
  decide (q.length = 2 * n) && decide (x < p) && decide (y < p) && decide ((y * y + 3 * x) % p = (x * x * x + curveB a) % p)

/-- An ECDSA signature, r ‖ s. -/
def ecdsaOk (a : Nat) (sig : Bytes) : Bool :=
  let n := fieldLen a
  let r := beNat (sig.take n)
  let s := beNat (sig.drop n)
  decide (sig.length = 2 * n) && decide (0 < r) && decide (r < groupN a) && decide (0 < s) && decide (s < groupN a)

/-- A peer's u of X25519 or X448. -/
def xPeerOk (a : Nat) (u : Bytes) : Bool :=
  let v := (if a = 0x24 then leNat u % 2 ^ 255 else leNat u) % fieldP a
  decide (u.length = fieldLen a) && !((lowOrder a).contains v)

/-- An RSA public key, n ‖ e. -/
def rsaKeyOk (pub : Bytes) : Bool :=
  let nl := pub.length - 4
  let e := beNat (pub.drop nl)
  decide (256 ≤ nl) && decide (nl ≤ 1024) && decide (nl % 128 = 0) && decide (0x80 ≤ byteAt pub 0) &&
    decide (byteAt pub (nl - 1) % 2 = 1) && decide (65537 ≤ e) && decide (e % 2 = 1)

/-- A canonical encoding of an Edwards point: y below the prime. -/
def edPointOk (a : Nat) (b : Bytes) : Bool :=
  let y := leNat b % 2 ^ (if a = 0x25 then 255 else 455)
  decide (b.length = fieldLen a) && decide (y < fieldP a)

/-- An EdDSA signature and its public key. -/
def edOk (a : Nat) (sig pub : Bytes) : Bool :=
  let b := fieldLen a
  decide (sig.length = 2 * b) && edPointOk a (sig.take b) && edPointOk a pub && decide (leNat (sig.drop b) < groupN a)

/-- The 12-bit coefficients of an encoded polynomial vector. -/
def coeffs12 (l : Bytes) : List Nat :=
  match l with
  | a :: b :: c :: r => (a.toNat + 256 * (b.toNat % 16)) :: (b.toNat / 16 + 16 * c.toNat) :: coeffs12 r
  | _ => []

/-- An ML-KEM encapsulation key. -/
def kemKeyOk (a : Nat) (ek : Bytes) : Bool :=
  let k := a - 0x30 + 2
  decide (ek.length = 384 * k + 32) && (coeffs12 (ek.take (384 * k))).all (fun x => decide (x < 3329))

/-- The public inputs of a verification. -/
def verifyInputOk (a : Nat) (pub sig : Bytes) : Bool :=
  if isRsa a then rsaKeyOk pub && decide (sig.length + 4 = pub.length) && decide (beNat sig < beNat (pub.take (pub.length - 4)))
  else if isNist a then ecPointOk a pub && ecdsaOk a sig
  else if isEd a then edOk a sig pub
  else if isDsa a then decide (pub.length = pubLen a 0) && decide (sig.length = signLen a 0)
  else false

/-- A peer's public key in an agreement. -/
def peerOk (a : Nat) (q : Bytes) : Bool := if isNist a then ecPointOk a q else if isXdh a then xPeerOk a q else false

end Sys2Proof.Machine
end

