-- ==== Sys2Proof/Machine/Hash.lean ====
section
/-! DEFINITION. Machine/Hash.lean: the hash functions the spec names by their standards (00 Table 00.5: FIPS 180-4,
FIPS 202, FIPS 198-1). The arithmetic is PRESUMED from those standards (log entry 7). -/

namespace Sys2Proof.Machine

/-! ## SHA-2 -/

/-- The first `n` primes: the numbers up to 410 without a smaller divisor above 1. -/
def firstPrimes (n : Nat) : List Nat :=
  ((List.range 409).map (fun i => i + 2)).filter (fun p => (List.range p).all (fun d => decide (d < 2) || decide (p % d ≠ 0))) |>.take n

/-- The first 64 bits of the fractional part of the `k`-th root of `p`, found bit by bit from the top. -/
def rootFraction (k p : Nat) : Nat :=
  (List.range 70).foldl (fun r i => if (r + 2 ^ (69 - i)) ^ k ≤ p * 2 ^ (64 * k) then r + 2 ^ (69 - i) else r) 0 % 2 ^ 64

/-- The round constants of the SHA-512 family: cube roots of the first 80 primes. Those of SHA-256 are the upper halves of the first 64. -/
def sha512K : List (BitVec 64) := (firstPrimes 80).map (fun p => BitVec.ofNat 64 (rootFraction 3 p))
def sha256K : List (BitVec 32) := (sha512K.take 64).map (fun k => k.extractLsb' 32 32)

/-- Eight working words of a SHA-2 state of word width `w`. -/
structure Sha2 (w : Nat) where
  a : BitVec w
  b : BitVec w
  c : BitVec w
  d : BitVec w
  e : BitVec w
  f : BitVec w
  g : BitVec w
  h : BitVec w

/-- A state from its words in order. -/
def Sha2.ofWords {w : Nat} (l : List (BitVec w)) : Sha2 w :=
  ⟨l.getD 0 0, l.getD 1 0, l.getD 2 0, l.getD 3 0, l.getD 4 0, l.getD 5 0, l.getD 6 0, l.getD 7 0⟩

/-- Initial words: square roots of the first eight primes (SHA-512; SHA-256 their upper halves), and of the next eight (SHA-384; SHA-224 their
lower halves). -/
def sqrtWords (skip : Nat) : List (BitVec 64) := ((firstPrimes 16).drop skip |>.take 8).map (fun p => BitVec.ofNat 64 (rootFraction 2 p))

/-- The four rotation functions and the two schedule functions, by word width. -/
structure Sha2Fns (w : Nat) where
  s0 : BitVec w → BitVec w
  s1 : BitVec w → BitVec w
  e0 : BitVec w → BitVec w
  e1 : BitVec w → BitVec w

def sha256Fns : Sha2Fns 32 :=
  ⟨fun x => x.rotateRight 7 ^^^ x.rotateRight 18 ^^^ (x >>> 3), fun x => x.rotateRight 17 ^^^ x.rotateRight 19 ^^^ (x >>> 10),
   fun x => x.rotateRight 2 ^^^ x.rotateRight 13 ^^^ x.rotateRight 22, fun x => x.rotateRight 6 ^^^ x.rotateRight 11 ^^^ x.rotateRight 25⟩

def sha512Fns : Sha2Fns 64 :=
  ⟨fun x => x.rotateRight 1 ^^^ x.rotateRight 8 ^^^ (x >>> 7), fun x => x.rotateRight 19 ^^^ x.rotateRight 61 ^^^ (x >>> 6),
   fun x => x.rotateRight 28 ^^^ x.rotateRight 34 ^^^ x.rotateRight 39, fun x => x.rotateRight 14 ^^^ x.rotateRight 18 ^^^ x.rotateRight 41⟩

/-- The message schedule, newest word first, `n` words more. -/
def sha2Sched {w : Nat} (fn : Sha2Fns w) (n : Nat) (l : List (BitVec w)) : List (BitVec w) :=
  match n with
  | 0 => l
  | k + 1 => sha2Sched fn k ((fn.s1 (l.getD 1 0) + l.getD 6 0 + fn.s0 (l.getD 14 0) + l.getD 15 0) :: l)

/-- One round. -/
def sha2Round {w : Nat} (fn : Sha2Fns w) (x : Sha2 w) (kw : BitVec w × BitVec w) : Sha2 w :=
  let t1 := x.h + fn.e1 x.e + ((x.e &&& x.f) ^^^ (~~~x.e &&& x.g)) + kw.1 + kw.2
  let t2 := fn.e0 x.a + ((x.a &&& x.b) ^^^ (x.a &&& x.c) ^^^ (x.b &&& x.c))
  ⟨t1 + t2, x.a, x.b, x.c, x.d + t1, x.e, x.f, x.g⟩

/-- One block. -/
def sha2Block {w : Nat} (fn : Sha2Fns w) (ks : List (BitVec w)) (x : Sha2 w) (blk : Bytes) : Sha2 w :=
  let m := (pieces (w / 8) blk).map (fun b => BitVec.ofNat w (beNat b))
  let sch := (sha2Sched fn (ks.length - 16) m.reverse).reverse
  let y := (ks.zip sch).foldl (sha2Round fn) x
  ⟨x.a + y.a, x.b + y.b, x.c + y.c, x.d + y.d, x.e + y.e, x.f + y.f, x.g + y.g, x.h + y.h⟩

/-- Padding to a multiple of `blk` bytes with a length of `ln` bytes. -/
def sha2Pad (blk ln : Nat) (m : Bytes) : Bytes :=
  let z := (blk - (m.length + 1 + ln) % blk) % blk
  m ++ [0x80] ++ List.replicate z 0 ++ beBytes ln (8 * m.length)

/-- The digest words in order. -/
def Sha2.out {w : Nat} (x : Sha2 w) : Bytes :=
  [x.a, x.b, x.c, x.d, x.e, x.f, x.g, x.h].flatMap (fun v => beBytes (w / 8) v.toNat)

def sha2 {w : Nat} (fn : Sha2Fns w) (ks : List (BitVec w)) (iv : Sha2 w) (m : Bytes) : Bytes :=
  ((pieces (2 * w) (sha2Pad (2 * w) (w / 4) m)).foldl (sha2Block fn ks) iv).out

def sha256 (m : Bytes) : Bytes := sha2 sha256Fns sha256K (.ofWords ((sqrtWords 0).map (fun x => x.extractLsb' 32 32))) m

def sha224 (m : Bytes) : Bytes := (sha2 sha256Fns sha256K (.ofWords ((sqrtWords 8).map (fun x => x.setWidth 32))) m).take 28

def sha512 (m : Bytes) : Bytes := sha2 sha512Fns sha512K (.ofWords (sqrtWords 0)) m

def sha384 (m : Bytes) : Bytes := (sha2 sha512Fns sha512K (.ofWords (sqrtWords 8)) m).take 48

def sha512t224 (m : Bytes) : Bytes :=
  (sha2 sha512Fns sha512K ⟨0x8C3D37C819544DA2, 0x73E1996689DCD4D6, 0x1DFAB7AE32FF9C82, 0x679DD514582F9FCF,
    0x0F6D2B697BD44DA8, 0x77E36F7304C48942, 0x3F9D85A86A1D36C8, 0x1112E6AD91D692A1⟩ m).take 28

def sha512t256 (m : Bytes) : Bytes :=
  (sha2 sha512Fns sha512K ⟨0x22312194FC2BF72C, 0x9F555FA3C84C64C2, 0x2393B86B6F53B151, 0x963877195940EABD,
    0x96283EE2A88EFFE3, 0xBE5E1E2553863992, 0x2B0199FC2C85B8AA, 0x0EB72DDC81C52CA2⟩ m).take 32

/-! ## SHA-3 and SHAKE -/

/-- Round constants of Keccak-f[1600]. -/
def keccakRC : List (BitVec 64) := [
  0x0000000000000001, 0x0000000000008082, 0x800000000000808A, 0x8000000080008000, 0x000000000000808B, 0x0000000080000001,
  0x8000000080008081, 0x8000000000008009, 0x000000000000008A, 0x0000000000000088, 0x0000000080008009, 0x000000008000000A,
  0x000000008000808B, 0x800000000000008B, 0x8000000000008089, 0x8000000000008003, 0x8000000000008002, 0x8000000000000080,
  0x000000000000800A, 0x800000008000000A, 0x8000000080008081, 0x8000000000008080, 0x0000000080000001, 0x8000000080008008]

/-- Rotation offsets, lane `x + 5 * y`. -/
def keccakRot : List Nat := [0, 1, 62, 28, 27, 36, 44, 6, 55, 20, 3, 10, 43, 25, 39, 41, 45, 15, 21, 8, 18, 2, 61, 56, 14]

/-- One round on 25 lanes. -/
def keccakRound (a : List (BitVec 64)) (rc : BitVec 64) : List (BitVec 64) :=
  let at' := fun (l : List (BitVec 64)) (x y : Nat) => l.getD (x % 5 + 5 * (y % 5)) 0
  let c := (List.range 5).map (fun x => at' a x 0 ^^^ at' a x 1 ^^^ at' a x 2 ^^^ at' a x 3 ^^^ at' a x 4)
  let d := (List.range 5).map (fun x => c.getD ((x + 4) % 5) 0 ^^^ (c.getD ((x + 1) % 5) 0).rotateLeft 1)
  let t := (List.range 25).map (fun i => (a.getD i 0 ^^^ d.getD (i % 5) 0).rotateLeft (keccakRot.getD i 0))
  -- lane (X, Y) of the result of pi comes from lane (x, y) with X = y, Y = 2x + 3y, that is x = X + 3Y, y = X
  let b := (List.range 25).map (fun i => at' t (i % 5 + 3 * (i / 5)) (i % 5))
  let e := (List.range 25).map (fun i => at' b i (i / 5) ^^^ (~~~(at' b (i % 5 + 1) (i / 5)) &&& at' b (i % 5 + 2) (i / 5)))
  match e with
  | [] => []
  | x :: r => (x ^^^ rc) :: r

def keccakF (a : List (BitVec 64)) : List (BitVec 64) := keccakRC.foldl keccakRound a

/-- Absorb one block of the rate. -/
def keccakAbsorb (a : List (BitVec 64)) (blk : Bytes) : List (BitVec 64) :=
  let lanes := (pieces 8 blk).map (fun b => BitVec.ofNat 64 (leNat b))
  keccakF ((List.range 25).map (fun i => a.getD i 0 ^^^ lanes.getD i 0))

/-- Squeeze `n` blocks of the rate. -/
def keccakSqueeze (n rate : Nat) (a : List (BitVec 64)) : Bytes :=
  match n with
  | 0 => []
  | k + 1 => (a.flatMap (fun x => leBytes 8 x.toNat)).take rate ++ keccakSqueeze k rate (keccakF a)

/-- The sponge: rate and output in bytes, domain suffix byte. -/
def keccak (rate : Nat) (suffix : Byte) (out : Nat) (m : Bytes) : Bytes :=
  let z := rate - (m.length + 1) % rate
  let p := if (m.length + 1) % rate = 0 then m ++ [suffix ||| 0x80]
    else m ++ [suffix] ++ List.replicate (z - 1) 0 ++ [0x80]
  (keccakSqueeze ((out + rate - 1) / rate) rate ((pieces rate p).foldl keccakAbsorb (List.replicate 25 0))).take out

/-! ## The hash unit's algorithms (02 Table 02.8) -/

/-- The hash of a message by the model's number of the algorithm: 0 SHA-224, 1 SHA-256, 2 SHA-384, 3 SHA-512,
4 SHA-512/224, 5 SHA-512/256, 6 SHA3-224, 7 SHA3-256, 8 SHA3-384, 9 SHA3-512, 10 SHAKE128, 11 SHAKE256 (a SHAKE gives
32 and 64 bytes; log entry 8). -/
def hashBytes (alg : Nat) (m : Bytes) : Bytes :=
  match alg with
  | 0 => sha224 m
  | 1 => sha256 m
  | 2 => sha384 m
  | 3 => sha512 m
  | 4 => sha512t224 m
  | 5 => sha512t256 m
  | 6 => keccak 144 0x06 28 m
  | 7 => keccak 136 0x06 32 m
  | 8 => keccak 104 0x06 48 m
  | 9 => keccak 72 0x06 64 m
  | 10 => keccak 168 0x1F 32 m
  | _ => keccak 136 0x1F 64 m

/-- The input block of a hash algorithm in bytes (02 Table 02.8). -/
def hashBlock (alg : Nat) : Nat :=
  match alg with
  | 0 => 64
  | 1 => 64
  | 2 => 128
  | 3 => 128
  | 4 => 128
  | 5 => 128
  | 6 => 144
  | 7 => 136
  | 8 => 104
  | 9 => 72
  | 10 => 168
  | _ => 136

/-- HMAC (FIPS 198-1). -/
def hmac (alg : Nat) (key m : Bytes) : Bytes :=
  let k := fitBytes (hashBlock alg) (if key.length ≤ hashBlock alg then key else hashBytes alg key)
  let inner := hashBytes alg (k.map (fun x => x ^^^ 0x36) ++ m)
  hashBytes alg (k.map (fun x => x ^^^ 0x5c) ++ inner)

/-- An ASCII label. -/
def ascii (t : String) : Bytes := t.toList.map (fun c => BitVec.ofNat 8 c.toNat)

/-- KDF(K, L, C) of 05 R108: the first 32 bytes of HMAC-SHA-384(K, 0x0000_0001 ‖ L ‖ 0x00 ‖ C ‖ 0x0000_0100). -/
def kdf (k : Bytes) (l : String) (c : Bytes) : Bytes :=
  (hmac 2 k (beBytes 4 1 ++ ascii l ++ [0] ++ c ++ beBytes 4 0x100)).take 32

end Sys2Proof.Machine
end

