-- ==== Sys2Proof/Machine/Power.lean ====
section
/-! DEFINITION. Machine/Power.lean: power domains (18 R457), the pass mirror's drive (13 R332), what goes dark at an alarm or a
power failure (17 R434, 18 R459), and signature blocks (03 R66). -/

namespace Sys2Proof.Machine

open Sys2Proof

/-- Does the main side run, so that the Periscope port reaches its services (19 Table 19.3)? -/
def State.mainUp (s : State) : Bool := s.mainPower && decide (4 ≤ s.get F.DEV_START_STAGE)

/-- Is domain `n` of 18 Table 18.16 on? -/
def State.domainOn (s : State) (n : Nat) : Bool := (s.get F.PWR_DOM (n / 32)).testBit (n % 32)

/-- Switch domain `n`. -/
def setDomain (s : State) (n : Nat) (on : Bool) : State :=
  let w := s.get F.PWR_DOM (n / 32)
  if on = w.testBit (n % 32) then s else s.poke F.PWR_DOM (if on then w + 2 ^ (n % 32) else w - 2 ^ (n % 32)) (n / 32)

/-- Switch domains `lo` to `hi`. -/
def setDomains (s : State) (lo hi : Nat) (on : Bool) : State :=
  (List.range (hi + 1 - lo)).foldl (fun s k => setDomain s (lo + k) on) s

/-- The sensed state of the pass mirror: 0 PASS, 1 TO_INSERT, 2 INSERT, 3 TO_PASS, 4 FAULT (13 Table 13.13). -/
def State.mirror (s : State) : Nat := s.get F.VR_LINK_MIRROR
def setMirror (s : State) (v : Nat) : State := (s.poke F.VR_LINK_MIRROR v 0).poke F.VR_LINK_MIRROR v 1

/-- Remove the mirror's drive: it goes toward PASS (13 Table 13.1). -/
def mirrorRelease (s : State) : State := if s.mirror = 1 ∨ s.mirror = 2 then setMirror s 3 else s

/-- Every stream sub-port goes dark (09 R242). -/
def portsDark (s : State) : State := (List.range 16).foldl (fun s n => s.poke F.SP_STATUS_DARK 1 n) s

/-- Acceptance stops, and stream ports and facets go dark (17 R434 step 1, 18 R459). -/
def goDark (s : State) : State :=
  let s := { s with rst := { s.rst with accOpen := false } }
  portsDark (setDomains (setDomains s 0 71 false) 80 95 false)

/-- Zeroise the BBRAM share (05 R143, 17 R434). The keys formed from it stay in the root registers until the reset that follows (05 Table 05.1). -/
def eraseShare (s : State) : State := ({ s with sec := { s.sec with share := none } }).raise F.TMP_STATUS_ERASED

/-- Lengths of a signature by algorithm (FIPS 204; ECDSA r ‖ s; log entry 7). -/
def sigLen (alg : Nat) : Nat := match alg with
  | 0x22 => 96
  | 0x38 => 2420
  | 0x39 => 3309
  | 0x3A => 4627
  | _ => 0

/-- Does a signature block verify over a message, under the keys given by algorithm (03 R66)? Scheme 1 needs both signatures,
ML-DSA-87 first. -/
def sigBlockOk (key : Nat → Bytes) (blk msg : Bytes) : Bool :=
  let scheme := leNat (sliceBytes blk 0 2)
  let len := leNat (sliceBytes blk 4 4)
  let sig := (blk.drop 8).take len
  let ok := fun (alg : Nat) (x : Bytes) => Config.pkVerify alg (key alg) [] [] x (if alg = 0x22 then sha384 msg else msg)
  decide (8 ≤ blk.length) && decide (leNat (sliceBytes blk 2 2) = 0) && decide (sig.length = len) &&
    (match scheme with
      | 1 => decide (len = sigLen 0x3A + sigLen 0x22) && ok 0x3A (sig.take (sigLen 0x3A)) && ok 0x22 (sig.drop (sigLen 0x3A))
      | 2 => decide (len = sigLen 0x3A) && ok 0x3A sig
      | 3 => decide (len = sigLen 0x22) && ok 0x22 sig
      | _ => false)

end Sys2Proof.Machine
end

