-- ==== Sys2Proof/Machine/Alarm.lean ====
section
/-! DEFINITION. Machine/Alarm.lean: the response to a tamper alarm and the lens-mismatch monitor (17 R432 to R435, 02 R31). -/

namespace Sys2Proof.Machine

open Sys2Proof

def evTamper : Nat := 0x0F07

/-- The tamper block as an event's source (16 Table 16.1). -/
def tmpSrc : Nat := 137

/-- The codeword of a state (17 Table 17.1). -/
def lcCode (st : Nat) : Nat := match st with
  | 0 => 0
  | 1 => 0x00000FFF
  | 2 => 0x00FFF000
  | _ => 0xFFFF0000

def State.lcState (s : State) : Nat := s.get F.LC_STATE_STATE

/-- Stop a transition's programming after the fuse pair in progress: how far it came is free (17 R425). -/
def lcStop (s : State) : State :=
  match s.lc.prog with
  | none => s
  | some t =>
    let r := s.free
    let n := r.1 % 97
    let part := fun (k : Nat) (c : Nat) => (List.range 32).foldl (fun (acc : Nat) i =>
      let v := if 32 * k + i < n then (lcCode t).testBit i else c.testBit i
      if v then acc + 2 ^ i else acc) 0
    let copies := [0, 1, 2].map (fun k => part k (s.lc.copies.getD k 0))
    { r.2 with lc := { r.2.lc with copies := copies, prog := none } }

def State.eraseClass (s : State) (n : Nat) : Bool := decide (n < 2) || (s.get F.TMP_CFG_ERASE).testBit n

/-- Is sensor `n` ignored: TEST_OFF in Test (17 R423), masked during a power-fail sequence (17 R432), or the rail sensor with no domain
switched on (22 R510)? -/
def State.sensorOff (s : State) (n : Nat) : Bool :=
  (decide (n = 2) && [0, 1, 2, 3].all (fun k => decide (s.get F.PWR_DOM k = 0))) ||
  (decide (s.lcState = 1) && (s.get F.TMP_CFG_TEST_OFF).testBit n) || (s.rst.pfail && (n = 2 || n = 5))

/-- Latch a sensor's bits. -/
def tmpLatch (s : State) (n : Nat) : State :=
  let s := s.poke F.TMP_STATUS_LATCHED (s.get F.TMP_STATUS_LATCHED ||| 2 ^ n)
  evLatch s tmpSrc

/-- TAMPER_ALARM with main power: the response of 17 R434. Alarms that meet are one response, and one reset (17 R435). -/
def tamperAlarm (n : Nat) (s : State) : State :=
  if !s.mainPower ∨ s.lc.alarms.contains n ∨ s.sensorOff n then s
  else
    let meets := !s.lc.alarms.isEmpty
    let s := { s with lc := { s.lc with alarms := sput s.lc.alarms n } }
    let s := tmpLatch (s.poke F.TMP_STATUS_LIVE (s.get F.TMP_STATUS_LIVE ||| 2 ^ n)) n
    let s := mirrorRelease (goDark s)
    let s := if s.eraseClass n then
        let s := lcStop (eraseShare s)
        { s with lc := { s.lc with advance := s.lc.advance + 1 } }
      else s
    let s := event s 5 evTamper tmpSrc 0xFFFF (leBytes 1 n)
    if meets then s else requestReset s 5 2

/-- The lens-mismatch monitor advances; sensor 7 alarms at 8 within 1 mt or 64 within 1,600 mt (02 R31, 11 R305, 17 Table 17.9). -/
def mismatch (s : State) : State :=
  let l := (s.lc.mismatches.filter (fun t => decide (s.mtick < t + 1600))) ++ [s.mtick]
  let s := { s with lc := { s.lc with mismatches := l } }
  if 64 ≤ l.length ∨ 8 ≤ (l.filter (fun t => decide (s.mtick < t + 1))).length then tamperAlarm 7 s else s

end Sys2Proof.Machine
end

