-- ==== Sys2Proof/Machine/Cipher.lean ====
section
/-! DEFINITION. Machine/Cipher.lean: the block ciphers of 02 Table 02.2 and the lens directions of Table 02.3, GF(2^128)
of 02 R47, and the modes programs build from them (03 Table 03.11). The arithmetic of AES, TDES, SM4, GCM, CMAC, XTS and
FF1 is PRESUMED from the standards of 00 Table 00.5 (log entry 7). -/

namespace Sys2Proof.Machine

/-! ## AES (FIPS 197) -/

/-- The AES substitution box. -/
def aesS : Array Nat := #[99, 124, 119, 123, 242, 107, 111, 197, 48, 1, 103, 43, 254, 215, 171, 118,
  202, 130, 201, 125, 250, 89, 71, 240, 173, 212, 162, 175, 156, 164, 114, 192,
  183, 253, 147, 38, 54, 63, 247, 204, 52, 165, 229, 241, 113, 216, 49, 21,
  4, 199, 35, 195, 24, 150, 5, 154, 7, 18, 128, 226, 235, 39, 178, 117,
  9, 131, 44, 26, 27, 110, 90, 160, 82, 59, 214, 179, 41, 227, 47, 132,
  83, 209, 0, 237, 32, 252, 177, 91, 106, 203, 190, 57, 74, 76, 88, 207,
  208, 239, 170, 251, 67, 77, 51, 133, 69, 249, 2, 127, 80, 60, 159, 168,
  81, 163, 64, 143, 146, 157, 56, 245, 188, 182, 218, 33, 16, 255, 243, 210,
  205, 12, 19, 236, 95, 151, 68, 23, 196, 167, 126, 61, 100, 93, 25, 115,
  96, 129, 79, 220, 34, 42, 144, 136, 70, 238, 184, 20, 222, 94, 11, 219,
  224, 50, 58, 10, 73, 6, 36, 92, 194, 211, 172, 98, 145, 149, 228, 121,
  231, 200, 55, 109, 141, 213, 78, 169, 108, 86, 244, 234, 101, 122, 174, 8,
  186, 120, 37, 46, 28, 166, 180, 198, 232, 221, 116, 31, 75, 189, 139, 138,
  112, 62, 181, 102, 72, 3, 246, 14, 97, 53, 87, 185, 134, 193, 29, 158,
  225, 248, 152, 17, 105, 217, 142, 148, 155, 30, 135, 233, 206, 85, 40, 223,
  140, 161, 137, 13, 191, 230, 66, 104, 65, 153, 45, 15, 176, 84, 187, 22]

/-- The inverse AES substitution box. -/
def aesSi : Array Nat := #[82, 9, 106, 213, 48, 54, 165, 56, 191, 64, 163, 158, 129, 243, 215, 251,
  124, 227, 57, 130, 155, 47, 255, 135, 52, 142, 67, 68, 196, 222, 233, 203,
  84, 123, 148, 50, 166, 194, 35, 61, 238, 76, 149, 11, 66, 250, 195, 78,
  8, 46, 161, 102, 40, 217, 36, 178, 118, 91, 162, 73, 109, 139, 209, 37,
  114, 248, 246, 100, 134, 104, 152, 22, 212, 164, 92, 204, 93, 101, 182, 146,
  108, 112, 72, 80, 253, 237, 185, 218, 94, 21, 70, 87, 167, 141, 157, 132,
  144, 216, 171, 0, 140, 188, 211, 10, 247, 228, 88, 5, 184, 179, 69, 6,
  208, 44, 30, 143, 202, 63, 15, 2, 193, 175, 189, 3, 1, 19, 138, 107,
  58, 145, 17, 65, 79, 103, 220, 234, 151, 242, 207, 206, 240, 180, 230, 115,
  150, 172, 116, 34, 231, 173, 53, 133, 226, 249, 55, 232, 28, 117, 223, 110,
  71, 241, 26, 113, 29, 41, 197, 137, 111, 183, 98, 14, 170, 24, 190, 27,
  252, 86, 62, 75, 198, 210, 121, 32, 154, 219, 192, 254, 120, 205, 90, 244,
  31, 221, 168, 51, 136, 7, 199, 49, 177, 18, 16, 89, 39, 128, 236, 95,
  96, 81, 127, 169, 25, 181, 74, 13, 45, 229, 122, 159, 147, 201, 156, 239,
  160, 224, 59, 77, 174, 42, 245, 176, 200, 235, 187, 60, 131, 83, 153, 97,
  23, 43, 4, 126, 186, 119, 214, 38, 225, 105, 20, 99, 85, 33, 12, 125]

/-- Multiply by x in the AES field. -/
def aesX (a : Nat) : Nat := if a < 128 then a * 2 else (a * 2 % 256) ^^^ 27

/-- Multiply in the AES field by a constant below 16. -/
def aesMul (c a : Nat) : Nat :=
  let x1 := aesX a
  let x2 := aesX x1
  let x3 := aesX x2
  (if c % 2 = 1 then a else 0) ^^^ (if c / 2 % 2 = 1 then x1 else 0) ^^^ (if c / 4 % 2 = 1 then x2 else 0) ^^^
    (if c / 8 % 2 = 1 then x3 else 0)

/-- Key expansion, the newest word first; a word is four bytes. -/
def aesExpand (nk : Nat) (n i rcon : Nat) (l : List (List Nat)) : List (List Nat) :=
  match n with
  | 0 => l
  | k + 1 =>
    let prev := l.getD 0 []
    let sub := fun (w : List Nat) => w.map (fun x => aesS.getD x 0)
    let t := if i % nk = 0 then
        match sub (prev.drop 1 ++ prev.take 1) with
        | [] => []
        | x :: r => (x ^^^ rcon) :: r
      else if nk = 8 ∧ i % nk = 4 then sub prev else prev
    aesExpand nk k (i + 1) (if i % nk = 0 then aesX rcon else rcon) (List.zipWith (fun x y => x ^^^ y) (l.getD (nk - 1) []) t :: l)

/-- The round keys in order, 16 bytes each. -/
def aesKeys (key : Bytes) : List (List Nat) :=
  let nk := key.length / 4
  let w := (pieces 4 key).map (fun b => b.map (fun x => x.toNat))
  let all := (aesExpand nk (4 * (nk + 7) - nk) nk 1 w.reverse).reverse
  (List.range (nk + 7)).map (fun i => ((all.drop (4 * i)).take 4).flatten)

def aesAdd (s k : List Nat) : List Nat := List.zipWith (fun x y => x ^^^ y) s k

/-- Shift rows by `d` columns per row (1 forward, 3 inverse). -/
def aesShift (d : Nat) (s : List Nat) : List Nat :=
  (List.range 16).map (fun i => s.getD ((i + 4 * (d * (i % 4))) % 16) 0)

/-- Mix columns with the four constants of a row. -/
def aesMix (c0 c1 c2 c3 : Nat) (s : List Nat) : List Nat :=
  (List.range 16).map (fun i =>
    let col := i / 4 * 4
    let r := i % 4
    aesMul c0 (s.getD (col + r) 0) ^^^ aesMul c1 (s.getD (col + (r + 1) % 4) 0) ^^^
      aesMul c2 (s.getD (col + (r + 2) % 4) 0) ^^^ aesMul c3 (s.getD (col + (r + 3) % 4) 0))

def aesEncRounds (s : List Nat) (ks : List (List Nat)) : List Nat :=
  match ks with
  | [] => s
  | [k] => aesAdd (aesShift 1 (s.map (fun x => aesS.getD x 0))) k
  | k :: r => aesEncRounds (aesAdd (aesMix 2 3 1 1 (aesShift 1 (s.map (fun x => aesS.getD x 0)))) k) r

def aesDecRounds (s : List Nat) (ks : List (List Nat)) : List Nat :=
  match ks with
  | [] => s
  | [k] => aesAdd ((aesShift 3 s).map (fun x => aesSi.getD x 0)) k
  | k :: r => aesDecRounds (aesMix 14 11 13 9 (aesAdd ((aesShift 3 s).map (fun x => aesSi.getD x 0)) k)) r

def toBytesN (l : List Nat) : Bytes := l.map (fun x => BitVec.ofNat 8 x)

def aesEnc (key : Bytes) (b : Bytes) : Bytes :=
  match aesKeys key with
  | [] => b
  | k :: r => toBytesN (aesEncRounds (aesAdd (b.map (fun x => x.toNat)) k) r)

def aesDec (key : Bytes) (b : Bytes) : Bytes :=
  match (aesKeys key).reverse with
  | [] => b
  | k :: r => toBytesN (aesDecRounds (aesAdd (b.map (fun x => x.toNat)) k) r)

/-! ## DES and TDES (NIST SP 800-67) -/

/-- Initial permutation. -/
def desIP : Array Nat := #[58, 50, 42, 34, 26, 18, 10, 2, 60, 52, 44, 36, 28, 20, 12, 4,
  62, 54, 46, 38, 30, 22, 14, 6, 64, 56, 48, 40, 32, 24, 16, 8,
  57, 49, 41, 33, 25, 17, 9, 1, 59, 51, 43, 35, 27, 19, 11, 3,
  61, 53, 45, 37, 29, 21, 13, 5, 63, 55, 47, 39, 31, 23, 15, 7]

/-- Final permutation. -/
def desFP : Array Nat := #[40, 8, 48, 16, 56, 24, 64, 32, 39, 7, 47, 15, 55, 23, 63, 31,
  38, 6, 46, 14, 54, 22, 62, 30, 37, 5, 45, 13, 53, 21, 61, 29,
  36, 4, 44, 12, 52, 20, 60, 28, 35, 3, 43, 11, 51, 19, 59, 27,
  34, 2, 42, 10, 50, 18, 58, 26, 33, 1, 41, 9, 49, 17, 57, 25]

/-- Expansion. -/
def desE : Array Nat := #[32, 1, 2, 3, 4, 5, 4, 5, 6, 7, 8, 9, 8, 9, 10, 11,
  12, 13, 12, 13, 14, 15, 16, 17, 16, 17, 18, 19, 20, 21, 20, 21,
  22, 23, 24, 25, 24, 25, 26, 27, 28, 29, 28, 29, 30, 31, 32, 1]

/-- Round permutation. -/
def desP : Array Nat := #[16, 7, 20, 21, 29, 12, 28, 17, 1, 15, 23, 26, 5, 18, 31, 10,
  2, 8, 24, 14, 32, 27, 3, 9, 19, 13, 30, 6, 22, 11, 4, 25]

/-- Key permutation 1. -/
def desPC1 : Array Nat := #[57, 49, 41, 33, 25, 17, 9, 1, 58, 50, 42, 34, 26, 18, 10, 2,
  59, 51, 43, 35, 27, 19, 11, 3, 60, 52, 44, 36, 63, 55, 47, 39,
  31, 23, 15, 7, 62, 54, 46, 38, 30, 22, 14, 6, 61, 53, 45, 37,
  29, 21, 13, 5, 28, 20, 12, 4]

/-- Key permutation 2. -/
def desPC2 : Array Nat := #[14, 17, 11, 24, 1, 5, 3, 28, 15, 6, 21, 10, 23, 19, 12, 4,
  26, 8, 16, 7, 27, 20, 13, 2, 41, 52, 31, 37, 47, 55, 30, 40,
  51, 45, 33, 48, 44, 49, 39, 56, 34, 53, 46, 42, 50, 36, 29, 32]

/-- The eight substitution boxes, 64 entries each, row by row. -/
def desS : Array Nat := #[14, 4, 13, 1, 2, 15, 11, 8, 3, 10, 6, 12, 5, 9, 0, 7,
  0, 15, 7, 4, 14, 2, 13, 1, 10, 6, 12, 11, 9, 5, 3, 8,
  4, 1, 14, 8, 13, 6, 2, 11, 15, 12, 9, 7, 3, 10, 5, 0,
  15, 12, 8, 2, 4, 9, 1, 7, 5, 11, 3, 14, 10, 0, 6, 13,
  15, 1, 8, 14, 6, 11, 3, 4, 9, 7, 2, 13, 12, 0, 5, 10,
  3, 13, 4, 7, 15, 2, 8, 14, 12, 0, 1, 10, 6, 9, 11, 5,
  0, 14, 7, 11, 10, 4, 13, 1, 5, 8, 12, 6, 9, 3, 2, 15,
  13, 8, 10, 1, 3, 15, 4, 2, 11, 6, 7, 12, 0, 5, 14, 9,
  10, 0, 9, 14, 6, 3, 15, 5, 1, 13, 12, 7, 11, 4, 2, 8,
  13, 7, 0, 9, 3, 4, 6, 10, 2, 8, 5, 14, 12, 11, 15, 1,
  13, 6, 4, 9, 8, 15, 3, 0, 11, 1, 2, 12, 5, 10, 14, 7,
  1, 10, 13, 0, 6, 9, 8, 7, 4, 15, 14, 3, 11, 5, 2, 12,
  7, 13, 14, 3, 0, 6, 9, 10, 1, 2, 8, 5, 11, 12, 4, 15,
  13, 8, 11, 5, 6, 15, 0, 3, 4, 7, 2, 12, 1, 10, 14, 9,
  10, 6, 9, 0, 12, 11, 7, 13, 15, 1, 3, 14, 5, 2, 8, 4,
  3, 15, 0, 6, 10, 1, 13, 8, 9, 4, 5, 11, 12, 7, 2, 14,
  2, 12, 4, 1, 7, 10, 11, 6, 8, 5, 3, 15, 13, 0, 14, 9,
  14, 11, 2, 12, 4, 7, 13, 1, 5, 0, 15, 10, 3, 9, 8, 6,
  4, 2, 1, 11, 10, 13, 7, 8, 15, 9, 12, 5, 6, 3, 0, 14,
  11, 8, 12, 7, 1, 14, 2, 13, 6, 15, 0, 9, 10, 4, 5, 3,
  12, 1, 10, 15, 9, 2, 6, 8, 0, 13, 3, 4, 14, 7, 5, 11,
  10, 15, 4, 2, 7, 12, 9, 5, 6, 1, 13, 14, 0, 11, 3, 8,
  9, 14, 15, 5, 2, 8, 12, 3, 7, 0, 4, 10, 1, 13, 11, 6,
  4, 3, 2, 12, 9, 5, 15, 10, 11, 14, 1, 7, 6, 0, 8, 13,
  4, 11, 2, 14, 15, 0, 8, 13, 3, 12, 9, 7, 5, 10, 6, 1,
  13, 0, 11, 7, 4, 9, 1, 10, 14, 3, 5, 12, 2, 15, 8, 6,
  1, 4, 11, 13, 12, 3, 7, 14, 10, 15, 6, 8, 0, 5, 9, 2,
  6, 11, 13, 8, 1, 4, 10, 7, 9, 5, 0, 15, 14, 2, 3, 12,
  13, 2, 8, 4, 6, 15, 11, 1, 10, 9, 3, 14, 5, 0, 12, 7,
  1, 15, 13, 8, 10, 3, 7, 4, 12, 5, 6, 11, 0, 14, 9, 2,
  7, 11, 4, 1, 9, 12, 14, 2, 0, 6, 10, 13, 15, 3, 5, 8,
  2, 1, 14, 7, 4, 10, 8, 13, 15, 12, 9, 0, 3, 5, 6, 11]

/-- Permute the bits of a `w`-bit number, bit 1 the most significant. -/
def permBits (w : Nat) (t : Array Nat) (x : Nat) : Nat :=
  t.foldl (fun a i => a * 2 + b2n (x.testBit (w - i))) 0

def rotl28 (n x : Nat) : Nat := (x * 2 ^ n % 268435456) + x / 2 ^ (28 - n)

/-- The 16 round keys. -/
def desKeys (key : Nat) : List Nat :=
  let k := permBits 64 desPC1 key
  let sh := [1, 1, 2, 2, 2, 2, 2, 2, 1, 2, 2, 2, 2, 2, 2, 1]
  ((sh.foldl (fun (acc : (Nat × Nat) × List Nat) n =>
      let c := rotl28 n acc.1.1
      let d := rotl28 n acc.1.2
      ((c, d), permBits 56 desPC2 (c * 268435456 + d) :: acc.2)) ((k / 268435456, k % 268435456), [])).2).reverse

def desF (r k : Nat) : Nat :=
  let x := permBits 32 desE r ^^^ k
  permBits 32 desP ((List.range 8).foldl (fun a i =>
    let v := x / 2 ^ (42 - 6 * i) % 64
    a * 16 + desS.getD (64 * i + (v / 32 * 2 + v % 2) * 16 + v / 2 % 16) 0) 0)

def desRun (ks : List Nat) (b : Nat) : Nat :=
  let x := permBits 64 desIP b
  let r := ks.foldl (fun (lr : Nat × Nat) k => (lr.2, lr.1 ^^^ desF lr.2 k)) (x / 4294967296, x % 4294967296)
  permBits 64 desFP (r.2 * 4294967296 + r.1)

/-- Single DES on 8 bytes. -/
def desEnc (key b : Bytes) : Bytes := beBytes 8 (desRun (desKeys (beNat key)) (beNat b))
def desDec (key b : Bytes) : Bytes := beBytes 8 (desRun (desKeys (beNat key)).reverse (beNat b))

/-- The third key of a TDES key: K1 again for a two-key one. -/
def tdesK3 (key : Bytes) : Bytes := if key.length ≤ 16 then key.take 8 else (key.drop 16).take 8

def tdesEnc (key b : Bytes) : Bytes := desEnc (tdesK3 key) (desDec ((key.drop 8).take 8) (desEnc (key.take 8) b))
def tdesDec (key b : Bytes) : Bytes := desDec (key.take 8) (desEnc ((key.drop 8).take 8) (desDec (tdesK3 key) b))

/-! ## SM4 (GB/T 32907) -/

/-- The SM4 substitution box. -/
def sm4S : Array Nat := #[214, 144, 233, 254, 204, 225, 61, 183, 22, 182, 20, 194, 40, 251, 44, 5,
  43, 103, 154, 118, 42, 190, 4, 195, 170, 68, 19, 38, 73, 134, 6, 153,
  156, 66, 80, 244, 145, 239, 152, 122, 51, 84, 11, 67, 237, 207, 172, 98,
  228, 179, 28, 169, 201, 8, 232, 149, 128, 223, 148, 250, 117, 143, 63, 166,
  71, 7, 167, 252, 243, 115, 23, 186, 131, 89, 60, 25, 230, 133, 79, 168,
  104, 107, 129, 178, 113, 100, 218, 139, 248, 235, 15, 75, 112, 86, 157, 53,
  30, 36, 14, 94, 99, 88, 209, 162, 37, 34, 124, 59, 1, 33, 120, 135,
  212, 0, 70, 87, 159, 211, 39, 82, 76, 54, 2, 231, 160, 196, 200, 158,
  234, 191, 138, 210, 64, 199, 56, 181, 163, 247, 242, 206, 249, 97, 21, 161,
  224, 174, 93, 164, 155, 52, 26, 85, 173, 147, 50, 48, 245, 140, 177, 227,
  29, 246, 226, 46, 130, 102, 202, 96, 192, 41, 35, 171, 13, 83, 78, 111,
  213, 219, 55, 69, 222, 253, 142, 47, 3, 255, 106, 114, 109, 108, 91, 81,
  141, 27, 175, 146, 187, 221, 188, 127, 17, 217, 92, 65, 31, 16, 90, 216,
  10, 193, 49, 136, 165, 205, 123, 189, 45, 116, 208, 18, 184, 229, 180, 176,
  137, 105, 151, 74, 12, 150, 119, 126, 101, 185, 241, 9, 197, 110, 198, 132,
  24, 240, 125, 236, 58, 220, 77, 32, 121, 238, 95, 62, 215, 203, 57, 72]

def sm4Tau (x : BitVec 32) : BitVec 32 :=
  BitVec.ofNat 32 (beNat ((beBytes 4 x.toNat).map (fun b => BitVec.ofNat 8 (sm4S.getD b.toNat 0))))

def sm4T (x : BitVec 32) : BitVec 32 :=
  let b := sm4Tau x
  b ^^^ b.rotateLeft 2 ^^^ b.rotateLeft 10 ^^^ b.rotateLeft 18 ^^^ b.rotateLeft 24

def sm4Tk (x : BitVec 32) : BitVec 32 :=
  let b := sm4Tau x
  b ^^^ b.rotateLeft 13 ^^^ b.rotateLeft 23

/-- One step of the four-word register, oldest word first, with the word function `f` and the round word `k`. -/
def sm4Step (f : BitVec 32 → BitVec 32) (q : List (BitVec 32)) (k : BitVec 32) : List (BitVec 32) :=
  match q with
  | [a, b, c, d] => [b, c, d, a ^^^ f (b ^^^ c ^^^ d ^^^ k)]
  | _ => q

def sm4CK : List (BitVec 32) :=
  (List.range 32).map (fun i => BitVec.ofNat 32 (beNat ((List.range 4).map (fun j => BitVec.ofNat 8 ((4 * i + j) * 7)))))

def sm4Words (b : Bytes) : List (BitVec 32) := (pieces 4 b).map (fun x => BitVec.ofNat 32 (beNat x))

def sm4Keys (key : Bytes) : List (BitVec 32) :=
  let fk : List (BitVec 32) := [0xA3B1BAC6, 0x56AA3350, 0x677D9197, 0xB27022DC]
  ((sm4CK.foldl (fun (acc : List (BitVec 32) × List (BitVec 32)) ck =>
      let q := sm4Step sm4Tk acc.1 ck
      (q, q.getD 3 0 :: acc.2)) (List.zipWith (fun x y => x ^^^ y) (sm4Words key) fk, [])).2).reverse

def sm4Run (ks : List (BitVec 32)) (b : Bytes) : Bytes :=
  ((ks.foldl (sm4Step sm4T) (sm4Words b)).reverse).flatMap (fun x => beBytes 4 x.toNat)

/-! ## The lens (02 R29, Table 02.2, Table 02.3) -/

/-- Block length of an algorithm in bytes (02 Table 02.2; codes of 04 Table 04.2). -/
def algBlock (alg : Nat) : Nat := if alg = 4 ∨ alg = 5 then 8 else 16

/-- Encrypt one block: the forward cipher of algorithm code `alg`. -/
def encBlock (alg : Nat) (key b : Bytes) : Bytes :=
  if alg = 4 ∨ alg = 5 then tdesEnc key b
  else if alg = 6 then sm4Run (sm4Keys (key.take 16)) b
  else aesEnc (key.take (if alg = 1 then 16 else if alg = 2 then 24 else 32)) b

/-- Decrypt one block: the inverse cipher. -/
def decBlock (alg : Nat) (key b : Bytes) : Bytes :=
  if alg = 4 ∨ alg = 5 then tdesDec key b
  else if alg = 6 then sm4Run (sm4Keys (key.take 16)).reverse b
  else aesDec (key.take (if alg = 1 then 16 else if alg = 2 then 24 else 32)) b

/-- A raw block operation in a lens direction: 0 F, 1 I, 2 F1, 3 N (02 Table 02.3). -/
def lensBytes (alg dir : Nat) (key b : Bytes) : Bytes :=
  match dir with
  | 0 => encBlock alg key b
  | 1 => decBlock alg key b
  | 2 => desEnc (key.take 8) b
  | _ => xorBytes (desEnc (key.take 8) (xorBytes b ((key.drop 8).take 8))) ((key.drop 8).take 8)

/-- A lens operation on a block register: TDES blocks occupy bits [63:0] and bits [127:64] of the result are zero. -/
def lensOp (alg dir : Nat) (key : Bytes) (x : Block) : Block :=
  if algBlock alg = 8 then BitVec.ofNat 128 (beNat (lensBytes alg dir key (beBytes 8 (x.toNat % 2 ^ 64))))
  else BitVec.ofNat 128 (beNat (lensBytes alg dir key (blockBytes x)))

/-! ## GF(2^128) (02 R47, 03 R78) -/

/-- Multiply by x in the GCM bit order. -/
def gcmX (v : Nat) : Nat := if v % 2 = 1 then (v / 2) ^^^ (0xE1 * 2 ^ 120) else v / 2

/-- Multiply by x in the CMAC bit order. -/
def cmacX (v : Nat) : Nat := if v < 2 ^ 127 then v * 2 else (v * 2 % 2 ^ 128) ^^^ 0x87

def gfLoop (n : Nat) (x v z : Nat) : Nat :=
  match n with
  | 0 => z
  | k + 1 => gfLoop k x (gcmX v) (if x.testBit k then z ^^^ v else z)

/-- The product of two blocks in the GCM field and bit order. -/
def gfMul (a b : Block) : Block := BitVec.ofNat 128 (gfLoop 128 a.toNat b.toNat 0)

/-- One fold (03 R78): A ← (A ⊕ X) · H. -/
def ghashFold (h a x : Block) : Block := gfMul (a ^^^ x) h

/-- Fold a byte string, zero-filled to whole blocks. -/
def ghashBytes (h a : Block) (d : Bytes) : Block := (pieces 16 d).foldl (fun a b => ghashFold h a (blockOf b)) a

/-! ## Modes (03 Table 03.11; NIST SP 800-38A, 38B, 38D, 38E, 38G) -/

def ecbEnc (alg : Nat) (key d : Bytes) : Bytes := (pieces (algBlock alg) d).flatMap (encBlock alg key)
def ecbDec (alg : Nat) (key d : Bytes) : Bytes := (pieces (algBlock alg) d).flatMap (decBlock alg key)

def cbcEnc (alg : Nat) (key iv d : Bytes) : Bytes :=
  ((pieces (algBlock alg) d).foldl (fun (acc : Bytes × Bytes) b =>
    let c := encBlock alg key (xorBytes b acc.1)
    (c, acc.2 ++ c)) (iv, [])).2

def cbcDec (alg : Nat) (key iv d : Bytes) : Bytes :=
  ((pieces (algBlock alg) d).foldl (fun (acc : Bytes × Bytes) b =>
    (b, acc.2 ++ xorBytes (decBlock alg key b) acc.1)) (iv, [])).2

/-- The counter block `n` further on: its last 4 bytes count modulo 2^32 (07 R189). -/
def ctrAdd (bl : Nat) (c : Bytes) (n : Nat) : Bytes := c.take (bl - 4) ++ beBytes 4 (beNat (c.drop (bl - 4)) + n)

def ctrCrypt (alg : Nat) (key ctr d : Bytes) : Bytes :=
  let bl := algBlock alg
  let ps := pieces bl d
  (ps.zip (List.range ps.length)).flatMap (fun e => xorBytes e.1 (encBlock alg key (ctrAdd bl ctr e.2)))

/-- GCM counter blocks: the last 4 bytes count modulo 2^32. -/
def gctr (alg : Nat) (key j d : Bytes) : Bytes :=
  let ps := pieces 16 d
  (ps.zip (List.range ps.length)).flatMap (fun e =>
    xorBytes e.1 (encBlock alg key (j.take 12 ++ beBytes 4 (beNat (j.drop 12) + e.2))))

/-- J0 of an IV: 96-bit IVs directly, others through GHASH. -/
def gcmJ0 (alg : Nat) (key iv : Bytes) : Bytes :=
  if iv.length = 12 then iv ++ [0, 0, 0, 1]
  else
    let h := blockOf (encBlock alg key (List.replicate 16 0))
    blockBytes (ghashFold h (ghashBytes h 0 iv) (BitVec.ofNat 128 (8 * iv.length)))

/-- The GCM tag of associated data and ciphertext. -/
def gcmTag (alg : Nat) (key iv aad ct : Bytes) : Bytes :=
  let h := blockOf (encBlock alg key (List.replicate 16 0))
  let a := ghashBytes h (ghashBytes h 0 aad) ct
  let s := ghashFold h a (BitVec.ofNat 128 (8 * aad.length * 2 ^ 64 + 8 * ct.length))
  xorBytes (blockBytes s) (encBlock alg key (gcmJ0 alg key iv))

def gcmInc (j : Bytes) : Bytes := j.take 12 ++ beBytes 4 (beNat (j.drop 12) + 1)

/-- GCM keystream encipherment, either direction. -/
def gcmCrypt (alg : Nat) (key iv d : Bytes) : Bytes := gctr alg key (gcmInc (gcmJ0 alg key iv)) d

/-- CMAC (SP 800-38B) for 8- and 16-byte blocks. -/
def cmac (alg : Nat) (key m : Bytes) : Bytes :=
  let bl := algBlock alg
  let dbl := fun (b : Bytes) => let v := beNat b
    if v < 2 ^ (8 * bl - 1) then beBytes bl (v * 2) else beBytes bl ((v * 2 % 2 ^ (8 * bl)) ^^^ (if bl = 8 then 0x1B else 0x87))
  let k1 := dbl (encBlock alg key (List.replicate bl 0))
  let ps := pieces bl m
  let lastP := ps.getLast?.getD []
  let whole := decide (m.length ≠ 0) && decide (m.length % bl = 0)
  let last := if whole then xorBytes lastP k1 else xorBytes (fitBytes bl (lastP.take (m.length % bl) ++ [0x80])) (dbl k1)
  let front := if m.length = 0 then [] else ps.dropLast
  encBlock alg key (xorBytes (front.foldl (fun c b => encBlock alg key (xorBytes b c)) (List.replicate bl 0)) last)

/-- CBC-MAC with zero IV over whole blocks. -/
def cbcMac (alg : Nat) (key m : Bytes) : Bytes :=
  (pieces (algBlock alg) m).foldl (fun c b => encBlock alg key (xorBytes b c)) (List.replicate (algBlock alg) 0)

/-- ISO 9797-1 algorithm 3 (retail MAC) over whole 8-byte blocks: F1 chain, final F (02 Table 02.3). -/
def retailMac (key m : Bytes) : Bytes :=
  let ps := pieces 8 m
  let c := ps.dropLast.foldl (fun c b => desEnc (key.take 8) (xorBytes b c)) (List.replicate 8 0)
  tdesEnc key (xorBytes (ps.getLast?.getD (List.replicate 8 0)) c)

/-- ISO 9797-1 algorithm 1 with single DES operations under the two-key TDES key. -/
def isoMac1 (alg : Nat) (key m : Bytes) : Bytes := cbcMac alg key m

/-- Multiply an XTS tweak by x (little-endian bytes). -/
def xtsX (t : Bytes) : Bytes :=
  let v := leNat t
  leBytes 16 (if v < 2 ^ 127 then v * 2 else (v * 2 % 2 ^ 128) ^^^ 0x87)

/-- XTS over one data unit of at least one block, with ciphertext stealing (SP 800-38E). -/
def xtsLoop (enc : Bool) (alg : Nat) (k1 : Bytes) (ps : List Bytes) (t acc : Bytes) : Bytes :=
  let f := fun (t b : Bytes) => xorBytes (if enc then encBlock alg k1 (xorBytes b t) else decBlock alg k1 (xorBytes b t)) t
  match ps with
  | [] => acc
  | [b] => acc ++ f t b
  | [b, c] =>
    if c.length = 16 then acc ++ f t b ++ f (xtsX t) c
    else
      let first := if enc then t else xtsX t
      let second := if enc then xtsX t else t
      let cc := f first b
      acc ++ f second (c ++ cc.drop c.length) ++ cc.take c.length
  | b :: r => xtsLoop enc alg k1 r (xtsX t) (acc ++ f t b)

def xtsCrypt (enc : Bool) (alg : Nat) (k1 k2 tweak d : Bytes) : Bytes :=
  xtsLoop enc alg k1 (pieces 16 d) (encBlock alg k2 (fitBytes 16 tweak)) []

/-! ## FF1 (SP 800-38G) -/

/-- The number that numerals spell in a radix, most significant first. -/
def numRadix (radix : Nat) (l : List Nat) : Nat := l.foldl (fun a d => a * radix + d) 0

/-- `m` numerals of a number, most significant first. -/
def strRadix (radix m x : Nat) : List Nat :=
  match m with
  | 0 => []
  | k + 1 => strRadix radix k (x / radix) ++ [x % radix]

/-- The bits a number takes. -/
def bitLen (fuel n : Nat) : Nat :=
  match fuel with
  | 0 => 0
  | f + 1 => if n = 0 then 0 else 1 + bitLen f (n / 2)

def ff1Round (alg : Nat) (key : Bytes) (radix n t : Nat) (tweak : Bytes) (i : Nat) (b : List Nat) : Nat :=
  let u := n / 2
  let v := n - u
  let bb := (bitLen (8 * n + 8) (radix ^ v - 1) + 7) / 8
  let d := 4 * ((bb + 3) / 4) + 4
  let p := [1, 2, 1] ++ beBytes 3 radix ++ [10, BitVec.ofNat 8 u] ++ beBytes 4 n ++ beBytes 4 t
  let z := (16 - (t + bb + 1) % 16) % 16
  let q := tweak ++ List.replicate z 0 ++ [BitVec.ofNat 8 i] ++ beBytes bb (numRadix radix b)
  let r := cbcMac alg key (p ++ q)
  let s := r ++ (List.range ((d + 15) / 16 - 1)).flatMap (fun j => encBlock alg key (xorBytes r (beBytes 16 (j + 1))))
  beNat (s.take d)

def ff1Enc (alg : Nat) (key : Bytes) (radix : Nat) (tweak : Bytes) (x : List Nat) : List Nat :=
  let n := x.length
  let u := n / 2
  let r := (List.range 10).foldl (fun (ab : List Nat × List Nat) i =>
    let m := if i % 2 = 0 then u else n - u
    let y := ff1Round alg key radix n tweak.length tweak i ab.2
    (ab.2, strRadix radix m ((numRadix radix ab.1 + y) % radix ^ m))) (x.take u, x.drop u)
  r.1 ++ r.2

def ff1Dec (alg : Nat) (key : Bytes) (radix : Nat) (tweak : Bytes) (x : List Nat) : List Nat :=
  let n := x.length
  let u := n / 2
  let r := (List.range 10).foldl (fun (ab : List Nat × List Nat) k =>
    let i := 9 - k
    let m := if i % 2 = 0 then u else n - u
    let y := ff1Round alg key radix n tweak.length tweak i ab.1
    (strRadix radix m ((numRadix radix ab.2 + radix ^ m - y % radix ^ m) % radix ^ m), ab.1)) (x.take u, x.drop u)
  r.1 ++ r.2

end Sys2Proof.Machine
end

