-- ==== Sys2Proof/Machine/RingOps.lean ====
section
/-! DEFINITION. Machine/RingOps.lean: frames of the Veinad ring and the mirror stream (13). Port 0 is east, port 1 is west;
direction F leaves east and direction B leaves west. -/

namespace Sys2Proof.Machine

open Sys2Proof

/-- Frame kinds (13 Table 13.6). -/
def rkAck : Nat := 0x01
def rkNak : Nat := 0x02
def rkMirror : Nat := 0x10
def rkMirrorAck : Nat := 0x11
def rkLeaseReq : Nat := 0x20
def rkLeaseGrant : Nat := 0x21
def rkHolderLost : Nat := 0x22
def rkTakeover : Nat := 0x30
def rkJoin : Nat := 0x40
def rkMembers : Nat := 0x41
def rkCopyData : Nat := 0x50
def rkCopySeal : Nat := 0x51
def rkCopySealAck : Nat := 0x52
def rkCopyAbort : Nat := 0x53
def rkFocus : Nat := 0x60
def rkRecordReq : Nat := 0x70
def rkRecordData : Nat := 0x71

def setRing (s : State) (r : RingSt) : State := { s with ring := r }
def State.rlink (s : State) (p : Nat) : RLink := tget RLink.zero s.ring.links p
def setRLink (s : State) (p : Nat) (l : RLink) : State :=
  setRing s { s.ring with links := tset RLink.zero s.ring.links p l }

/-- Ring states (13 Table 13.10). -/
def State.ringState (s : State) : Nat := s.get F.VR_STATE_STATE
def State.isMember (s : State) : Bool := decide (s.ringState = 2)
def State.nodeId (s : State) : Nat := s.get F.VR_STATE_NODE_ID
def State.succ (s : State) : Nat := s.get F.VR_STATE_SUCC
def State.pred (s : State) : Nat := s.get F.VR_STATE_PRED

/-- Are the mode 2 and 3 owners of a fenced node stopped (13 R345)? -/
def State.fenced (s : State) (o : Nat) : Bool := decide (s.ringState = 3) && decide (2 ≤ (tget Owner.absent s.own o).mode)

/-- Does the node have a successor, which is its holder? -/
def State.hasSucc (s : State) : Bool := decide (s.succ ≠ s.nodeId)

/-- A frame header without its sequence number (13 Table 13.5): kind, version in use, source, destination, bit 0 forward, hop
count, payload length. -/
def ringHead (s : State) (kind src dst : Nat) (fwd : Bool) (hop len : Nat) : Bytes :=
  beBytes 1 kind ++ beBytes 1 (s.get F.VR_VERSION_IN_USE) ++ beBytes 1 src ++ beBytes 1 dst ++ beBytes 1 (b2n fwd) ++
    beBytes 1 hop ++ beBytes 2 len

/-- A frame as it is sent: header, ciphertext, tag and CRC-32C (13 Frames). -/
def ringBytes (key head : Bytes) (seq : Nat) (payload : Bytes) : Bytes :=
  let h := head ++ beBytes 8 seq
  let iv := beBytes 4 1 ++ beBytes 8 seq
  let c := gcmCrypt 3 key iv payload
  let x := h ++ c ++ gcmTag 3 key iv h c
  x ++ beBytes 4 (crc32c seq x)

/-- The key that follows a link key (13 R336). -/
def linkRekey (k : Bytes) : Bytes := kdf k "PH64-LREKEY" []

/-- Bytes held in a retry buffer. -/
def retryBytes (l : RLink) : Nat := (l.retry.map (fun f => f.bytes.length)).foldl (fun a b => a + b) 0

/-- Send one frame on a port: it takes the next sequence number and a place in the retry buffer, or waits while the buffer of
256 KiB is full (13 R337). A port that is not UP sends nothing. -/
def linkSend (s : State) (p : Nat) (head payload : Bytes) : State :=
  let l := s.rlink p
  let l := if l.rekeyAt = some l.txSeq then { l with txKey := linkRekey l.txKey, rekeyAt := none } else l
  if !l.auth then s
  else
    let b := ringBytes l.txKey head l.txSeq payload
    if l.queue ≠ [] ∨ 262144 < retryBytes l + b.length then setRLink s p { l with queue := l.queue ++ [head ++ payload] }
    else
      let s := setRLink s p { l with txSeq := l.txSeq + 1, retry := l.retry ++ [⟨l.txSeq, byteAt head 0, b, 0⟩] }
      { s with sent := s.sent ++ [.ring (decide (p = 0)) (byteAt head 0) b] }

/-- Send the frames that waited, as far as the buffer has room. -/
def linkDrain (fuel : Nat) (s : State) (p : Nat) : State :=
  match fuel with
  | 0 => s
  | n + 1 =>
    let l := s.rlink p
    match l.queue with
    | [] => s
    | q :: r =>
      if 262144 < retryBytes l + q.length + 28 then s
      else linkDrain n (let s := linkSend (setRLink s p { l with queue := [] }) p (q.take 8) (q.drop 8)
                        setRLink s p { s.rlink p with queue := r }) p

/-- The largest frame payload of the version in use (13 Frames, Table 13.9). -/
def State.ringMax (s : State) : Nat := if s.get F.VR_VERSION_IN_USE = 1 then 1024 else 4096

/-- Send a message of this node on a port. -/
def ringSend (s : State) (p kind dst : Nat) (content : Bytes) : State :=
  let pay := Config.ringPayload kind content
  linkSend s p (ringHead s kind s.nodeId dst (decide (dst = 255)) 0 pay.length) pay

/-- Send a message both ways. -/
def ringBoth (s : State) (kind dst : Nat) (content : Bytes) : State := ringSend (ringSend s 0 kind dst content) 1 kind dst content

/-! ## Receiving frames (13 R337) -/

/-- A frame of the link itself, to the neighbour. -/
def linkMsg (s : State) (p kind : Nat) (content : Bytes) : State :=
  let pay := Config.ringPayload kind content
  linkSend s p (ringHead s kind s.nodeId (s.get F.VR_LINK_PEER p) false 0 pay.length) pay

/-- A good frame that is next in sequence is taken off its link: the sequence number moves on, the frame counts towards the next
LINK_ACK, and a key change named for this number happens (13 R336, R337). -/
def framed (h : RHead) (s : State) : State :=
  let l := s.rlink h.port.val
  let l := if l.rxRekeyAt = some l.rxSeq then { l with rxKey := linkRekey l.rxKey, rxRekeyAt := none } else l
  setRLink s h.port.val { l with rxSeq := l.rxSeq + 1, sinceAck := l.sinceAck + 1 }

/-- Take a frame off the link: a bad one, or one out of sequence, is discarded and answered with LINK_NAK. -/
def linkTake (s : State) (h : RHead) : Bool × State :=
  let l := s.rlink h.port.val
  if !l.auth then (false, s)
  else if !h.good ∨ h.seq ≠ l.rxSeq then (false, linkMsg s h.port.val rkNak (leBytes 8 l.rxSeq))
  else (true, framed h s)

/-- The frame goes on out of the other port, its hop count one higher (13 R337). -/
def forwarded (h : RHead) (kind : Nat) (content : Bytes) (s : State) : State :=
  let pay := Config.ringPayload kind content
  linkSend s (1 - h.port.val) (ringHead s kind h.src.val h.dst.val (decide (h.dst.val = 255)) (h.hop.val + 1) pay.length) pay

/-- A frame reaches the node: it forwards one for other nodes out of its other port, and acts on one for itself or for every
node. A frame that has come round to its source ends there. -/
def ringTake (s : State) (h : RHead) (kind : Nat) (content : Bytes) (act : State → State) : State :=
  match linkTake s h with
  | (false, s) => s
  | (true, s) =>
    if h.src.val = s.nodeId then s
    else
      let own := decide (h.dst.val = s.nodeId)
      let s := if own then s else forwarded h kind content s
      if own ∨ h.dst.val = 255 then act s else s

/-! ## The mirror stream (13 Mirroring) -/

/-- Kinds of mirror entries (13 Table 13.8). -/
def mkAcc : Nat := 0
def mkComp : Nat := 1
def mkRelease : Nat := 2
def mkRecord : Nat := 3
def mkBody : Nat := 4
def mkLease : Nat := 5
def mkOwner : Nat := 6
def mkCustody : Nat := 7
def mkQueue : Nat := 8

/-- The set that an owner's records lie in, by its home node: a taken-over set, or the node's own (13 R348). -/
def homeOf (s : State) (o : Nat) : Nat :=
  match s.ring.taken.find? (fun t => t.owners.contains o) with
  | some t => t.home
  | none => s.nodeId

/-- The home node of an index space. -/
def spaceHome (s : State) (sp : Nat) : Nat := if sp = 0 then s.nodeId else sp - 1

/-- The node, plus 1, that holds a sealed copy of a set. -/
def holderOf (s : State) (home : Nat) : Nat :=
  match s.ring.taken.find? (fun t => t.home == home) with
  | some t => t.holder
  | none => if home = s.nodeId then s.ring.holder else 0

/-- Is a copy of a set to the successor in progress (13 R350)? -/
def copying (s : State) (home : Nat) : Bool :=
  (decide (s.get F.VR_COPY_STATE = 1) || decide (s.get F.VR_COPY_STATE = 2)) &&
    decide (home = if s.ring.copySet = 0 then s.nodeId else s.ring.copySet - 1)

/-- Send one MIRROR entry, one entry a frame: set, mirror sequence number, kind, key, data. -/
def mirrorFrame (s : State) (dst home n kind key : Nat) (data : Bytes) : State :=
  ringSend s 0 rkMirror dst (leBytes 1 home ++ leBytes 8 n ++ leBytes 1 kind ++ leBytes 8 key ++ data)

/-- Stream one entry of a set to its holder, and behind the data of a copy epoch to the copy's target (13 R350, R353); the
sequence number it takes is `mseq` before the call. -/
def mirrorOut (s : State) (home kind key : Nat) (data : Bytes) : State :=
  let h := holderOf s home
  let c := copying s home
  if h = 0 ∧ !c then s
  else
    let n := s.ring.mseq
    let s := setRing s { s.ring with mseq := n + 1 }
    let s := if h = 0 then s else mirrorFrame s (h - 1) home n kind key data
    if c ∧ h ≠ s.get F.VR_COPY_TARGET + 1 then mirrorFrame s (s.get F.VR_COPY_TARGET) home n kind key data else s

end Sys2Proof.Machine
end

