-- ==== Sys2Proof/Machine/StoreBuffer.lean ====
section
/-! DEFINITION. Machine/StoreBuffer.lean: a facet's stores to shared memories and when they become visible (03 R74, R75). -/

namespace Sys2Proof.Machine

open Sys2Proof

/-- The target of a global address: its aperture unit, the Huxel region counting as HBM stack 0. -/
def targetOf (a : Nat) : Nat :=
  if a < 0x1600000000 then 0 else if a < 0x2000000000 then 1 else if a < 0x2100000000 then 3 else if a < 0x2200000000 then 4 else 2

/-- Make every store of a facet visible. -/
def drainAll (s : State) (p : Nat) : State :=
  let f := s.facet p
  let m := f.sb.foldl (fun m x => match x with
    | .store a d => memWrite m a d
    | .barrier => m) s.gmem
  if f.sb = [] then s else { s.setFacet p { f with sb := [] } with gmem := m }

/-- Let the oldest `n t` stores of each target become visible, in order, none past an FENCE.SS (03 R74.3, R75). -/
def drainSome (n : Nat → Nat) (l : List SbItem) (m : List Host.Cell) : List SbItem × List Host.Cell :=
  match l with
  | [] => ([], m)
  | .barrier :: r => (.barrier :: r, m)
  | .store a d :: r =>
    let t := targetOf a
    if 0 < n t then drainSome (fun x => if x = t then n t - 1 else n x) r (memWrite m a d)
    else
      let q := drainSome (fun x => if x = t then 0 else n x) r m
      (.store a d :: q.1, q.2)

/-- Some stores of a facet become visible: how many of each target is a free value. -/
def drainFree (s : State) (p : Nat) : State :=
  let f := s.facet p
  if f.sb = [] then s
  else
    let r := s.free
    let q := drainSome (fun t => (r.1 / 64 ^ t) % 64) f.sb r.2.gmem
    let l := match q.1 with
      | .barrier :: l => l
      | l => l
    { r.2.setFacet p { f with sb := l } with gmem := q.2 }

/-- Before any master's shared access some stores of every facet may have become visible (03 R74, R77). -/
def visible (s : State) : State := (List.range 72).foldl drainFree s

/-- A byte as the facet loads it: its own latest earlier store, else memory (03 R74.5). -/
def sbByte (l : List SbItem) (a : Nat) (d : Byte) : Byte :=
  l.foldl (fun acc x => match x with
    | .store b v => if b ≤ a ∧ a < b + v.length then v.getD (a - b) 0 else acc
    | .barrier => acc) d

end Sys2Proof.Machine
end

