-- ==== Sys2Proof/Machine/Work.lean ====
section
/-! DEFINITION. Machine/Work.lean: the end of a piece of work: what a facet clears (02 R27), how a command's status and
result reach its journal record and the host (03 R59, R60, R65), and where a key that was destroyed is wiped (04 R89). -/

namespace Sys2Proof.Machine

open Sys2Proof

/-! ## Status codes (07 Table 07.11) -/

def sOk : Nat := 0x0000
def sAlreadyDone : Nat := 0x0001
def sSquashed : Nat := 0x0002
def sMalformed : Nat := 0x0010
def sUnsupported : Nat := 0x0011
def sDenied : Nat := 0x0012
def sKeyAbsent : Nat := 0x0020
def sKeyUse : Nat := 0x0021
def sKeyPending : Nat := 0x0022
def sKeyExhausted : Nat := 0x0023
def sKeyPoisoned : Nat := 0x0024
def sKeyRetired : Nat := 0x0025
def sVerifyFail : Nat := 0x0030
def sLensFault : Nat := 0x0040
def sInvariant : Nat := 0x0041
def sEntropy : Nat := 0x0042
def sQuota : Nat := 0x0050
def sTakenOver : Nat := 0x0060
def sInternal : Nat := 0x00FF
/-- The values of Table 07.11; every other one is reserved, and is never written (07 R206). -/
def statusValues : List Nat :=
  [sOk, sAlreadyDone, sSquashed, sMalformed, sUnsupported, sDenied, sKeyAbsent, sKeyUse, sKeyPending, sKeyExhausted, sKeyPoisoned,
    sKeyRetired, sVerifyFail, sLensFault, sInvariant, sEntropy, sQuota, sTakenOver, sInternal]
/-- The status that a program leaves in g1: a reserved value is written as S_INTERNAL, which is how the host treats it (log entry 241). -/
def progStatus (v : Nat) : Nat := if statusValues.contains v then v else sInternal

/-! ## Facet registers and end-of-work clearing -/

/-- Show K in FCT_STATUS (02 Table 02.10). -/
def showK (s : State) (p : Nat) : State :=
  match (s.facet p).k with
  | none => (s.poke F.FCT_STATUS_K_VALID 0 p).poke F.FCT_STATUS_USE_CODE 0 p
  | some k => (s.poke F.FCT_STATUS_K_VALID 1 p).poke F.FCT_STATUS_USE_CODE k.use p

/-- Write K: the previous contents go, and the derivation buffer, H and the accumulator are cleared (02 R34). -/
def setK (s : State) (p : Nat) (k : Option KReg) : State :=
  showK (s.modFacet p (fun f => { f with k := k, deriv := 0, hsub := 0, acc := 0, kTouched := true })) p

/-- The owner window of the library region (03 Table 03.1). -/
def windowBase : Nat := 0xE000

/-- The data segments of a role's vendor entries, which stand in the vendor part of the library region one after another in the order of
their entry IDs (03 Table 03.1; log entry 214). -/
def libraryOf (s : State) (role : Nat) : Bytes := s.progs.flatMap (fun e => match e.2 with
  | some g => if g.entry.signer < 32768 ∧ g.roles.testBit role then g.data else []
  | none => [])

/-- A facet loads the entry set of a role from the program store (02 R51, R52 step 3; 18 R445). -/
def loadLibrary (s : State) (p role : Nat) : State :=
  s.modFacet p (fun f => { f with loc := memWrite (memZero f.loc 0 windowBase) 0 ((libraryOf s role).take windowBase) })

/-- Every facet in service loads the entry set of its role. -/
def loadSets (s : State) : State :=
  (List.range 72).foldl (fun s p => if s.is F.FCT_MAP_VALID p then loadLibrary s p (s.get F.FCT_MAP_ROLE p) else s) s

/-- End-of-work clearing (02 R27), and the zeroing of an owner window that the work loaded (03 R71). The work scratch, the buffers and
the work region go with it, so that no other work reads them (02 R26). -/
def clearFacet (f : Facet) : Facet :=
  { f with
    g := [], v := [], b := [], k := none, ldk := none, ldkFail := none, deriv := 0, hsub := 0, acc := 0, hash := none
    cvu := none, eq := false, c := false, auth := false, pinok := false, lens := [], seq := []
    lines := [], window := none, meets := []
    loc := memZero (if f.window.isSome then memZero f.loc windowBase 8192 else f.loc) 0x10000 0x30000
    pc := 0, calls := [], gate := none, gateFrom := none, gateDepth := 0, kTouched := false, entry := none, first := none, work := .none, owner := 0
    subject := none, squash := false, dma := none, cmdout := [], hsaved := [] }

/-! ## Journal lookups -/

/-- The record of a queue and ASEQ: its index and contents. -/
def jrFind (s : State) (ctx aseq : Nat) : Option (Nat × JRec) :=
  (s.jr.recs.findSome? (fun e => match e.2 with
    | some r => if r.ctx = ctx ∧ r.aseq = aseq then some (e.1, r) else none
    | none => none))

/-- The executing record of an owner's work tag whose completion half is not yet written. -/
def jrRunning (s : State) (owner tag : Nat) : Option (Nat × JRec) :=
  (s.jr.recs.findSome? (fun e => match e.2 with
    | some r => if r.owner = owner ∧ r.tag = tag ∧ r.st = .executing ∧ r.comp.isNone ∧ !r.answer then some (e.1, r) else none
    | none => none))

/-- Write a record. -/
def jrSet (s : State) (i : Nat) (r : Option JRec) : State := { s with jr := { s.jr with recs := tset none s.jr.recs i r } }

/-- Change a record. -/
def jrMod (s : State) (i : Nat) (f : JRec → JRec) : State :=
  match tget none s.jr.recs i with
  | some r => jrSet s i (some (f r))
  | none => s

/-- Little-endian fields of a submission (06 Table 06.9). -/
def subField (sub : Bytes) (off n : Nat) : Nat := leNat (sliceBytes sub off n)

/-- The function that owns a queue context (06 Table 06.7), as a function number. -/
def State.ctxFn (s : State) (ctx : Nat) : Nat :=
  s.get F.QP_ID_PORT ctx * 2048 + (if s.is F.QP_ID_KIND ctx then s.get F.QP_ID_VF ctx + 1 else 0)

/-- The acceptance half of a record at an address (06 Table 06.15). -/
def accHalf (r : JRec) (addr : Nat) : Bytes :=
  let b := leBytes 6 r.tag ++ leBytes 2 r.owner ++ leBytes 2 r.ctx ++ leBytes 1 r.mode ++ leBytes 1 r.flags ++
    leBytes 8 r.aseq ++ leBytes 6 r.sec ++ leBytes 4 r.ns ++ leBytes 2 r.opcode ++ leBytes 8 r.batch ++ fitBytes 12 r.digest ++
    leBytes 4 r.gap ++ leBytes 1 (b2n r.answer) ++ leBytes 3 (r.slot.getD 0xFFFFFF)
  b ++ leBytes 4 (crc32c addr b)

/-- The completion half of a record at an address. -/
def compHalf (r : JRec) (c : Comp) (addr : Nat) : Bytes :=
  let b := leBytes 8 r.aseq ++ leBytes 2 c.status ++ [0, 0] ++ leBytes 4 c.len ++ leBytes 6 c.sec ++ leBytes 4 c.ns ++ [0, 0] ++
    fitBytes 32 c.sha
  b ++ leBytes 4 (crc32c addr b)

/-- The device HBM address of a record of the own part (06 Journal records). -/
def jrAddr (i : Nat) : Nat := 0x340000000 + i * 512

/-- Stream a journal half of a mode 2 or 3 record to the holder, and note that the record waits for its acknowledgement (13
Table 13.8). -/
def mirrorHalf (s : State) (i : Nat) (comp : Bool) (data : Bytes) : State :=
  match tget none s.jr.recs i with
  | none => s
  | some r =>
    let h := homeOf s r.owner
    let s := if holderOf s h ≠ 0 then setRing s { s.ring with mwait := s.ring.mwait ++ [(s.ring.mseq, b2n comp, i, 0)] } else s
    mirrorOut s h (if comp then mkComp else mkAcc) i data

/-- Loads that no longer wait for a use of a counted record. -/
def dropLoads (s : State) (q : Loader → Bool) : State :=
  { s with ks := { s.ks with leaseWait := s.ks.leaseWait.filter (fun e => !(q e.1)) } }

/-- The lowest number not in use. -/
def lowestFree (fuel k : Nat) (used : Nat → Bool) : Nat :=
  match fuel with
  | 0 => k
  | n + 1 => if used k then lowestFree n (k + 1) used else k

/-! ## Versions of a program that swaps replaced (10 R291) -/

/-- Where the program store keeps an entry, one held for a swap, and one that a swap replaced: several can wait for their commands. -/
def progKey (signer id : Nat) : Nat := signer * 65536 + id
def heldKey (signer id : Nat) : Nat := 4294967296 + progKey signer id
def oldKey (n signer id : Nat) : Nat := 8589934592 * (n + 1) + progKey signer id
def oldPlace (s : State) (signer id : Nat) : Nat :=
  oldKey (lowestFree (s.progs.length + 1) 0 (fun n => (tget none s.progs (oldKey n signer id)).isSome)) signer id

/-- The entry IDs of a PROGRAM_SWAP. -/
def swapIds (p : Bytes) : List Nat := (List.range (byteAt p 0)).map (fun i => leNat (sliceBytes p (2 + 2 * i) 2))

/-- Does a replaced version still serve a command that was accepted before the swap and has not completed? -/
def oldNeeded (s : State) (g : Prog) : Bool :=
  s.jr.recs.any (fun e => e.2.any (fun r => r.comp.isNone && decide (r.owner + 32768 = g.entry.signer) &&
    decide (r.sec * 1000000000 + r.ns < g.swapped)))

/-- Replaced versions are removed when the last such command completes. -/
def progSettle (s : State) : State :=
  { s with progs := tmap none (fun k e => if 8589934592 ≤ k then e.filter (oldNeeded s) else e) s.progs }

/-- A reservation names the owner and work tag of the command. -/
def tagKey (owner tag : Nat) : Nat := owner * 281474976710656 + tag

/-- What a change made under a work tag recorded: in MRAM, or with a stream association in HBM (06 R159). -/
def State.changeOf (s : State) (owner tag : Nat) : Option (Nat × Bytes) :=
  (tget none s.jr.changes (tagKey owner tag)).or (tget none s.jr.soft (tagKey owner tag))

/-- A change of a stream association under a work tag, which goes with the association at a reset that clears HBM. -/
def noteSoft (s : State) (owner tag : Nat) : State :=
  { s with jr := { s.jr with soft := tset none s.jr.soft (tagKey owner tag) (some (sOk, [])) } }

/-- The challenges reserved to a work tag are closed when its command completes (05 R119). -/
def closeChallenges (s : State) (owner tag : Nat) : State :=
  { s with own := tmap Owner.absent (fun _ o =>
      { o with challenges := o.challenges.filter (fun c => c.tag != some (tagKey owner tag)) }) s.own }

/-- What a command that completes leaves behind: its challenges close and what the arrays found of its quorum goes (05 R119, R121). -/
def custodyEnd (s : State) (owner tag : Nat) : State :=
  let s := closeChallenges s owner tag
  { s with hx := { s.hx with verdicts := s.hx.verdicts.filter (fun v => !(decide (v.1 = owner) && decide (v.2.1 = tag))) } }

/-- Write the completion half of a record (06 R166): the length, the time, the digest of the result, and the result where
it is at most 256 bytes (06 R164). -/
def jrComplete (s : State) (i : Nat) (status len : Nat) (result : Bytes) : State :=
  let c : Comp := ⟨status, len, s.nowSec, s.nowNs, sha256 result⟩
  let s := jrMod s i (fun r => { r with
    comp := some c
    result := if result.length ≤ 256 then result else result.take 16
    held := decide (result.length ≤ 256), facet := 0, parked := false })
  match tget none s.jr.recs i with
  | some r =>
    let s := custodyEnd (progSettle (dropLoads s (fun l => decide (l = .cmd r.owner r.tag)))) r.owner r.tag
    if 2 ≤ r.mode then mirrorHalf s i true (compHalf r c (jrAddr i + 64) ++ result.take 256) else s
  | none => s

/-- What happens when a facet's work has ended: its history registers, R27, and the facet is idle. The cycles it spent, which the
model leaves free, come off the owner's dispatch deficit (14 R365). -/
def facetEnd (s : State) (p : Nat) : State :=
  let f := s.facet p
  let r := s.free
  let s := r.2
  let s := s.poke F.FCT_BUDGET_USED (r.1 % 65536) p
  let s := s.poke F.FCT_BUDGET_BUDGET (match f.first with
    | some e => e.budget
    | none => 0) p
  let s := s.add64 F.FCT_WORKS_LO 1 p
  let s := if s.get F.FCT_MAP_ROLE p = 1 then
      { s with own := tmod Owner.absent s.own f.owner (fun o => { o with deficit := o.deficit - ((r.1 % 65536 * 64 : Nat) : Int) }) }
    else s
  let s := s.setFacet p (clearFacet f)
  let s := ((s.poke F.FCT_WORK_KIND 0 p).poke F.FCT_WORK_OWNER 0 p).poke F.FCT_WORK_ENTRY 0 p
  let s := (s.poke F.FCT_STATUS_ENTRY_CLASS 0 p).poke F.FCT_STATUS_IDLE 1 p
  let s := { s with apt := { s.apt with slots := tset 0 s.apt.slots p 0 } }
  showK (dropLoads s (fun l => decide (l = .ldk p) || decide (l = .call p))) p

/-- FCT_ABANDON: the row of 03 Table 03.4, the owner and the first entry of the work a facet abandons. -/
def noteAbandon (s : State) (p row : Nat) : State :=
  let f := s.facet p
  let s := s.poke F.FCT_ABANDON_CAUSE row p
  let s := s.poke F.FCT_ABANDON_OWNER f.owner p
  s.poke F.FCT_ABANDON_ENTRY (match f.first with
    | some e => e.id
    | none => 0) p

/-- The write of a command's result to the host: by its facet, or by the port's DMA engine where it holds none. False where the aperture unit refuses it, and the command is then denied (15 R393). -/
def resultWrite (s : State) (r : JRec) (d : Bytes) : Bool × State :=
  let fn := s.ctxFn r.ctx
  let a := subField r.sub 36 8
  let w := if r.facet = 0 then dmaAccess s fn a d.length true else hostAccess s (r.facet - 1) fn a d.length true
  if w.1 then (true, hostSend w.2 fn (.host fn a d))
  else (false, if r.facet = 0 then w.2 else noteAbandon w.2 (r.facet - 1) 5)

/-- The end of a command: its status and result are noted, the bytes `wr` are written to the host (03 R59) once every store of
the command is visible (03 R60), and its journal record, when it runs from one, takes the completion half and frees its facet. -/
def finishWith (s : State) (owner tag status : Nat) (result wr : Bytes) : State :=
  let res := if status = sOk ∨ status = sVerifyFail then result else []
  let note := fun (s : State) (st : Nat) (res : Bytes) => { s with dones := s.dones ++ [⟨owner, tag, st, res⟩], out := res }
  match jrRunning s owner tag with
  | none => note s status res
  | some (i, r) =>
    let s := if r.facet = 0 then s else drainAll s (r.facet - 1)
    let w := if res = [] ∨ r.flr then (true, s) else resultWrite s r wr
    let st := if w.1 then status else sDenied
    let res := if w.1 then res else []
    let s := jrComplete (note w.2 st res) i st res.length res
    if r.facet = 0 then s else facetEnd s (r.facet - 1)

/-- The end of a command whose whole result is written. -/
def finishCommand (s : State) (owner tag status : Nat) (result : Bytes) : State := finishWith s owner tag status result result

end Sys2Proof.Machine
end

