-- ==== Sys2Proof/Machine/StreamOps.lean ====
section
/-! DEFINITION. Machine/StreamOps.lean: shared operations on stream frames and flows (09): counters, the frames a facet
holds, the start and the end of a frame on a facet. -/

namespace Sys2Proof.Machine

open Sys2Proof

/-! ## Events of 09 -/

def evStrWriter : Nat := 0x0701
def evFlowLost : Nat := 0x0702
def evNotSwitched : Nat := 0x0703
def evAuthFail : Nat := 0x0704
def evPnWarn : Nat := 0x0705
def evPnSpent : Nat := 0x0706
def evFramesLost : Nat := 0x0707
def evLag : Nat := 0x0708
def evLagRetire : Nat := 0x0709
def evStrHang : Nat := 0x070A

/-- The prism as an event's source (16 Table 16.1). -/
def prismSrc : Nat := 131

/-! ## Flows -/

def State.flow (s : State) (i : Nat) : Option Flow := tget none s.str.flows i
def setStr (s : State) (t : StrSt) : State := { s with str := t }
def setFlow (s : State) (i : Nat) (f : Option Flow) : State := setStr s { s.str with flows := tset none s.str.flows i f }
def modFlow (s : State) (i : Nat) (g : Flow → Flow) : State :=
  match s.flow i with
  | some f => setFlow s i (some (g f))
  | none => s

def Flow.slot (f : Flow) (k : Nat) : FSlot := if k = 0 then f.s0 else f.s1
def Flow.setSlot (f : Flow) (k : Nat) (x : FSlot) : Flow := if k = 0 then { f with s0 := x } else { f with s1 := x }

/-- The state of a slot: an egress RETIRING slot under which no frame is in flight counts as EMPTY (09 R264; log entry 30). -/
def Flow.slotSt (f : Flow) (k : Nat) : Nat :=
  let x := f.slot k
  if f.dir = 1 ∧ x.st = 3 ∧ x.inFlight = 0 then 0 else x.st

/-- Is the flow of a MACsec suite; is its PN of 64 bits (09 Table 09.5)? -/
def Flow.macsec (f : Flow) : Bool := decide (f.suite < 4)
def Flow.xpn (f : Flow) : Bool := decide (2 ≤ f.suite)

/-- Count `n` on one counter of a flow, modulo 2^64 (09 R270). -/
def flowCount (s : State) (i k n : Nat) : State :=
  modFlow s i (fun f => { f with counters := tset 0 f.counters k ((tget 0 f.counters k + n) % 2 ^ 64) })

/-- A frame lost under one cause of its flow; the AUTH event, once per flow and mt (09 R268, R269). -/
def flowLoss (s : State) (i k : Nat) : State :=
  let s := flowCount s i k 1
  match s.flow i with
  | none => s
  | some f =>
    if k = 2 ∧ f.lastAuth ≠ s.mtick + 1 then
      event (setFlow s i (some { f with lastAuth := s.mtick + 1 })) 5 evAuthFail prismSrc f.owner (leBytes 4 i)
    else s

/-! ## Frames -/

def State.frame (s : State) (id : Nat) : Option Frame := s.str.frames.find? (fun x => x.id == id)
def modFrame (s : State) (id : Nat) (g : Frame → Frame) : State :=
  setStr s { s.str with frames := s.str.frames.map (fun x => if x.id = id then g x else x) }

/-- The place in the cells of `n` bytes at a frame offset, from −64 to the frame length + 63 (03 R61). -/
def frameIdx (x : Frame) (off : Int) (n : Nat) : Option Nat :=
  if -64 ≤ off ∧ off + n ≤ (x.len : Int) + 64 then some (off + 64).toNat else none

/-- The frame a facet runs. -/
def State.curFrame (s : State) (p : Nat) : Option Frame :=
  match (s.facet p).work with
  | .frame id => s.frame id
  | _ => none

/-- A 16-bit offset, signed. -/
def signed16 (n : Nat) : Int := (BitVec.ofNat 16 n).toInt

/-- Free cells of frame SRAM (09 R257). -/
def State.cellsFree (s : State) : Nat := 262144 - (s.str.frames.map (fun x => x.cells)).foldl (· + ·) 0

/-- Bring PRM_STATUS and COL_INFLIGHT up to date (09 Table 09.15, 21 Table 21.10). -/
def strUpdate (s : State) : State :=
  let free := s.cellsFree
  let low := decide (free < 16384)
  let s := s.poke F.PRM_STATUS_CELLS_FREE free
  let s := if low && !(s.is F.PRM_STATUS_CELLS_LOW) then s.raise F.PRM_STATUS_CELLS_LOW_SEEN else s
  let s := s.poke F.PRM_STATUS_CELLS_LOW (b2n low)
  s.poke F.COL_INFLIGHT_FRAMES s.str.frames.length

/-- The frames a facet holds, the running one first. -/
def State.heldBy (s : State) (p : Nat) : List Nat := tget [] s.str.held p

/-! ## A frame on its facet (09 R261, 03 R61 to R65) -/

/-- How far the head of an egress frame reaches into the headroom: the SecTAG, or the sealed-flow header. -/
def Flow.headRoom (f : Flow) : Nat := if f.macsec then (if (byteAt f.desc 25).testBit 0 then 16 else 8) else 24

/-- Is an egress frame that its facet passes on in protected form (09 R268): the head that the prism wrote, the data, a 16-byte tag? -/
def protectedForm (f : Flow) (x : Frame) (start : Int) (len : Nat) : Bool :=
  decide (start = -(f.headRoom : Int)) && decide (len = x.len + f.headRoom + 16) &&
    decide (sliceBytes x.buf (64 - f.headRoom) x.head.length = x.head)

/-- The header offsets of a frame's descriptor: data, header, associated data length (03 Table 03.6). -/
def descOffsets (f : Flow) (x : Frame) : Nat × Nat × Nat :=
  let conf := byteAt f.desc 26
  if f.macsec then
    let sc : Bool := if f.dir = 1 then (byteAt f.desc 25).testBit 0 else (byteAt x.buf (64 + 14)).testBit 5
    let tag := if sc then 16 else 8
    let head := if f.dir = 1 then 65536 + 12 - tag else 12
    ((head + tag + conf) % 65536, head % 65536, 12 + tag + conf)
  else if f.dir = 1 then (0, 65536 - 24, 24)
  else
    let o := (if sliceBytes x.buf (64 + 12) 2 = [0x81, 0x00] then 18 else 14) + 48
    (o + 24, o, 24)

/-- The initialisation vector of a frame (09 Table 09.5). -/
def frameIv (f : Flow) (pn : Nat) : Bytes :=
  let salt := sliceBytes f.desc 12 12
  if f.suite < 2 then sliceBytes f.desc 0 8 ++ beBytes 4 pn
  else if f.suite < 4 then xorBytes (sliceBytes f.desc 8 4 ++ beBytes 8 pn) salt
  else xorBytes (sliceBytes f.desc 0 4 ++ beBytes 8 pn) salt

/-- The frame descriptor (03 Table 03.6). -/
def frameDesc (f : Flow) (x : Frame) : Bytes :=
  let o := descOffsets f x
  leBytes 4 x.flow ++ [BitVec.ofNat 8 x.dir, BitVec.ofNat 8 f.suite, BitVec.ofNat 8 x.port, BitVec.ofNat 8 x.slot] ++
    leBytes 4 x.seq ++ leBytes 8 x.pn ++ frameIv f x.pn ++ leBytes 4 x.len ++ leBytes 2 o.1 ++ leBytes 2 o.2.1 ++
    leBytes 2 o.2.2 ++ leBytes 2 0 ++ leBytes 4 x.id ++ leBytes 4 x.epoch ++ List.replicate 12 0

/-- Start the first held frame on an idle facet: K and H through the key lane, the descriptor, the entry of the suite (09
R261, 02 Table 02.6, 03 R61, R63). -/
def frameStart (s : State) (p : Nat) : State :=
  match (s.facet p).work, s.heldBy p with
  | .none, id :: _ =>
    match s.frame id with
    | none => s
    | some x => match s.flow x.flow with
      | none => s
      | some f =>
        let s := s.modFacet p (fun c => { c with work := .frame id, owner := f.owner, auth := false
                                                 loc := memWrite c.loc 0x30000 (frameDesc f x) })
        let s := match tget none s.progs (tget 0 s.streamEnt f.suite - 1) with
          | some g => if tget 0 s.streamEnt f.suite = 0 then s
              else s.modFacet p (fun c => { c with entry := some g.entry, first := some g.entry, pc := g.start })
          | none => s
        let s := setK s p (some ⟨x.key, x.alg, if f.dir = 1 then 1 else 2, 12, x.handle⟩)
        let s := s.modFacet p (fun c => { c with hsub := lensOp x.alg 0 x.key 0, kTouched := false })
        let s := ((s.poke F.FCT_WORK_KIND 2 p).poke F.FCT_WORK_OWNER f.owner p).poke F.FCT_STATUS_IDLE 0 p
        let s := s.poke F.FCT_WORK_ENTRY (match (s.facet p).entry with
          | some e => e.id
          | none => 0) p
        s.poke F.FCT_STATUS_ENTRY_CLASS 12 p
  | _, _ => s

/-- A lag episode ends when the facet holds no frame (09 R272). -/
def lagEnds (s : State) (p : Nat) : State :=
  if s.str.lagging.contains p ∧ s.heldBy p = [] then
    setStr s { s.str with lagging := sdel s.str.lagging p, lagEnd := tset 0 s.str.lagEnd p (s.mtick + 1) }
  else s

/-- A frame leaves its facet: to the collimator, or discarded as a hole under a loss cause; the facet ends the work and takes
up its next frame (03 R62, R65; 09 R261, R262). -/
def frameLeave (s : State) (p id : Nat) (cause : Option Nat) : State :=
  let s := match cause, s.frame id with
    | some c, some x => flowLoss (modFrame s id (fun x => { x with stage := .gone })) x.flow c
    | _, _ => modFrame s id (fun x => { x with stage := .done })
  let s := setStr s { s.str with held := tset [] s.str.held p ((s.heldBy p).filter (fun y => y != id)) }
  frameStart (lagEnds (facetEnd s p) p) p

/-- The flow counter of an abandonment row: LENS_FAULT for a lens mismatch, else FAULT (03 Table 03.4, 09 Table 09.10). -/
def rowCause (row : Nat) : Nat := if row = 1 then 9 else 10

end Sys2Proof.Machine
end

