-- ==== Sys2Proof/Machine/DevMem.lean ====
section
/-! DEFINITION. Machine/DevMem.lean: what a read of device memory finds at each address of the HBM map and the MRAM map (01 R20, R22), where
the model holds the contents as structure: the byte layouts of 04, 05, 06, 09, 10 and 14. -/

namespace Sys2Proof.Machine

open Sys2Proof

/-- One second in nanoseconds. -/
def secNs : Nat := 1000000000
def State.owner (s : State) (o : Nat) : Owner := tget Owner.absent s.own o

/-- An entry with the CRC-32C of its other bytes at its end, in the context of its address. -/
def withCrc (addr n : Nat) (b : Bytes) : Bytes := fitBytes (n - 4) b ++ leBytes 4 (crc32c addr (fitBytes (n - 4) b))

/-! ## The page-version tree (04 R101, R102) -/

/-- The digest of a leaf: its bytes 8 to 34. -/
def leafDigest (p : Nat) (l : Leaf) : Bytes :=
  (sha256 ([0] ++ beBytes 4 (p % 1048576) ++ leBytes 8 l.dur ++ fitBytes 16 l.tag ++ leBytes 2 l.durOwner ++
    leBytes 1 l.live)).take 16

/-- The digest of node `n` of a level; `f` gives its children's digests (04 R101). -/
def nodeDigest (lvl n : Nat) (f : Nat → Bytes) : Bytes :=
  (sha256 ([1] ++ beBytes 1 lvl ++ beBytes 4 n ++ (List.range 16).flatMap (fun k => f (n * 16 + k)))).take 16

/-- The digest of the level-1 node of a group of 16 pages; `f` gives the leaves. -/
def groupDigest (g : Nat) (f : Nat → Leaf) : Bytes :=
  nodeDigest 1 (g % 65536) (fun k => leafDigest k (f (g / 65536 * 1048576 + k)))

/-- The digest of a node over unallocated pages only. -/
def emptyNode (lvl n : Nat) : Bytes := match lvl with
  | 0 => leafDigest n Leaf.free
  | l + 1 => nodeDigest (l + 1) n (emptyNode l)

/-- The digest of node `n` of level `lvl + 1` of a space's tree, from the level-1 digests that the level-2 nodes hold; levels 2 to 5 are what
they yield, so the digest of level 5 is the root digest (04 R101). -/
def treeNode (t : Tab Bytes) (sp lvl n : Nat) : Bytes := match lvl with
  | 0 => let d := tget [] t (sp * 65536 + n)
    if d = [] then emptyNode 1 n else d
  | l + 1 => nodeDigest (l + 2) n (treeNode t sp l)
def treeRoot (t : Tab Bytes) (sp : Nat) : Bytes := treeNode t sp 4 0

/-- The root slot of the higher sequence, and the pair after a write of the other one. -/
def rootLast (q : RootSlot × RootSlot) : RootSlot := if q.1.seq < q.2.seq then q.2 else q.1
def rootNext (q : RootSlot × RootSlot) (x : RootSlot) : RootSlot × RootSlot :=
  if q.1.seq < q.2.seq then ({ x with seq := q.2.seq + 1 }, q.2) else (q.1, { x with seq := q.1.seq + 1 })

/-- The 48 bytes of a leaf (04 Table 04.10). -/
def leafBytes (p : Nat) (l : Leaf) : Bytes :=
  withCrc p 40 (leBytes 8 l.cur ++ leBytes 8 l.dur ++ fitBytes 16 l.tag ++ leBytes 2 l.owner ++ leBytes 1 l.live ++
    leBytes 1 (b2n l.pend + 2 * b2n l.pois + 4 * b2n l.lost + 8 * b2n l.gfail)) ++ List.replicate 8 0

/-- Byte `a` of the tree's HBM region: leaves, then the nodes of level 1. -/
def treeHbmByte (s : State) (a : Nat) : Byte :=
  if a < 0x3000000 then (leafBytes (a / 48) (tget Leaf.free s.ks.leaves (a / 48))).getD (a % 48) 0
  else (leafDigest ((a - 0x3000000) / 16) (tget Leaf.free s.ks.leaves ((a - 0x3000000) / 16))).getD (a % 16) 0

/-- A root slot, and a record of the update log. -/
def rootBytes (addr : Nat) (x : RootSlot) : Bytes :=
  if x.seq = 0 then List.replicate 64 0
  else withCrc addr 64 (fitBytes 16 x.digest ++ leBytes 8 x.seq ++ leBytes 4 x.epoch ++ leBytes 8 x.kek)
def updBytes (x : UpdRec) : Bytes :=
  fitBytes 64 (leBytes 4 x.page ++ leBytes 8 x.dur ++ fitBytes 16 x.tag ++ leBytes 2 x.owner ++ leBytes 1 x.live ++ leBytes 8 x.seq)

/-- Byte `a` of the tree's MRAM region (04 Table 04.11): levels 2 to 5, the root slots, the update log. -/
def treeMramByte (s : State) (a : Nat) : Byte :=
  let child := fun (lvl k : Nat) => (treeNode s.ks.tree 0 lvl k).getD (a % 16) 0
  if a < 0x100000 then child 0 (a / 16)
  else if a < 0x110000 then child 1 ((a - 0x100000) / 16)
  else if a < 0x111000 then child 2 ((a - 0x110000) / 16)
  else if a < 0x111100 then child 3 ((a - 0x111000) / 16)
  else if 0x112000 ≤ a ∧ a < 0x112080 then
    (rootBytes (0x1000000 + a / 64 * 64) (if a < 0x112040 then s.ks.roots.1 else s.ks.roots.2)).getD (a % 64) 0
  else if 0x120000 ≤ a ∧ a < 0x130000 then (((s.ks.log.drop ((a - 0x120000) / 64)).head?.map updBytes).getD []).getD (a % 64) 0
  else 0

/-! ## The journal (06 Tables 06.15 and 06.17) -/

/-- Bytes 0 to 447 of a record. -/
def jrBytes (i : Nat) (r : JRec) : Bytes :=
  let a := jrAddr i
  accHalf r a ++ (match r.comp with
    | some c => compHalf r c (a + 64)
    | none => List.replicate 64 0) ++ fitBytes 64 r.sub ++ fitBytes 256 (match r.comp with
    | some c => if r.held ∧ c.len ≤ 256 then r.result else []
    | none => [])

/-- The state byte of a record (06 Table 06.16; log entry 234). -/
def JState.code (st : JState) : Nat := match st with
  | .stamped => 0
  | .accepted => 1
  | .executing => 2
  | .done => 3
  | .releasing => 4
  | .recAccepted => 5
  | .recDone => 6

/-- The 512 bytes of a record. -/
def jrRecord (i : Nat) (r : JRec) : Bytes :=
  jrBytes i r ++ withCrc (jrAddr i + 448) 64 (leBytes 1 r.st.code ++ [0] ++
    leBytes 1 (b2n r.slot.isSome + 2 * b2n r.accAck + 4 * b2n (r.held && r.comp.isSome)) ++ [0] ++ leBytes 4 (if r.answer then r.orig else 0))

/-- An MRAM slot: the halves of its record that have committed. -/
def jrSlot (addr : Nat) (r : JRec) : Bytes :=
  (if r.accMram then accHalf r addr else List.replicate 64 0) ++ (match r.comp with
    | some c => if r.compMram then compHalf r c (addr + 64) else List.replicate 64 0
    | none => List.replicate 64 0)

/-- A record of a predecessor in the part of the journal paired with its half: what was mirrored, under the CRCs of its new place. -/
def heldRecord (addr : Nat) (acc comp : Bytes) : Bytes :=
  if acc = [] then List.replicate 512 0
  else withCrc addr 64 (acc.take 60) ++ (if comp = [] then List.replicate 64 0 else withCrc (addr + 64) 64 (comp.take 60)) ++
    fitBytes 64 ((acc.drop 64).take 64) ++ fitBytes 256 (comp.drop 64) ++ withCrc (addr + 448) 64 []

/-- Byte `a` of the journal's HBM region: the own part, and the parts held for two predecessors. -/
def journalByte (s : State) (a : Nat) : Byte :=
  let held := fun (h : Half) (base : Nat) =>
    let i := (a - base) / 512
    (heldRecord (0x340000000 + a / 512 * 512) (tget [] h.store i) (tget [] h.store (1099511627776 + i))).getD (a % 512) 0
  if a < 0x20000000 then match tget none s.jr.recs (a / 512) with
    | some r => (jrRecord (a / 512) r).getD (a % 512) 0
    | none => 0
  else if a < 0x30000000 then held s.ring.h0 0x20000000
  else held s.ring.h1 0x30000000

/-- Byte `a` of the journal's MRAM region. -/
def slotByte (s : State) (a : Nat) : Byte :=
  match s.jr.recs.findSome? (fun e => e.2.bind (fun r => if r.slot = some (a / 128) then some r else none)) with
  | some r => (jrSlot (a / 128 * 128) r).getD (a % 128) 0
  | none => 0

/-- A queue durable entry, of context `c` or queue ordinal `c`. -/
def qdurBytes (addr c : Nat) (d : QDur) : Bytes :=
  let b := leBytes 8 d.next ++ leBytes 8 d.mark ++ leBytes 2 c ++ leBytes 1 d.mode ++ List.replicate 9 0
  b ++ leBytes 4 (crc32c addr b)

/-! ## Flow contexts (09 R246) -/

/-- The 128 bytes of SA_STATS (09 Table 09.13). -/
def flowStats (f : Flow) : Bytes :=
  let act := if f.s0.st = 2 then f.s0.pn else if f.s1.st = 2 then f.s1.pn else 0
  (List.range 13).flatMap (fun k => leBytes 8 (tget 0 f.counters k)) ++ leBytes 8 act ++ leBytes 4 f.s0.epoch ++ leBytes 4 f.s1.epoch ++
    leBytes 1 (f.slotSt 0 + 8 * f.slotSt 1) ++ leBytes 1 (f.s0.an + 16 * f.s1.an) ++ [0, 0] ++ leBytes 4 f.frames

/-- Byte `a` of the flow contexts: the first half of a context has a layout of its own, with the slot keys enciphered under the flow-context
key; its bytes are free. -/
def flowByte (s : State) (a : Nat) : Byte :=
  match tget none s.str.flows (a / 256) with
  | some f => if a % 256 < 128 then Config.hbmByte (0x304000000 + a) s.freeCtr else (flowStats f).getD (a % 128) 0
  | none => 0

/-! ## Owner states (14) -/

def oAbsent : Nat := 0
def oActive : Nat := 1
def oResetting : Nat := 2
def oFrozen : Nat := 3
def oSaved : Nat := 4
def oRestoring : Nat := 5
def oTaken : Nat := 6
def oStandby : Nat := 7

/-! ## Owner durable state (05 R113; 10 Table 10.8; 14 Tables 14.1 and 14.3) -/

/-- The default thresholds (05 Table 05.3), and the floors. -/
def defaultPolicy : Bytes := [0, 1, 2, 2, 2, 2, 2, 2, 2, 0, 0, 0, 0, 0, 0, 0]
def policyFloor : List Nat := [0, 0, 2, 2, 1, 2, 2, 2, 2]
def Owner.pol (x : Owner) : Bytes := if x.policy = [] then defaultPolicy else x.policy

/-- The custody state of an owner in bytes: the custodian table, the policy, and the open challenges (05 R113, R118). -/
def custodyBytes (x : Owner) : Bytes :=
  (List.range 8).flatMap (fun k => match tget none x.custodians k with
    | some c => leBytes 4 c.handle ++ [1, 0] ++ leBytes 2 c.mask ++ leBytes 6 c.sec ++ [0, 0]
    | none => List.replicate 16 0) ++ fitBytes 16 x.pol ++
    x.challenges.flatMap (fun c => fitBytes 32 c.val ++ leBytes 6 c.exp ++ leBytes 8 (c.tag.getD 0))

/-- The 64 bytes of an entry (10 Table 10.8). -/
def entryBytes (x : FEntry) : Bytes :=
  leBytes 1 x.typ ++ leBytes 1 x.st ++ leBytes 2 x.owner ++ leBytes 6 (x.instant / secNs) ++ leBytes 4 (x.instant % secNs) ++
    leBytes 1 x.node ++ leBytes 1 x.outcome ++ fitBytes 48 x.params

/-- The 60 bytes of an owner-table entry before its CRC, and the entry (14 Table 14.1). -/
def ownerBody (x : Owner) : Bytes :=
  leBytes 1 x.state ++ leBytes 1 x.mode ++ leBytes 1 x.weight ++ leBytes 1 x.hxCap ++ leBytes 1 x.facetCap ++ leBytes 1 x.home ++
    leBytes 2 x.ports ++ leBytes 4 x.cmdRate ++ leBytes 4 x.cmdDepth ++ leBytes 8 x.byteRate ++ leBytes 8 x.byteDepth ++
    leBytes 4 x.keyQuota ++ leBytes 4 x.flowQuota ++ leBytes 4 x.cred ++ leBytes 2 x.fns ++ leBytes 2 x.qcs ++ List.replicate 12 0
def ownerEntry (o : Nat) (x : Owner) : Bytes := ownerBody x ++ leBytes 4 (crc32c o (ownerBody x))

/-- Byte `a` of the lease-mark table: 16,384 sets of 8 entries of 16 bytes (04 R93). -/
def leaseByte (s : State) (a : Nat) : Byte :=
  let l := s.ks.marks.filter (fun e => decide (e.1 < 4294967296) && decide (e.1 % 33554432 % 16384 = a / 128))
  match (l.drop (a % 128 / 16)).head? with
  | some e => (leBytes 4 e.1 ++ [0, 0, 0, 0] ++ leBytes 8 e.2).getD (a % 16) 0
  | none => 0

/-- The 32 bytes of an owner's work state (14 Table 14.3). -/
def workState (addr : Nat) (x : Owner) : Bytes :=
  withCrc addr 32 (leBytes 1 x.state ++ leBytes 1 (b2n x.squash) ++ leBytes 6 x.saveSec ++ [0, 0, 0, 0] ++ fitBytes 16 x.nonce)

/-- Byte `a` of owner durable state (14 Table 14.3). -/
def durByte (s : State) (a : Nat) : Byte :=
  let free := Config.mramByte (0x1800000 + a) s.freeCtr
  if a < 0x80000 then
    if tget QDur.zero s.jr.durable (a / 32) = QDur.zero then 0
    else (qdurBytes (0x1800000 + a / 32 * 32) (a / 32) (tget QDur.zero s.jr.durable (a / 32))).getD (a % 32) 0
  else if a < 0x100000 then match tget none s.foc.table ((a - 0x80000) / 128) with
    | some x => (withCrc (0x1800000 + a / 128 * 128) 128 (entryBytes x ++ leBytes 8 x.tag)).getD (a % 128) 0
    | none => 0
  else if a < 0x140000 then
    let o := (a - 0x100000) / 64
    if (s.owner o).state = oAbsent then 0 else (ownerEntry o (s.owner o)).getD (a % 64) 0
  else if a < 0x540000 then
    if a % 1024 < 144 then ((custodyBytes { s.owner ((a - 0x140000) / 1024) with challenges := [] }).take 144).getD (a % 1024) 0 else free
  else if a < 0x560000 then
    let o := (a - 0x540000) / 32
    if (s.owner o).state = oAbsent then 0 else (workState (0x1800000 + a / 32 * 32) (s.owner o)).getD (a % 32) 0
  else if a < 0x580000 then free
  else if a < 0x581000 then ((s.blobIds.drop ((a - 0x580000) / 16)).headD []).getD (a % 16) 0
  else free

/-! ## Reads of device memory -/

/-- Byte `a` of MRAM where its contents are structure; none in steward scratch, which facets and Loupe read as they wrote it. -/
def mramStruct (s : State) (a : Nat) : Option Byte :=
  if a < 0x1000000 then some (slotByte s a)
  else if a < 0x1400000 then some (treeMramByte s (a - 0x1000000))
  else if a < 0x1600000 then some (leaseByte s (a - 0x1400000))
  else if a < 0x1700000 then some (logByte s (a - 0x1600000))
  else if 0x1800000 ≤ a ∧ a < 0x2000000 then some (durByte s (a - 0x1800000))
  else none

/-- Byte `a` of HBM where its contents are structure: the heap map, the tree, flow contexts, the journal; the program store and the mirror area have
layouts of their own, and their bytes are free. -/
def hbmStruct (s : State) (a : Nat) : Option Byte :=
  if 0x100000000 ≤ a ∧ a < 0x104000000 then some ((leBytes 4 (tget 0 s.ks.heap ((a - 0x100000000) / 4))).getD (a % 4) 0)
  else if 0x300000000 ≤ a ∧ a < 0x304000000 then some (treeHbmByte s (a - 0x300000000))
  else if 0x304000000 ≤ a ∧ a < 0x314000000 then some (flowByte s (a - 0x304000000))
  else if 0x340000000 ≤ a ∧ a < 0x380000000 then some (journalByte s (a - 0x340000000))
  else if 0x380000000 ≤ a ∧ a < 0x3C0000000 then some (Config.hbmByte a s.freeCtr)
  else if 0x900000000 ≤ a ∧ a < 0xC00000000 then some (Config.hbmByte a s.freeCtr)
  else none

/-- A byte of device memory at a global address, as a read finds it. -/
def State.devByte (s : State) (a : Nat) : Byte :=
  ((if 0x1000000000 ≤ a ∧ a < 0x1C00000000 then hbmStruct s (a - 0x1000000000)
    else if 0x2200000000 ≤ a ∧ a < 0x2204000000 then mramStruct s (a - 0x2200000000)
    else none)).getD (memGet s.gmem a)

/-- `n` bytes of device memory. -/
def State.devRead (s : State) (a n : Nat) : Bytes := (List.range n).map (fun i => s.devByte (a + i))

end Sys2Proof.Machine
end

