-- ==== Sys2Proof/Machine/Entropy.lean ====
section
/-! DEFINITION. Machine/Entropy.lean: the commands of the entropy source and of the steward's check-value unit (12). -/

namespace Sys2Proof.Machine

open Sys2Proof

/-- Event codes of 12. -/
def evSrcFail : Nat := 0x0A01
def evSrcSpent : Nat := 0x0A02
def evRngStop : Nat := 0x0A03
def evRngResume : Nat := 0x0A04
def evRngReduced : Nat := 0x0A05
def evRngWriter : Nat := 0x0A06
def evRingCv : Nat := 0x0A07

/-- The sources of a kind, ascending. -/
def kindRange (k : Nat) : List Nat := (List.range 28).filter (fun n => srcKind n == k)

/-- The Active-at-start count of a kind, and its assessed rate per source in Mbit/s (12 Table 12.1). -/
def kindActive (k : Nat) : Nat := match k with
  | 0 => 12
  | 1 => 6
  | _ => 3
def kindRate (k : Nat) : Nat := match k with
  | 0 => 250
  | 1 => 500
  | _ => 1000

/-- Assessed entropy of a 64-byte chunk of a kind, in bits: 512 samples of 0.625 or 0.25 bit, 64 samples of 1 bit. -/
def kindChunk (k : Nat) : Nat := match k with
  | 0 => 320
  | 1 => 128
  | _ => 64

def State.source (s : State) (n : Nat) : Source := tget Source.zero s.rng.src n
def State.setSource (s : State) (n : Nat) (x : Source) : State :=
  { s with rng := { s.rng with src := tset Source.zero s.rng.src n x } }

/-- Is a source ACTIVE? -/
def State.srcActive (s : State) (n : Nat) : Bool := (s.source n).st == .active

/-- The assessed rate of the ACTIVE sources of a kind. -/
def State.kindSum (s : State) (k : Nat) : Nat := ((kindRange k).filter s.srcActive).length * kindRate k

/-- The output rate in Mbit/s (12 R319). -/
def State.rngRate (s : State) : Nat :=
  let a := s.kindSum 0
  let b := s.kindSum 1
  let c := s.kindSum 2
  let h := a + b + c
  min 4000 (min (h / 2) ((h - max a (max b c)) * 4 / 5))

/-- The bits of the sources that satisfy `p`. -/
def srcMap (s : State) (p : Source → Bool) : Nat :=
  (List.range 28).foldl (fun a n => if p (s.source n) then a + 2 ^ n else a) 0

/-- Bring the rate, the maps and the state up to date (12 R319, R321, R322). -/
def rngUpdate (s : State) : State :=
  let rate := s.rngRate
  let st := s.get F.RNG_STATUS_STATE
  let s := s.poke F.RNG_STATUS_RATE rate
  let s := s.poke F.RNG_ACTIVE_ACTIVE (srcMap s (fun x => x.st == .active))
  let s := s.poke F.RNG_EXCLUDED_EXCLUDED (srcMap s (fun x => x.st == .excluded || x.st == .spent))
  let s := s.poke F.RNG_SPENT_SPENT (srcMap s (fun x => x.st == .spent))
  let starting := decide (st = 0) && (List.range 28).any (fun n => (s.source n).st == .testing true || (s.source n).st == .testing false)
  if starting then s
  else if rate = 0 then
    if st = 3 then s
    else
      let s := { s with rng := { s.rng with waiting := [] } }
      event ((s.poke F.RNG_STATUS_STATE 3).raise F.RNG_STATUS_STOP_SEEN) 5 evRngStop 130
  else
    let new := if rate = 4000 then 1 else 2
    let s := s.poke F.RNG_STATUS_STATE new
    if st = 3 then event s 1 evRngResume 130
    else if st = 0 ∧ new = 2 then event s 3 evRngReduced 130 else s

/-- A source begins its start-up test; `up` says that it becomes ACTIVE when it passes (12 R315). -/
def State.beginTest (s : State) (n : Nat) (up : Bool) : State :=
  let t := s.setSource n { s.source n with st := .testing up }
  { t with rng := { t.rng with health := tset Health.zero t.rng.health n Health.zero } }

/-- How many sources of a kind are ACTIVE or on their way to ACTIVE (12 R317). -/
def State.kindBusy (s : State) (k : Nat) : Nat :=
  ((kindRange k).filter (fun n => s.srcActive n || (s.source n).st == .testing true)).length

/-- The lowest STANDBY source of a kind starts its start-up test in place of one that is out (12 R315, R316). -/
def replaceSource (s : State) (k : Nat) : State :=
  match (kindRange k).find? (fun n => (s.source n).st == .standby) with
  | some n => s.beginTest n true
  | none => s

/-- An exclusion: the third since the last S-reset makes the source SPENT (12 R316, R317). -/
def excludeSource (s : State) (n : Nat) : State :=
  let x := s.source n
  let s := s.raise F.RNG_STATUS_EXCL_SEEN
  if 3 ≤ x.excl + 1 then event (s.setSource n ⟨.spent, x.excl + 1⟩) 4 evSrcSpent 130 0xFFFF (leBytes 1 n)
  else s.setSource n ⟨.excluded, x.excl + 1⟩

/-- Count a failed test (12 Table 12.7). -/
def countFail (s : State) (apt : Bool) : State := if apt then s.incSat F.RNG_FAILS_APT else s.incSat F.RNG_FAILS_RCT

/-- At S-reset and P-reset every source starts its start-up test, the lowest of each kind to become ACTIVE, and the FIFO
is emptied (12 R313, R315, R322). -/
def rngRestart (s : State) : State := { s with rng := .started s.rng.counters }

/-- 12 R316: a continuous test of an ACTIVE or STANDBY source fails. -/
def srcFailure (n : Nat) (apt : Bool) (s : State) : State :=
  match (s.source n).st with
  | .active =>
    let s := countFail s apt
    let s := { s with rng := { s.rng with fifo := [] } }
    let s := event (excludeSource s n) 3 evSrcFail 130 0xFFFF (leBytes 1 n ++ leBytes 1 (b2n apt))
    rngUpdate (replaceSource s (srcKind n))
  | .standby =>
    let s := countFail s apt
    rngUpdate (event (excludeSource s n) 3 evSrcFail 130 0xFFFF (leBytes 1 n ++ leBytes 1 (b2n apt)))
  | _ => s

def execSourceTestFailure (n : Fin 28) (apt : Bool) (s : State) : Host.Outcome State Fault Refusal :=
  .next (srcFailure n.val apt s)

/-- 12 R315, R317: a start-up test ends. A source that passes becomes ACTIVE when it was to become ACTIVE, or when its kind
holds fewer than its Active-at-start count; else STANDBY. At a start, one that its kind lacks goes on as a replacement. -/
def startupEnd (n : Nat) (pass apt : Bool) (s : State) : State :=
  match (s.source n).st with
  | .testing forActive =>
    let x := s.source n
    if pass then
      let up := forActive || (decide (s.get F.RNG_STATUS_STATE ≠ 0) && decide (s.kindBusy (srcKind n) < kindActive (srcKind n)))
      let short := decide (s.get F.RNG_STATUS_STATE = 0) && decide (s.kindBusy (srcKind n) < kindActive (srcKind n))
      rngUpdate (if !up && short then s.beginTest n true else s.setSource n { x with st := if up then .active else .standby })
    else
      let s := excludeSource (countFail s apt) n
      rngUpdate (if forActive then replaceSource s (srcKind n) else s)
  | _ => s

def execStartupTestEnd (n : Fin 28) (pass apt : Bool) (s : State) : Host.Outcome State Fault Refusal :=
  .next (startupEnd n.val pass apt s)

/-- 12 R317: an EXCLUDED source repeats its start-up test 1 mt after its exclusion. -/
def execSourceRetest (n : Fin 28) (s : State) : Host.Outcome State Fault Refusal :=
  .next (if (s.source n.val).st == .excluded then s.beginTest n.val false else s)

/-! ## Health tests (12 R314) -/

/-- The cut-offs of a kind: repetition count, adaptive proportion window, adaptive proportion count (12 Table 12.2). -/
def cutOffs (k : Nat) : Nat × Nat × Nat := match k with
  | 0 => (33, 1024, 745)
  | 1 => (81, 1024, 925)
  | _ => (21, 512, 315)

/-- One sample through both tests (NIST SP 800-90B, 4.4); which one fails, `true` for the adaptive proportion test. -/
def sampleTest (k : Nat) (h : Health) (x : Nat) : Health × Option Bool :=
  let c := cutOffs k
  let run := if h.run ≠ 0 ∧ x = h.last then h.run + 1 else 1
  let first := if h.pos = 0 then x else h.first
  let count := if h.pos = 0 then 1 else if x = h.first then h.count + 1 else h.count
  (⟨x, run, first, (h.pos + 1) % c.2.1, count⟩,
    if c.1 ≤ run then some false else if c.2.2 ≤ count then some true else none)

/-- The samples of a chunk: bytes of a diode channel, else bits, the least significant first (log entry 243). -/
def chunkSamples (x : Chunk) : List Nat :=
  if srcKind x.source = 2 then x.data.map (fun b => b.toNat)
  else x.data.flatMap (fun b => (List.range 8).map (fun i => b2n (b.getLsbD i)))

/-- The samples of a chunk through the tests of its source, and the first failure. -/
def chunkTest (h : Health) (x : Chunk) : Health × Option Bool :=
  (chunkSamples x).foldl (fun r y =>
    let t := sampleTest (srcKind x.source) r.1 y
    (t.1, r.2.or t.2)) (h, none)

/-- Every chunk through the tests, and the sources that fail. -/
def testChunks (s : State) (chunks : List Chunk) : State × List (Nat × Bool) :=
  chunks.foldl (fun r x =>
    let t := chunkTest (tget Health.zero r.1.rng.health x.source.val) x
    ({ r.1 with rng := { r.1.rng with health := tset Health.zero r.1.rng.health x.source.val t.1 } },
      r.2 ++ (t.2.map (fun apt => (x.source.val, apt))).toList)) (s, [])

/-- 12 R318: a conditioner closes a block of chunks of ACTIVE sources when it holds 512 bits of assessed entropy, 320 of
them without the kind that contributes most. Every sample counts toward the tests first; a block with a sample of a source that fails is
discarded (R314, R316). -/
def blockClose (c : Nat) (chunks : List Chunk) (s : State) : State :=
  let sum := fun (k : Nat) => ((chunks.filter (fun x => srcKind x.source.val == k)).length) * kindChunk k
  let tot := sum 0 + sum 1 + sum 2
  let ok := chunks.all (fun x => s.srcActive x.source.val && decide (x.data.length = 64)) && decide (512 ≤ tot) &&
    decide (320 ≤ tot - max (sum 0) (max (sum 1) (sum 2)))
  if !ok then s
  else
    let t := testChunks s chunks
    let s := t.1
    if t.2 ≠ [] then t.2.foldl (fun s e => srcFailure e.1 e.2 s) s
    else
    let n := tget 0 s.rng.counters c
    let out := sha256 (leBytes 1 c ++ beBytes 7 n ++ chunks.flatMap (fun x => x.data))
    { s with rng := { s.rng with
        counters := tset 0 s.rng.counters c ((n + 1) % 2 ^ 56)
        fifo := if s.rng.fifo.length + 32 ≤ 16384 then s.rng.fifo ++ out else s.rng.fifo } }

/-- Serve the waiting requests, oldest first, each wholly from the FIFO (12 R320). -/
def rngServe (fuel : Nat) (s : State) : State :=
  match fuel with
  | 0 => s
  | f + 1 =>
    match s.rng.waiting with
    | [] => s
    | (_, bits) :: r =>
      if (bits + 7) / 8 ≤ s.rng.fifo.length then
        let d := s.rng.fifo.take ((bits + 7) / 8)
        rngServe f { s with out := d, rng := { s.rng with fifo := s.rng.fifo.drop ((bits + 7) / 8), waiting := r } }
      else s

def execConditionerBlockClose (c : Fin 8) (chunks : List Chunk) (s : State) : Host.Outcome State Fault Refusal :=
  let s := blockClose c.val chunks s
  .next (rngServe s.rng.waiting.length s)

/-- 12 R320, R321: a request is answered S_ENTROPY at once while the source is STOPPED, served from the FIFO when it holds
the bits, and waits otherwise. The reply is a status and the bytes. -/
def execEntropyRequest (consumer : Nat) (bits : Fin 257) (s : State) : Host.Outcome State Fault Refusal :=
  if s.rngStopped then .next { s with out := leBytes 2 0x42 }
  else
    let s := { s with rng := { s.rng with waiting := s.rng.waiting ++ [(consumer, bits.val)] } }
    .next (rngServe s.rng.waiting.length s)

/-! ## The steward's check-value unit (12 R329) -/

/-- Show the finished value of the open computation in CVU_RESULT. -/
def cvuShow (s : State) : State :=
  match s.cv with
  | none => s.put64 F.CVU_RESULT_LO 0
  | some c => s.put64 F.CVU_RESULT_LO (cvFinish c.poly c.reg)

/-- 12 R329: START takes POLY, CTX and the context as they stand. -/
def cvuStart (a : Agent) (s : State) : State :=
  if s.outOfReach a 0x70800 then s
  else if !(s.isPrimary a) then event s 2 evRngWriter stewardSrc
  else
    let poly := s.get F.CVU_CTRL_POLY
    let ctx := if s.is F.CVU_CTRL_CTX then some (s.get64 F.CVU_CTX_LO) else none
    cvuShow { s with cv := some ⟨poly, cvStart poly ctx⟩ }
def execCvuStart (a : Agent) (s : State) : Host.Outcome State Fault Refusal := .next (cvuStart a s)

/-- 12 R329, Table 12.11: a data write feeds NBYTES bytes, least significant first; none without an open computation. -/
def cvuData (a : Agent) (v : Word) (s : State) : State :=
  if s.outOfReach a 0x70800 then s
  else if !(s.isPrimary a) then event s 2 evRngWriter stewardSrc
  else match s.cv with
    | none => s
    | some c =>
      let n := if s.get F.CVU_CTRL_NBYTES = 0 then 4 else s.get F.CVU_CTRL_NBYTES
      cvuShow { s with cv := some { c with reg := cvFeed c.poly c.reg (leBytes n v.toNat) } }
def execCvuDataWrite (a : Agent) (v : Word) (s : State) : Host.Outcome State Fault Refusal := .next (cvuData a v s)

end Sys2Proof.Machine
end

