-- ==== Sys2Proof/Machine/Flags.lean ====
section
/-! DEFINITION. Machine/Flags.lean: the facet's five flags (03 R56, R63): EQ, C, AUTH and PINOK are held, SEQ is 1 while a
sequencer slot runs. -/

namespace Sys2Proof.Machine

open Sys2Proof

/-- Add with the carry flag: the sum and the carry out (03 R55, R56). -/
def addCarry (a b : W64) (c : Bool) : W64 × Bool :=
  let n := a.toNat + b.toNat + b2n c
  (BitVec.ofNat 64 n, decide (2 ^ 64 ≤ n))

/-- Subtract with the carry flag as a borrow: the difference and the borrow out (log entry 9). -/
def subBorrow (a b : W64) (c : Bool) : W64 × Bool :=
  (a - b - BitVec.ofNat 64 (b2n c), decide (a.toNat < b.toNat + b2n c))

/-- SEQ (03 R56). -/
def Facet.seqFlag (f : Facet) : Bool := f.seq.any (fun e => match e.2 with
  | some q => decide (0 < q.left)
  | none => false)

/-- Write C. -/
def setC (s : State) (p : Nat) (c : Bool) : State := s.modFacet p (fun f => { f with c := c })

/-- Write EQ. -/
def setEq (s : State) (p : Nat) (e : Bool) : State := s.modFacet p (fun f => { f with eq := e })

/-- BCMP: EQ tells whether the operands are equal; AUTH is set only by an equal compare of a TAG result with data FLD
loaded from the current frame, and cleared by every other (03 R63). -/
def setCompare (s : State) (p : Nat) (x y : BReg) : State :=
  let e := decide (x.val = y.val)
  s.modFacet p (fun f => { f with eq := e, auth := e && ((x.tag && y.fld) || (y.tag && x.fld)) })

/-- PCHK writes PINOK alone (03 R56). -/
def setPinok (s : State) (p : Nat) (ok : Bool) : State := s.modFacet p (fun f => { f with pinok := ok })

end Sys2Proof.Machine
end

