-- ==== Sys2Proof/Machine/Operands.lean ====
section
/-! DEFINITION. Machine/Operands.lean: a facet's registers and memories as its instructions reach them (02, 03): the world
it runs in, register operands, effective addresses, the address map and its checks, abandonment, lens blocks and folds. -/

namespace Sys2Proof.Machine

open Sys2Proof

/-! ## World and general registers -/

/-- Read a general register: g0 reads 0 in the outer world (02 Table 02.1, 03 world calls). -/
def getG (s : State) (p : Nat) (r : GR) : W64 :=
  if r.val = 0 ∧ !(inner s p) then 0 else tget 0 (s.facet p).g r.val

/-- Write a general register: a write to g0 is discarded in the outer world. -/
def setG (s : State) (p : Nat) (r : GR) (x : W64) : State :=
  if r.val = 0 ∧ !(inner s p) then s else s.modFacet p (fun f => { f with g := tset 0 f.g r.val x })

def getV (s : State) (p : Nat) (r : VR) : W256 := tget 0 (s.facet p).v r.val
def setV (s : State) (p : Nat) (r : VR) (x : W256) : State := s.modFacet p (fun f => { f with v := tset 0 f.v r.val x })

def getB (s : State) (p : Nat) (r : BR) : BReg := tget BReg.zero (s.facet p).b r.val
def setB (s : State) (p : Nat) (r : Nat) (x : BReg) : State := s.modFacet p (fun f => { f with b := tset BReg.zero f.b r x })

/-- The result of an instruction on block registers: sealed when a source is (02 R44). -/
def bres (x : Block) (sld : Bool) : BReg := ⟨x, sld, false, false, false⟩

/-- The immediate, sign-extended (03 Table 03.2). -/
def simm (i : BitVec 16) : W64 := i.signExtend 64

/-- The effective address of an I-format access: base plus immediate. -/
def effAddr (s : State) (p : Nat) (s1 : GR) (imm : BitVec 16) : Nat := (getG s p s1 + simm imm).toNat

/-! ## Performance counters (21 R502) -/

/-- Count `n` events of a code on the counters that select it. -/
def perf (s : State) (p code n : Nat) : State :=
  if !(s.is F.FCT_PERF_CTRL_EN p) then s
  else (List.range 16).foldl (fun s j =>
    if (s.get F.FCT_PERF_SEL p (j / 4) / 2 ^ (8 * (j % 4))) % 256 = code then
      s.poke F.FCT_PERF (s.get F.FCT_PERF p j + n) p j else s) s

/-! ## Abandonment (03 R65, Table 03.4) -/

/-- Event codes of 02 and 03. -/
def evDsramCorr : Nat := 0x0101
def evLensMismatch : Nat := 0x0102
def evKeyUse : Nat := 0x0103
def evSealed : Nat := 0x0104
def evDsramUncorr : Nat := 0x0105
def evParity : Nat := 0x0106
def evEncoding : Nat := 0x0201
def evHostErr : Nat := 0x0202

/-- The earliest row of 03 Table 03.4, with its status, among a cause and those that met it in the same cycle (20 R482). -/
def firstCause (l : List (Nat × Nat)) (c : Nat × Nat) : Nat × Nat := l.foldl (fun a m => if m.1 < a.1 then m else a) c

/-- The facet abandons its work: a command ends with the status and result length 0, a frame is discarded under the loss
cause of its row, FCT_ABANDON keeps the row, and the facet is cleared under R27. Rows are those of 03 Table 03.4; of causes that
meet in one cycle the earliest row decides (20 R482). -/
def abandon (s : State) (p row status : Nat) : State :=
  let f := s.facet p
  let c := firstCause f.meets (row, status)
  let row := c.1
  let status := c.2
  let s := noteAbandon s p row
  match f.work with
  | .none => s.setFacet p (clearFacet f)
  | .cmd ctx aseq =>
    match jrFind s ctx aseq with
    | some (_, r) => finishCommand s r.owner r.tag status []
    | none => facetEnd s p
  | .frame id => frameLeave s p id (some (rowCause row))

/-- The status of abandonment for an empty K: that of the last failed LDK of the work, else S_INTERNAL (02 R38). -/
def emptyKStatus (s : State) (p : Nat) : Nat := (s.facet p).ldkFail.getD sInternal

/-- An operation under K that 02 Table 02.6 does not permit (02 R35). -/
def badUse (s : State) (p : Nat) : State := abandon (event s 5 evKeyUse p) p 2 sKeyUse

/-- A sealed register used where it may not be (02 R46). -/
def badSeal (s : State) (p : Nat) : State := abandon (event s 5 evSealed p) p 4 sDenied

/-- A reserved encoding (03 R55). -/
def badCode (s : State) (p : Nat) : State := abandon (event s 3 evEncoding p) p 6 sInternal

/-- An address the map or an aperture refuses (03 R53, R54). -/
def badAddr (s : State) (p : Nat) : State := abandon s p 5 sDenied

/-! ## Faults of a facet's own hardware (02 R24, R25, R31) -/

/-- What a lens mismatch does beside ending the work (02 R31): the blocks in flight are discarded, LENS_FAULT, the lens's count, the
monitor and the event. -/
def lensMismatch (s : State) (p lens : Nat) : State :=
  let s := s.modFacet p (fun f => { f with lens := [], seq := [] })
  let s := (s.poke F.FCT_STATUS_LENS_FAULT 0 p).raise F.FCT_STATUS_LENS_FAULT p
  let s := s.incSat (if lens = 0 then F.FCT_LENS_COUNT_LENS0 else F.FCT_LENS_COUNT_LENS1) p
  event (mismatch s) 5 evLensMismatch p (s.facet p).owner (leBytes 1 lens)

/-- An uncorrectable data SRAM error and an instruction parity fault: counted, and recorded by an event of their own (20 R482; log
entry 206). -/
def sramUncorr (s : State) (p : Nat) : State := event (s.incSat F.FCT_ERRORS_DSRAM_UNCORR p) 3 evDsramUncorr p (s.facet p).owner
def parityFault (s : State) (p : Nat) : State := event (s.incSat F.FCT_ERRORS_PARITY_FAULTS p) 3 evParity p (s.facet p).owner

/-- A cause that ends the work in the same cycle as another one: it is recorded and counts toward retirement as it does alone, and
its row and status are kept for the choice of 20 R482. -/
def meet (p : Nat) (s : State) (c : Cause) : State :=
  let hold := fun (s : State) (row st : Nat) =>
    if (s.facet p).work = .none then s else s.modFacet p (fun f => { f with meets := f.meets ++ [(row, st)] })
  match c with
  | .lens l => facetFault (hold (lensMismatch s p l) 1 sLensFault) p 1
  | .keyUse => hold (event s 5 evKeyUse p) 2 sKeyUse
  | .keyEmpty => hold s 3 (emptyKStatus s p)
  | .sealedUse => hold (event s 5 evSealed p) 4 sDenied
  | .address => hold s 5 sDenied
  | .encoding => hold (event s 3 evEncoding p) 6 sInternal
  | .budget => hold s 7 sInternal
  | .sram => facetFault (hold (sramUncorr s p) 8 sInternal) p 3
  | .parity => facetFault (hold (parityFault s p) 8 sInternal) p 2

/-- The work ends under the causes that met, if it has not ended yet. -/
def meetEnd (s : State) (p : Nat) : State := match (s.facet p).meets with
  | [] => s
  | m :: _ => abandon s p m.1 m.2

/-- An effect of a facet in one cycle with the other causes of that cycle (20 R482). -/
def withCauses (also : List Cause) (p : Nat) (k : State → State) (s : State) : State :=
  if also = [] then k s else meetEnd (k (also.foldl (meet p) s)) p

/-! ## Issue -/

/-- An instruction parity error at fetch is counted in the facet's error history (cause 0) and the line is refetched; a second error
on the line within 1 mt, that is in the same management tick or the next (log entry 207), is a facet parity fault (02 R24). True
when the instruction may execute. -/
def fetchParity (s : State) (p : Nat) : Bool × State :=
  let line := (s.facet p).pc / 16
  let s := { s with wear := { s.wear with life := tset 0 s.wear.life (p * 16) (tget 0 s.wear.life (p * 16) + 1) } }
  if (s.facet p).parity.any (fun e => decide (e.1 = line) && decide (s.auxTick ≤ e.2 + 1)) then
    (false, facetFault (abandon (parityFault s p) p 8 sInternal) p 2)
  else (true, s.modFacet p (fun f => { f with parity := (line, s.auxTick) :: f.parity.filter (fun e => decide (e.1 ≠ line)) }))

/-- Does the facet hold its next instruction back: a host transfer stalls it (03 R58), its lenses drain after a mismatch
(02 R31), or the instruction names a general register that a pending LDK writes (02 R36)? -/
def stalls (f : Facet) (regs : List Nat) : Bool :=
  f.dma.isSome || (match f.ldk with
    | some l => regs.contains l.dest
    | none => false)

/-- Issue one instruction on a facet. The second of a pair behind a taken branch is discarded (03 R56). An instruction that
is held back leaves the facet as it is (log entry 11); a facet halted by debug executes nothing (17 R428). The program counter moves on before the effect, which may then
replace it. A facet whose power domain is off executes nothing (18 R457, R459). `regs` are the general registers the instruction names. -/
def issue (h : Slot) (s : State) (regs : List Nat) (k : State → State) : State :=
  let p := h.p.val
  let f := s.facet p
  if f.halt = 1 ∨ !(s.domainOn p) then s
  else
  let s := if f.halt = 2 then s.modFacet p (fun f => { f with halt := 1 }) else s
  if f.squash then s.modFacet p (fun f => { f with squash := false })
  else if stalls f regs then s
  else withCauses h.also p (fun s =>
    let r := if h.parity then fetchParity s p else (true, s)
    if !r.1 then r.2
    else
      let s := perf (perf r.2 p 2 1) p 3 (b2n h.paired)
      k (s.modFacet p (fun f => { f with pc := f.pc + 1 }))) s

/-! ## The address map (03 R53) -/

/-- Where an access goes: a facet's own memory, an aperture unit and the address it checks, or nowhere. -/
inductive Place where
  | loc
  | glob (unit addr : Nat)
  | none
  deriving DecidableEq, Repr

/-- Does `[a, a + len)` lie in `[lo, hi]`? -/
def within (a len lo hi : Nat) : Bool := decide (lo ≤ a) && decide (a + len ≤ hi + 1)

/-- The aperture unit of a device HBM address (15 Table 15.1). -/
def hbmUnit (d : Nat) : Nat :=
  if 0x3C0000000 ≤ d ∧ d < 0x400000000 then 6 else if d < 0x600000000 then 0 else 1

/-- The place of an access by the current world (03 Table 03.1). -/
def place (isInner write : Bool) (a len : Nat) : Place :=
  if within a len 0x10000 0x1FFFF || within a len 0x20100 0x201FF || within a len 0x22000 0x22FFF then .loc
  else if !write && (within a len 0 0xFFFF || within a len 0x20000 0x2003F || within a len 0x20040 0x2007F ||
      within a len 0x21000 0x21FFF || within a len 0x30000 0x3003F) then .loc
  else if within a len 0x1000000000 0x1BFFFFFFFF then .glob (hbmUnit (a - 0x1000000000)) (a - 0x1000000000)
  else if within a len 0x2000000000 0x2002FFFFFF then .glob 3 (a - 0x2000000000)
  else if within a len 0x2100000000 0x21007FFFFF then .glob 4 (a - 0x2100000000)
  else if isInner && within a len 0x2200000000 0x2203FFFFFF then .glob 2 (a - 0x2200000000)
  else .none

/-- Check an access: the map, then the target's aperture unit (03 R53, R54). -/
def accessOk (s : State) (p a len : Nat) (write : Bool) : Place × State :=
  match place (inner s p) write a len with
  | .none => (.none, s)
  | .loc => (.loc, s)
  | .glob u d =>
    let r := aptCheck s u d len p (inner s p) write
    (if r.1 then .glob u d else .none, r.2)

/-! ## Local memory and the written-in-this-work bits (02 R26) -/

/-- A byte of local memory: a work-region line not written in this work reads 0. -/
def locByte (f : Facet) (a : Nat) : Byte :=
  if 0x10000 ≤ a ∧ a < 0x20000 ∧ !(f.lines.contains (a / 64)) then 0 else memGet f.loc a

def locRead (f : Facet) (a n : Nat) : Bytes := (List.range n).map (fun i => locByte f (a + i))

/-- Write local bytes, marking the lines of the work region; the unwritten rest of a line newly marked reads 0. -/
def locWrite (f : Facet) (a : Nat) (d : Bytes) : Facet :=
  match d with
  | [] => f
  | b :: r =>
    let f := if 0x10000 ≤ a ∧ a < 0x20000 ∧ !(f.lines.contains (a / 64)) then
        { f with lines := sput f.lines (a / 64), loc := memZero f.loc (a / 64 * 64) 64 } else f
    locWrite { f with loc := memSet f.loc a b } (a + 1) r

/-! ## Shared memory (03 R74, R75) -/

def globRead (s : State) (p a n : Nat) : Bytes :=
  (List.range n).map (fun i => sbByte (s.facet p).sb (a + i) (s.devByte (a + i)))

/-- Does `[a, a + n)` take in a word of HBM that an uncorrectable error has marked (04 Table 04.15)? -/
def State.markAt (s : State) (a n : Nat) : Bool :=
  s.marked.any (fun m => decide (a < 0x1000000000 + m / 8 * 8 + 8) && decide (0x1000000000 + m / 8 * 8 < a + n))
/-- A store writes the word anew. -/
def State.markClear (s : State) (a n : Nat) : State := if s.markAt a n then
    { s with marked := s.marked.filter (fun m => !(decide (a < 0x1000000000 + m / 8 * 8 + 8) && decide (0x1000000000 + m / 8 * 8 < a + n))) }
  else s
/-- A read of a marked word ends the work (04 Table 04.15). -/
def badMark (s : State) (p : Nat) : State := abandon s p 8 sInternal

/-! ## Loads and stores -/

/-- The data SRAM's ECC at an access to it (02 R25). True when the access may go on. -/
def sramEcc (e : Ecc) (p : Nat) (s : State) (a : Nat) : Bool × State :=
  if 0x20000 ≤ a then (true, s)
  else match e with
    | .ok => (true, s)
    | .corrected => (true, facetCorrected ((event s 1 evDsramCorr p).incSat F.FCT_ERRORS_DSRAM_CORR p) p)
    | .uncorrectable => (false, facetFault (abandon (sramUncorr s p) p 8 sInternal) p 3)

/-- Load `n` bytes at an address and pass them on; a refused access abandons the work. -/
def loadBytes (h : Slot) (s : State) (a n : Nat) (k : Bytes → State → State) : State :=
  let p := h.p.val
  match accessOk s p a n false with
  | (.none, s) => badAddr s p
  | (.loc, s) =>
    let r := sramEcc h.ecc p s a
    if r.1 then k (locRead (r.2.facet p) a n) r.2 else r.2
  | (.glob _ _, s) =>
    if s.markAt a n then badMark s p
    else
      let s := visible s
      k (globRead s p a n) s

/-- Store bytes at an address; a store to a shared memory enters the store buffer (03 R74). -/
def storeBytes (h : Slot) (s : State) (a : Nat) (d : Bytes) : State :=
  let p := h.p.val
  match accessOk s p a d.length true with
  | (.none, s) => badAddr s p
  | (.loc, s) =>
    let r := sramEcc h.ecc p s a
    if r.1 then r.2.modFacet p (fun f => locWrite f a d) else r.2
  | (.glob _ _, s) => (visible (s.markClear a d.length)).modFacet p (fun f => { f with sb := f.sb ++ [.store a d] })

/-! ## Lens permissions (02 Table 02.6) -/

/-- Is the use code loadable into K? -/
def useInK (u : Nat) : Bool := [1, 2, 3, 4, 5, 6, 7, 10, 11, 13, 14].contains u

/-- Directions a use code permits: 0 F, 1 I, 2 F1, 3 N. -/
def useDirs (u : Nat) : List Nat :=
  match u with
  | 1 => [0]
  | 2 => [0, 1]
  | 3 => [0]
  | 4 => [0, 1]
  | 5 => [0, 3]
  | 6 => [0, 2]
  | 7 => [0, 2]
  | 10 => [0]
  | 11 => [1]
  | 13 => [0, 2]
  | 14 => [0]
  | _ => []

/-- Entry classes a use code permits (02 Table 02.5A codes); CUSTODY passes for every code (02 R43). -/
def useClasses (u : Nat) : List Nat :=
  match u with
  | 1 => [1, 12]
  | 2 => [2, 12]
  | 3 => [3]
  | 4 => [4]
  | 5 => [5]
  | 6 => [6]
  | 7 => [7]
  | 10 => [8]
  | 11 => [8]
  | 13 => [9, 10]
  | 14 => [11]
  | _ => []

def classOk (u cls : Nat) : Bool := cls = 15 || (useClasses u).contains cls

/-- Is a block-register result permitted, and is it sealed? For CARDCRYPT in a CUSTODY entry it is sealed (log entry 10). -/
def useBlockDest (u cls : Nat) : Option Bool :=
  match u with
  | 1 => some false
  | 2 => some false
  | 3 => some false
  | 4 => some true
  | 6 => some false
  | 7 => some true
  | 10 => some false
  | 11 => some true
  | 13 => some (decide (cls ≠ 10))
  | 14 => some false
  | _ => none

def useDerivDest (u : Nat) : Bool := u = 3 || u = 4 || u = 5 || u = 13
def useSubjectDest (u : Nat) : Bool := u = 4

/-- Are sealed inputs accepted? -/
def useSealedIn (u cls : Nat) : Bool := u = 4 || u = 7 || u = 10 || u = 11 || (u = 13 && cls = 9)

/-- KSET and KVAR target use codes. -/
def useTargets (u : Nat) : List Nat :=
  match u with
  | 3 => [3]
  | 4 => [4]
  | 5 => [1, 2, 6, 7, 5, 14, 10, 11, 13]
  | 13 => [13]
  | _ => []

/-- The running entry's class; 0 where no entry runs. -/
def Facet.cls (f : Facet) : Nat := match f.entry with
  | some e => e.cls
  | none => 0

/-- Does K's algorithm have the direction (02 Table 02.3: F1 and N for TDES only)? -/
def algDir (alg dir : Nat) : Bool := decide (1 ≤ alg) && decide (alg ≤ 6) && (dir < 2 || alg = 4 || alg = 5)

/-! ## Lens blocks (02 R30, R31) -/

/-- Write one half of the derivation buffer. -/
def putDeriv (high : Bool) (y : Block) (f : Facet) : Facet :=
  let lowMask : W256 := BitVec.zeroExtend 256 (BitVec.allOnes 128)
  let y' : W256 := BitVec.zeroExtend 256 y
  let d := if high then (y' <<< 128) ||| (f.deriv &&& lowMask) else y' ||| (f.deriv &&& (lowMask <<< 128))
  { f with deriv := d }

/-- Keep a result in the subject lane under UNWRAP. -/
def putSubject (bytes : Bytes) (f : Facet) : Facet :=
  { f with subject := some (match f.subject with
      | some x => { x with kept := x.kept ++ bytes }
      | none => ⟨[], 0, bytes⟩) }

/-- Write a released result to its destination. -/
def lensWrite (s : State) (p : Nat) (o : LensOp) : State :=
  let y := lensOp o.alg o.dir o.key o.input ^^^ o.xorWith
  let n := algBlock o.alg
  let bytes := (blockBytes y).drop (16 - n)
  let s := match o.dst with
    | .reg b => setB s p b ⟨y, false, false, false, true⟩
    | .sealedReg b => setB s p b ⟨y, true, false, false, true⟩
    | .deriv hi => s.modFacet p (putDeriv hi y)
    | .subject => s.modFacet p (putSubject bytes)
    | .hsub => s.modFacet p (fun f => { f with hsub := y })
    | .frame off => match (s.curFrame p).bind (fun x => (frameIdx x off n).map (fun i => (x.id, i))) with
        | some (id, i) => modFrame s id (fun x => { x with buf := spliceBytes x.buf i bytes })
        | none => badAddr s p
    | .memory a => match accessOk s p a n true with
        | (.none, s) => badAddr s p
        | (.loc, s) => s.modFacet p (fun f => locWrite f a bytes)
        | (.glob _ _, s) => (s.markClear a n).modFacet p (fun f => { f with sb := f.sb ++ [.store a bytes] })
  match o.fold with
  | 0 => s
  | 1 => perf (s.modFacet p (fun f => { f with acc := ghashFold f.hsub f.acc y })) p 7 1
  | _ => perf (s.modFacet p (fun f => { f with acc := ghashFold f.hsub f.acc o.foldWith })) p 7 1

/-- Release the oldest block in flight (02 R30). -/
def lensRelease (s : State) (p : Nat) : State :=
  match (s.facet p).lens with
  | [] => s
  | o :: r => perf (lensWrite (s.modFacet p (fun f => { f with lens := r })) p o) p (4 + o.lens) 1

/-- Release every block in flight: what a dependent instruction waits for. -/
def lensDrain (fuel : Nat) (s : State) (p : Nat) : State :=
  match fuel with
  | 0 => s
  | n + 1 => if (s.facet p).lens = [] then s else lensDrain n (lensRelease s p) p

/-- Bytes that a recipe reads from memory: refused as a load is (03 R53, R54), with the ECC of a load (02 R25). -/
def seqMem (e : Ecc) (s : State) (p a n : Nat) : Option Bytes × State :=
  match accessOk s p a n false with
  | (.none, s) => (none, badAddr s p)
  | (.loc, s) =>
    let r := sramEcc e p s a
    (if r.1 then some (locRead (r.2.facet p) a n) else none, r.2)
  | (.glob _ _, s) => if s.markAt a n then (none, badMark s p) else
    let s := visible s
    (some (globRead s p a n), s)

/-- The input of block `i` of a recipe: memory, the counter block register, or frame data. -/
def seqInput (e : Ecc) (s : State) (p : Nat) (sl : SeqSlot) (n : Nat) : Option Bytes × State :=
  let a := subField sl.recipe 8 8 + n * sl.next
  match subField sl.recipe 0 1 with
  | 0 => seqMem e s p a n
  | 1 => (some (blockBytes (tget BReg.zero (s.facet p).b sl.ctr).val), s)
  | _ => match (s.curFrame p).bind (fun x => (frameIdx x (signed16 a) n).map (fun k => sliceBytes x.buf k n)) with
    | some d => (some d, s)
    | none => (none, badAddr s p)

/-- Does 02 Table 02.6 permit what a recipe does under K in the running entry? -/
def recipePermitted (f : Facet) (recipe : Bytes) (k : KReg) : Bool :=
  classOk k.use f.cls && (useDirs k.use).contains (byteAt recipe 1) && decide (useBlockDest k.use f.cls = some false) &&
    algDir k.alg (byteAt recipe 1)

/-- Is a recipe's counter register a sealed input that K does not accept (02 R46)? -/
def recipeSealed (f : Facet) (recipe : Bytes) (ctr : Nat) (k : KReg) : Bool :=
  decide (byteAt recipe 0 = 1) && (tget BReg.zero f.b ctr).sld && !(useSealedIn k.use f.cls)

/-- The next block of a running sequencer slot under K (03 Table 03.4A), pushed into its lens. The XOR operand is read where the
recipe uses it. -/
def seqPush (e : Ecc) (s : State) (p q : Nat) (sl : SeqSlot) (k : KReg) : State :=
  let n := algBlock k.alg
  let i := sl.next
  let flags := subField sl.recipe 2 1
  let fold := if flags / 2 % 2 = 0 then 0 else if flags / 4 % 2 = 0 then 1 else 2
  let block := fun (d : Bytes) => blockOf (List.replicate (16 - d.length) 0 ++ d)
  match seqInput e s p sl n with
  | (none, s) => s
  | (some input, s) =>
    match (if flags % 2 = 1 ∨ fold = 2 then seqMem .ok s p (subField sl.recipe 16 8 + subField sl.recipe 32 2 * i) n else (some [], s)) with
    | (none, s) => s
    | (some x, s) =>
      let ctr := tget BReg.zero (s.facet p).b sl.ctr
      let da := subField sl.recipe 24 8 + n * i
      let src := subField sl.recipe 0 1
      let op : LensOp := { lens := i % 2, alg := k.alg, key := k.key, dir := subField sl.recipe 1 1, input := block input
                           dst := if src = 2 then .frame (signed16 da) else .memory da
                           xorWith := if flags % 2 = 1 then block x else 0, fold := fold, foldWith := block x }
      let cb := blockBytes ctr.val
      let newCtr := blockOf (cb.take 12 ++ beBytes 4 (beNat (cb.drop 12) + subField sl.recipe 3 1))
      let s := s.modFacet p (fun f => { f with
        lens := f.lens ++ [op], seq := tset none f.seq q (some { sl with left := sl.left - 1, next := i + 1 }) })
      perf (if src = 1 then setB s p sl.ctr (bres newCtr ctr.sld) else s) p 6 1

/-- A running slot issues its next block as a single lens instruction does: not while an LDK is pending, not under an empty K, and only
as 02 Table 02.6 permits (02 Lenses, R35, R38, R46). -/
def seqIssue (e : Ecc) (s : State) (p q : Nat) : State :=
  let f := s.facet p
  match tget none f.seq q with
  | none => s
  | some sl =>
    if sl.left = 0 ∨ f.ldk.isSome then s
    else match f.k with
      | none => abandon s p 3 (emptyKStatus s p)
      | some k =>
        if !(recipePermitted f sl.recipe k) then badUse s p
        else if recipeSealed f sl.recipe sl.ctr k then badSeal s p
        else seqPush e s p q sl k

/-- Run a sequencer slot until its last block has been released; `e` is what the ECC finds at its next block (log entry 208). -/
def seqRun (e : Ecc) (fuel : Nat) (s : State) (p q : Nat) : State :=
  match fuel with
  | 0 => s
  | n + 1 =>
    match tget none (s.facet p).seq q with
    | some sl => if sl.left = 0 then s else seqRun .ok n (lensDrain 1 (seqIssue e s p q) p) p q
    | none => s

/-- The blocks still to come in a slot. -/
def seqLeft (s : State) (p q : Nat) : Nat := match tget none (s.facet p).seq q with
  | some sl => sl.left
  | none => 0

/-- Is a running slot held back by a pending LDK (02 R38)? What waits for the slot waits with it. -/
def seqHeld (f : Facet) : Bool := f.ldk.isSome && f.seq.any (fun e => match e.2 with
  | some q => decide (0 < q.left)
  | none => false)

/-- Wait for everything in flight: the lenses, then every running slot in order. -/
def settleLens (e : Ecc) (s : State) (p : Nat) : State :=
  let s := lensDrain (s.facet p).lens.length s p
  [0, 1, 2, 3].foldl (fun s q => seqRun e (seqLeft s p q) s p q) s

end Sys2Proof.Machine
end

