-- ==== Sys2Proof/Machine/FacetMem.lean ====
section
/-! DEFINITION. Machine/FacetMem.lean: a facet's loads, stores, atomics, fences and vector instructions (03 Table 03.3
majors 0x10 to 0x1E). -/

namespace Sys2Proof.Machine

open Sys2Proof

/-- What an instruction on block registers or the GF unit waits for: every block in flight is released and every running
slot has ended (02 R30, R78). Where a released block's write ended the work, the instruction is gone with it: the clearing
of 02 R27 set the program counter to 0, which an issued instruction never leaves there. -/
def afterLens (h : Slot) (k : State → State) (s : State) : State :=
  let s := settleLens h.ecc s h.p
  if (s.facet h.p).pc = 0 then s else k s

/-- Issue an instruction that waits for the lenses and the sequencer; it is held back while a running slot waits for an LDK. -/
def issueLens (h : Slot) (s : State) (regs : List Nat) (k : State → State) : State :=
  if !(s.facet h.p).squash && seqHeld (s.facet h.p) then s else issue h s regs (afterLens h k)

/-- A load of `n` bytes into a general register; the first byte is the least significant (log entry 16), and a shorter load
fills the register with zeros or with the sign, which is free (log entry 15). -/
def loadG (h : Slot) (d s1 : GR) (imm : BitVec 16) (n : Nat) (s : State) : State :=
  issue h s [d.val, s1.val] (fun s => loadBytes h s (effAddr s h.p s1 imm) n (fun b s =>
    let v := leNat b
    let x := if Config.loadSigned ∧ 2 ^ (8 * n - 1) ≤ v then v + (2 ^ 64 - 2 ^ (8 * n)) else v
    setG s h.p d (BitVec.ofNat 64 x)))

/-- A store of the low `n` bytes of a general register. -/
def storeG (h : Slot) (d s1 : GR) (imm : BitVec 16) (n : Nat) (s : State) : State :=
  issue h s [d.val, s1.val] (fun s => storeBytes h s (effAddr s h.p s1 imm) (leBytes n (getG s h.p d).toNat))

def execLdb (h : Slot) (d s1 : GR) (imm : BitVec 16) (s : State) : Host.Outcome State Fault Refusal := .next (loadG h d s1 imm 1 s)
def execLdh (h : Slot) (d s1 : GR) (imm : BitVec 16) (s : State) : Host.Outcome State Fault Refusal := .next (loadG h d s1 imm 2 s)
def execLdw (h : Slot) (d s1 : GR) (imm : BitVec 16) (s : State) : Host.Outcome State Fault Refusal := .next (loadG h d s1 imm 4 s)
def execLdd (h : Slot) (d s1 : GR) (imm : BitVec 16) (s : State) : Host.Outcome State Fault Refusal := .next (loadG h d s1 imm 8 s)
def execStb (h : Slot) (d s1 : GR) (imm : BitVec 16) (s : State) : Host.Outcome State Fault Refusal := .next (storeG h d s1 imm 1 s)
def execSth (h : Slot) (d s1 : GR) (imm : BitVec 16) (s : State) : Host.Outcome State Fault Refusal := .next (storeG h d s1 imm 2 s)
def execStw (h : Slot) (d s1 : GR) (imm : BitVec 16) (s : State) : Host.Outcome State Fault Refusal := .next (storeG h d s1 imm 4 s)
def execStd (h : Slot) (d s1 : GR) (imm : BitVec 16) (s : State) : Host.Outcome State Fault Refusal := .next (storeG h d s1 imm 8 s)

/-- VLD: 32 bytes, the first the least significant (log entry 16). -/
def execVld (h : Slot) (v : VR) (s1 : GR) (imm : BitVec 16) (s : State) : Host.Outcome State Fault Refusal :=
  .next (issue h s [s1.val] (fun s => loadBytes h s (effAddr s h.p s1 imm) 32 (fun b s =>
    setV s h.p v (BitVec.ofNat 256 (leNat b)))))

def execVst (h : Slot) (v : VR) (s1 : GR) (imm : BitVec 16) (s : State) : Host.Outcome State Fault Refusal :=
  .next (issue h s [s1.val] (fun s => storeBytes h s (effAddr s h.p s1 imm) (leBytes 32 (getV s h.p v).toNat)))

/-- BLD: 16 bytes, the first the most significant (00 R3); the register is open (02 R44). -/
def execBld (h : Slot) (b : BR) (s1 : GR) (imm : BitVec 16) (s : State) : Host.Outcome State Fault Refusal :=
  .next (issueLens h s [s1.val] (fun s => loadBytes h s (effAddr s h.p s1 imm) 16 (fun d s =>
    setB s h.p b (bres (blockOf d) false))))

/-- BST: a store of an open block register; a sealed one is refused (02 R46). -/
def execBst (h : Slot) (b : BR) (s1 : GR) (imm : BitVec 16) (s : State) : Host.Outcome State Fault Refusal :=
  .next (issueLens h s [s1.val] (fun s =>
    if (getB s h.p b).sld then badSeal s h.p
    else storeBytes h s (effAddr s h.p s1 imm) (blockBytes (getB s h.p b).val)))

/-- An atomic: one indivisible read and write of the aligned 64-bit word that holds the address, between two full fences;
only HBM and shared SRAM take one (03 R76). `f` gives the word to write, or none. -/
def amo (h : Slot) (d s1 : GR) (s2 : GR) (f : State → W64 → Option W64 × State) (s : State) : State :=
  issue h s [d.val, s1.val, s2.val] (fun s =>
    let p := h.p.val
    let a := (getG s p s1).toNat / 8 * 8
    match accessOk s p a 8 false with
    | (.glob u _, s) =>
      if u = 2 ∨ u = 3 then badAddr s p
      else if s.markAt a 8 then badMark s p
      else match accessOk s p a 8 true with
        | (.glob _ _, s) =>
          let s := drainAll (visible s) p
          let old := BitVec.ofNat 64 (leNat (memRead s.gmem a 8))
          let r := f s old
          let s := match r.1 with
            | some x => { r.2 with gmem := memWrite r.2.gmem a (leBytes 8 x.toNat) }
            | none => r.2
          setG s p d old
        | (_, s) => badAddr s p
    | (_, s) => badAddr s p)

def execAmoswap (h : Slot) (d s1 s2 : GR) (s : State) : Host.Outcome State Fault Refusal :=
  .next (amo h d s1 s2 (fun s _ => (some (getG s h.p s2), s)) s)
def execAmoadd (h : Slot) (d s1 s2 : GR) (s : State) : Host.Outcome State Fault Refusal :=
  .next (amo h d s1 s2 (fun s old => (some (old + getG s h.p s2), s)) s)
/-- AMOCAS: the expected value stands in d and the new one in s2 (log entry 17); EQ tells whether they were equal. -/
def execAmocas (h : Slot) (d s1 s2 : GR) (s : State) : Host.Outcome State Fault Refusal :=
  .next (amo h d s1 s2 (fun s old =>
    let e := decide (old = getG s h.p d)
    (if e then some (getG s h.p s2) else none, setEq s h.p e)) s)

/-- FENCE.SL: every earlier store becomes visible before a later load (03 R75). -/
def execFenceSl (h : Slot) (s : State) : Host.Outcome State Fault Refusal := .next (issue h s [] (fun s => drainAll s h.p))
/-- FENCE.SS: no later store becomes visible before an earlier one (03 R75). -/
def execFenceSs (h : Slot) (s : State) : Host.Outcome State Fault Refusal :=
  .next (issue h s [] (fun s => if (s.facet h.p).sb = [] then s else s.modFacet h.p (fun f => { f with sb := f.sb ++ [.barrier] })))
/-- FENCE.FULL does both (03 R75). -/
def execFenceFull (h : Slot) (s : State) : Host.Outcome State Fault Refusal := .next (issue h s [] (fun s => drainAll s h.p))

/-- An instruction on two vector registers. -/
def vec (h : Slot) (d s1 s2 : VR) (f : W256 → W256 → W256) (s : State) : State :=
  issue h s [] (fun s => setV s h.p d (f (getV s h.p s1) (getV s h.p s2)))

def execVxor (h : Slot) (d s1 s2 : VR) (s : State) : Host.Outcome State Fault Refusal := .next (vec h d s1 s2 (· ^^^ ·) s)
def execVand (h : Slot) (d s1 s2 : VR) (s : State) : Host.Outcome State Fault Refusal := .next (vec h d s1 s2 (· &&& ·) s)
/-- VADD: its lane width is open (log entry 18). -/
def execVadd (h : Slot) (d s1 s2 : VR) (s : State) : Host.Outcome State Fault Refusal :=
  .next (vec h d s1 s2 (Config.vectorOp 0) s)
/-- VPERM: its index rule is open (log entry 18). -/
def execVperm (h : Slot) (d s1 s2 : VR) (s : State) : Host.Outcome State Fault Refusal :=
  .next (vec h d s1 s2 (Config.vectorOp 1) s)
/-- VMOVG: which part of the vector register moves is open (log entry 18). -/
def execVmovg (h : Slot) (toVector : Bool) (v : VR) (g : GR) (s : State) : Host.Outcome State Fault Refusal :=
  .next (issue h s [g.val] (fun s =>
    if toVector then setV s h.p v (Config.vmovToVector (getV s h.p v) (getG s h.p g))
    else setG s h.p g (Config.vmovToGeneral (getV s h.p v) (getG s h.p g))))

end Sys2Proof.Machine
end

