-- ==== Sys2Proof/Machine/Records.lean ====
section
/-! DEFINITION. Machine/Records.lean: handles, key records, poisoning, the keys of the hierarchy, records as bytes and the sealing of a
page (04 R79, R82 to R87, R95, R96; 05 R108). -/

namespace Sys2Proof.Machine

open Sys2Proof

/-! ## Events -/

def evCrcMismatch : Nat := 0x0301
def evExpStall : Nat := 0x0302
def evAckBeyond : Nat := 0x0303
def evKsWriter : Nat := 0x0304
def evUncorrectable : Nat := 0x0305
def evRestored : Nat := 0x0306
def evQuorum : Nat := 0x0401
def evOptBlock : Nat := 0x0402
def evBlockAuth : Nat := 0x0403
def evKcvMismatch : Nat := 0x0404
def evLimitNear : Nat := 0x0405
def evExhausted : Nat := 0x0406

/-! ## Record states (04 R525) -/

def kEmpty : Nat := 0
def kActive : Nat := 1
def kPending : Nat := 2
def kRetired : Nat := 3
def kExhausted : Nat := 4
def kDestroyed : Nat := 5

/-! ## Handles (04 R79) -/

def hIdx (h : Nat) : Nat := h % 33554432
def hGen (h : Nat) : Nat := h / 33554432 % 128
def mkHandle (gen idx : Nat) : Nat := gen * 33554432 + idx % 33554432
def pageOf (idx : Nat) : Nat := idx / 32

/-- The index space of an owner (13 R348): 0 the node's own, 1 + n the set taken over from node n. Record `i` of space `k`
stands under key `k * 2^25 + i`, its page under `k * 2^20 + page`. -/
def spaceOf (s : State) (o : Nat) : Nat :=
  match s.ring.taken.find? (fun t => t.owners.contains o) with
  | some t => t.home + 1
  | none => 0

/-- The record that a handle names for an owner. -/
def kidx (s : State) (o h : Nat) : Nat := spaceOf s o * 33554432 + hIdx h

/-- The space of a record, and of a page. -/
def idxSpace (i : Nat) : Nat := i / 33554432
def pageSpace (p : Nat) : Nat := p / 1048576

/-- The key of a handle in a table shared by the spaces. -/
def spaceHandle (i h : Nat) : Nat := idxSpace i * 4294967296 + h

def State.krec (s : State) (i : Nat) : KeyRec := tget KeyRec.empty s.ks.recs i
def State.leaf (s : State) (p : Nat) : Leaf := tget Leaf.free s.ks.leaves p
def setKs (s : State) (k : KsSt) : State := { s with ks := k }
def setLeaf (s : State) (p : Nat) (l : Leaf) : State := setKs s { s.ks with leaves := tset Leaf.free s.ks.leaves p l }

/-- Is the record live: neither EMPTY nor DESTROYED? -/
def KeyRec.live (r : KeyRec) : Bool := decide (r.state ≠ 0) && decide (r.state ≠ 5)

/-- Is a record POISONED: in the poison table, or on a page poisoned as a whole (04 R87)? -/
def isPoisoned (s : State) (i : Nat) : Bool :=
  (s.krec i).live && (s.ks.poison.any (fun e => e.index == i) || (s.leaf (pageOf i)).pois)

/-- Show the poison table's size. -/
def showPoison (s : State) : State := s.poke F.KS_STATUS_POISON_ENTRIES s.ks.poison.length

/-- Poison a record (04 R86, R87). Causes: 1 uncorrectable word, 2 CRC mismatch, 3 lost page, 4 failed group. -/
def poisonRec (s : State) (i cause : Nat) : State :=
  if s.ks.poison.any (fun e => e.index == i) then s
  else if s.ks.poison.length < 1024 then
    showPoison (setKs s { s.ks with poison := s.ks.poison ++ [⟨(s.krec i).handle, i, s.mtick, cause⟩] })
  else setLeaf s (pageOf i) { s.leaf (pageOf i) with pois := true }

/-- Is the record cached? -/
def cached (s : State) (i : Nat) : Bool := (tget none s.ks.cache i).isSome

/-- Mark a page as having a change that no sealed version carries. -/
def touchPage (s : State) (p : Nat) : State := setKs s { s.ks with toSeal := sput s.ks.toSeal p }

/-! ## Keys of the hierarchy (05 R108, Table 05.1) -/

/-- The root registers: the device root secret and the device KEK, formed in step 5 and held until an S-reset or P-reset; the flow-context key that the prism key
lane takes from them (09 R246). -/
def rootSecret (s : State) : Bytes := (s.sec.root.getD ([], [])).1
def deviceKek (s : State) : Bytes := (s.sec.root.getD ([], [])).2
def formKeys (s : State) : State :=
  let r := kdf Config.pufKey "PH64-ROOT" s.sec.seed
  let k := kdf r "PH64-DKEK" (s.sec.share.getD [])
  { s with sec := { s.sec with root := some (r, k) }, str := { s.str with lane := some (kdf k "PH64-FLOW" []) } }
def kekCheckOf (s : State) : Nat := leNat ((kdf (deviceKek s) "PH64-KCHK" []).take 8)

/-- The page key of an owner's pages; pages 0 to 127 take the device-KEK page key. -/
def ownerKey (s : State) (o : Nat) : Bytes :=
  kdf (deviceKek s) "PH64-OPSK" (beBytes 2 o ++ (s.krec (spaceOf s o * 33554432 + o)).material)
def pageKey (s : State) (p : Nat) : Option Bytes :=
  if p % 1048576 < 128 then some (kdf (deviceKek s) "PH64-PG00" [])
  else tget none s.ownKeys (s.leaf p).owner

/-- The transfer key of a save, by its nonce (14 R372). -/
def saveKey (s : State) (o : Nat) (nonce : Bytes) : Bytes := kdf (deviceKek s) "PH64-MIGT" (beBytes 2 o ++ nonce)

/-- Derive an owner's page-sealing key into the owner-key table (05 R111). While an owner is restored or saved, its transfer key
stands in its place (14 R372, R375). -/
def deriveOwnerKey (s : State) (o : Nat) : State :=
  let nonce := (tget Owner.absent s.own o).nonce
  let key := match s.slots.find? (fun x => x.owner == o) with
    | some x => x.tk
    | none => if nonce = [] then ownerKey s o else saveKey s o nonce
  { s with ownKeys := tset none s.ownKeys o (some key) }

/-! ## Records as bytes (04 Table 04.1) -/

def kindByte (r : KeyRec) : Nat := b2n r.ext + 4 * r.origin
def recFlags (r : KeyRec) : Nat := b2n r.exportable + 2 * b2n r.counted + 4 * b2n r.focusBound

/-- Bytes 0 to 119 of a record. -/
def recBody (r : KeyRec) : Bytes :=
  leBytes 4 r.handle ++ leBytes 1 r.state ++ leBytes 1 r.use ++ leBytes 1 (recFlags r) ++ leBytes 1 r.alg ++
    leBytes 2 r.owner ++ leBytes 1 (kindByte r) ++ leBytes 1 r.klen ++ leBytes 4 r.linked ++ leBytes 8 r.uses ++
    leBytes 8 r.limit ++ leBytes 8 r.hw ++ leBytes 6 r.grace ++ leBytes 2 r.focus ++ fitBytes 5 r.kcv ++
    leBytes 1 r.kcvMethod ++ [0, 0] ++ leBytes 3 r.granule ++ leBytes 1 r.granules ++ leBytes 4 r.bodyLen ++
    fitBytes 32 r.material ++ fitBytes 16 r.bodyTag ++ fitBytes 8 r.label

/-- The 128 bytes of a record at a device HBM address. -/
def recBytes (r : KeyRec) (addr : Nat) : Bytes := recBody r ++ leBytes 8 (checkValue 2 (some addr) (recBody r))

/-- The record that 128 bytes hold. -/
def recParse (b : Bytes) : KeyRec :=
  if byteAt b 4 = 0 then KeyRec.empty
  else
    let n := fun (o k : Nat) => leNat (sliceBytes b o k)
    let ext := (n 10 1).testBit 0
    { handle := n 0 4, state := n 4 1, use := n 5 1, exportable := (n 6 1).testBit 0, counted := (n 6 1).testBit 1
      focusBound := (n 6 1).testBit 2, alg := n 7 1, owner := n 8 2, ext := ext, origin := n 10 1 / 4 % 8, klen := n 11 1
      linked := n 12 4, uses := n 16 8, limit := n 24 8, hw := n 32 8, grace := n 40 6, focus := n 46 2
      kcv := sliceBytes b 48 (if n 53 1 = 0 then 3 else 5), kcvMethod := n 53 1, granule := n 56 3, granules := n 59 1
      bodyLen := n 60 4, material := sliceBytes b 64 (if ext then 32 else n 11 1)
      bodyTag := if ext then sliceBytes b 96 16 else [], label := sliceBytes b 112 8 }

/-! ## Sealing (04 R95, R96) -/

def pageIv (p v : Nat) : Bytes := beBytes 4 (p % 1048576) ++ beBytes 8 v
def pageAad (p owner live v : Nat) : Bytes :=
  beBytes 4 (p % 1048576) ++ beBytes 2 owner ++ beBytes 1 live ++ beBytes 1 1 ++ beBytes 8 v

/-- The records of a page in slot order. -/
def pageRecs (s : State) (p : Nat) : List KeyRec := (List.range 32).map (fun k => s.krec (p * 32 + k))
def liveCount (l : List KeyRec) : Nat := (l.filter (fun r => r.live)).length
def pagePlain (s : State) (p : Nat) : Bytes :=
  (List.range 32).flatMap (fun k => recBytes (s.krec (p * 32 + k)) ((p % 1048576 * 32 + k) * 128))

/-- The records a sealed page holds, under its key. -/
def unsealPage (key : Bytes) (x : PageSlot) : List KeyRec :=
  (pieces 128 (gcmCrypt 3 key (pageIv x.page x.version) x.payload)).map recParse

/-- The seal epoch of a space (04 R96, 13 R348). -/
def epochOf (s : State) (sp : Nat) : Nat :=
  if sp = 0 then s.ks.epoch
  else match s.ring.taken.find? (fun t => t.home + 1 == sp) with
    | some t => t.epoch
    | none => 0
def setEpoch (s : State) (sp e : Nat) : State :=
  if sp = 0 then setKs s { s.ks with epoch := e }
  else setRing s { s.ring with taken := s.ring.taken.map (fun t => if t.home + 1 = sp then { t with epoch := e } else t) }

/-- The export ring's size, and whether it is full (04 R97). -/
def State.expSize (s : State) : Nat := 2 ^ s.get F.KS_EXP_SIZE_LOG2_SLOTS
def State.expUsed (s : State) : Nat := (s.get F.KS_EXP_PROD + 4294967296 - s.get F.KS_EXP_ACK) % 4294967296
def expUpdate (s : State) : State := s.poke F.KS_STATUS_EXP_FULL (b2n (decide (s.expSize ≤ s.expUsed)))

/-- The export trailer (04 Table 04.4). -/
def slotTrailer (x : PageSlot) (seq : Nat) : Bytes :=
  let b := leBytes 4 0x4B535047 ++ leBytes 4 (x.page % 4294967296) ++ leBytes 2 x.owner ++ leBytes 1 x.live ++ leBytes 1 1 ++
    leBytes 1 x.kind ++ leBytes 1 x.part ++ leBytes 1 x.space ++ [0] ++ leBytes 8 x.version ++ fitBytes 16 x.tag ++
    leBytes 8 seq
  b ++ leBytes 4 (crc32c x.page b) ++ List.replicate 12 0

/-- Seal a page at its next version and queue its export entry. While the ring is full the new version replaces an older
pending one of the same page (04 R96, R97). A page whose sealing key is not held cannot be sealed (05 R111). -/
def resealPage (s : State) (p : Nat) : State :=
  match pageKey s p with
  | none => s
  | some key =>
    let l := s.leaf p
    let sp := pageSpace p
    let owner := if p % 1048576 < 128 then 0 else l.owner
    let wrap := decide (l.cur % 4294967296 = 4294967295)
    let s := if wrap then setEpoch s sp (epochOf s sp + 1) else s
    let v := epochOf s sp * 4294967296 + (l.cur + 1) % 4294967296
    let live := liveCount (pageRecs s p)
    let plain := pagePlain s p
    let c := gcmCrypt 3 key (pageIv p v) plain
    let tag := gcmTag 3 key (pageIv p v) (pageAad p owner live v) c
    let s := if sp = 0 then { s with gmem := memWrite s.gmem (0x1000000000 + p * 4096) c } else s
    let s := setLeaf s p { l with cur := v, pend := true, owner := owner }
    let x : PageSlot := ⟨0, p % 1048576, owner, live, 0, sp, v, tag, c⟩
    let old := if s.is F.KS_STATUS_EXP_FULL then
        s.ks.pendExp.filter (fun y => !(decide (y.kind = 0) && decide (y.page = p % 1048576) && decide (y.space = sp)))
      else s.ks.pendExp
    setKs s { s.ks with
      pendExp := old ++ [x]
      toSeal := sdel s.ks.toSeal p
      waits := s.ks.waits.map (fun w => if w.page = p ∧ w.version.isNone ∧ !(w.wipe.any (fun i => s.ks.wiping.contains i)) then { w with version := some v } else w)
      cache := tmap none (fun k c => if pageOf k = p then c.map (fun e => { e with dirty := false }) else c) s.ks.cache }

/-! ## Records that fail (04 R83, R106) -/

/-- An uncorrectable word or a CRC mismatch in a key record (04 R83, Table 04.15). -/
def keyWordBad (s : State) (i cause : Nat) (ev : State → Nat → State) : State :=
  if hIdx i < 4096 then critical (ev s 4) 2 (leBytes 8 (i * 128))
  else if (s.krec i).live ∧ (s.leaf (pageOf i)).owner ≠ 0xFFFF then
    poisonRec (ev (s.raise F.KS_SCRUB_STATUS_UNCORR) 3) i cause
  else ev (s.raise F.KS_SCRUB_STATUS_UNCORR) 2


/-- A record that fails its check at a fill: an uncorrectable word, recorded at severity 5 as well (04 R83). -/
def recordBad (s : State) (i : Nat) : State :=
  keyWordBad (event s 5 evCrcMismatch 128 0xFFFF (leBytes 8 (i * 128))) i 2
    (fun s sev => event s sev evUncorrectable 128 0xFFFF (leBytes 8 (i * 128)))

end Sys2Proof.Machine
end

