-- ==== Sys2Proof/Machine/KeyStore.lean ====
section
/-! DEFINITION. Machine/KeyStore.lean: the key store's shared operations (04, 05): the cache, the checks of a load, leases,
allocation and check values. -/

namespace Sys2Proof.Machine

open Sys2Proof

/-! ## The clear-record cache (04 R88, R90) -/

/-- The least recently used of the cached entries that satisfy `q`. -/
def lru (l : Tab (Option CacheEnt)) (q : CacheEnt → Bool) : Option Nat :=
  (l.foldl (fun (acc : Option (Nat × Nat)) e => match e.2 with
    | some c => if q c then
        match acc with
        | some (_, a) => if c.age < a then some (e.1, c.age) else acc
        | none => some (e.1, c.age)
      else acc
    | none => acc) none).map Prod.fst

/-- Take a record into the cache, evicting the least recently used entry of its set: a clean unpinned one, else a dirty
unpinned one, whose page is re-sealed first; a set whose 8 ways are all pinned serves the record uncached (04 R88, R90). -/
def cacheTake (s : State) (i : Nat) (dirty : Bool) : State :=
  let t := s.ks.cacheTick + 1
  let put := fun (s : State) (c : CacheEnt) => setKs s { s.ks with cache := tset none s.ks.cache i (some c), cacheTick := t }
  match tget none s.ks.cache i with
  | some c => put s { c with age := t, dirty := c.dirty || dirty }
  | none =>
    let set := tfilter (fun k _ => k % 1024 == i % 1024) s.ks.cache
    if set.length < 8 then put s ⟨false, dirty, t⟩
    else match lru set (fun c => !c.pinned && !c.dirty) with
      | some v => put (setKs s { s.ks with cache := tset none s.ks.cache v none }) ⟨false, dirty, t⟩
      | none => match lru set (fun c => !c.pinned) with
        | some v =>
          let s := resealPage s (pageOf v)
          put (setKs s { s.ks with cache := tset none s.ks.cache v none }) ⟨false, dirty, t⟩
        | none => s

/-- Write a record, which the cache holds; dirty where its use count moves (04 R90). -/
def putRec (s : State) (i : Nat) (r : KeyRec) : State :=
  cacheTake (setKs s { s.ks with recs := tset KeyRec.empty s.ks.recs i r }) i (decide (r.uses ≠ (s.krec i).uses))

/-- Write a record whose state or attributes changed: it is pinned until its page's durable version catches up (04 R88),
and its page is to be re-sealed. -/
def changeRec (s : State) (i : Nat) (r : KeyRec) : State :=
  let s := putRec s i r
  let s := match tget none s.ks.cache i with
    | some c => setKs s { s.ks with cache := tset none s.ks.cache i (some { c with pinned := true }) }
    | none => s
  touchPage s (pageOf i)

/-! ## Checks of a load (02 Table 02.5) -/

/-- Check 2 and 3: the status of naming a handle, and its record (04 R103, R104 for lost pages and failed groups). -/
def keyFind (s : State) (owner : Nat) (inner : Bool) (h : Nat) : Nat × KeyRec :=
  let r := s.krec (kidx s owner h)
  let l := s.leaf (pageOf (kidx s owner h))
  if hGen h = 0 then (sKeyAbsent, r)
  else if l.gfail then (sKeyPoisoned, r)
  else if l.lost then
    (if l.owner = owner ∨ (inner ∧ l.owner = 0) then sKeyPoisoned else sKeyAbsent, r)
  else if !r.live ∨ r.handle ≠ h ∨ ¬(r.owner = owner ∨ (inner ∧ r.owner = 0)) then (sKeyAbsent, r)
  else if isPoisoned s (kidx s owner h) then (sKeyPoisoned, r)
  else (sOk, r)

/-- The end of a grace window that opens at an instant in nanoseconds: its seconds, rounded up, plus the grace period; with a
grace period of 0 the key fails from the instant on (05 R135, R136, R139). -/
def graceEnd (t period : Nat) : Nat := if period = 0 then t / 1000000000 else ceilDiv t 1000000000 + period

/-- The ARMED KEY_ACTIVATE entries of an owner whose instants are not after `acc`: handle and instant (10 R291). -/
def actsDue (s : State) (o acc : Nat) : List (Nat × Nat) := s.foc.table.filterMap (fun e => e.2.bind (fun x =>
  if x.typ = 1 ∧ x.st = 1 ∧ x.owner = o ∧ x.instant ≤ acc then some (leNat (sliceBytes x.params 0 4), x.instant) else none))

/-- The state and the grace end that a record has for work accepted at `acc`: a change made by a focus action holds for work accepted at
or after its instant and for no earlier work, whether the action has executed yet or not (05 R137, 10 R291). -/
def stateAt (s : State) (r : KeyRec) (acc : Nat) : Nat × Nat :=
  let later := fun (h : Nat) => s.acted.any (fun e => decide (e.1 = r.owner) && decide (e.2.1 = h) && decide (acc < e.2.2))
  let due := actsDue s r.owner acc
  if r.state = kPending then (if due.any (fun e => decide (e.1 = r.handle)) then (kActive, 0) else (kPending, r.grace))
  else if later r.handle then (kPending, r.grace)
  else if r.state = kRetired then (if later r.linked then (kActive, 0) else (kRetired, r.grace))
  else if r.state = kActive then
    match due.find? (fun e => decide ((s.krec (kidx s r.owner e.1)).state = kPending) &&
        decide ((s.krec (kidx s r.owner e.1)).linked = r.handle)) with
    | some e => (kRetired, graceEnd e.2 (s.krec (kidx s r.owner e.1)).grace)
    | none => (kActive, r.grace)
  else (r.state, r.grace)

/-- Checks 2 to 7: the status, and the record. -/
def keyCheck (s : State) (owner : Nat) (inner : Bool) (acc h use : Nat) : Nat × KeyRec :=
  let f := keyFind s owner inner h
  if f.1 ≠ sOk then f
  else
    let st := stateAt s f.2 acc
    if st.1 = kPending then (sKeyPending, f.2)
    else if st.1 = kRetired ∧ st.2 ≤ s.nowSec then (sKeyRetired, f.2)
    else if f.2.use ≠ use then (sKeyUse, f.2)
    else if f.2.counted ∧ f.2.limit ≤ f.2.uses then (sKeyExhausted, f.2)
    else (sOk, f.2)

/-! ## Leases (04 R92 to R94) -/

/-- Does the mark set of a record hold no entry for it and no free one? -/
def markFull (s : State) (i : Nat) : Bool :=
  tget 0 s.ks.marks (spaceHandle i (s.krec i).handle) = 0 &&
    decide (8 ≤ ((tfilter (fun k _ => hIdx k % 16384 == i % 16384) s.ks.marks)).length)

/-- Does the record stand at the end of its lease? -/
def KeyRec.leaseSpent (r : KeyRec) : Bool := r.counted && decide (r.uses = r.hw) && decide (r.hw < r.limit)

/-- The event of a lease advance that nears the limit (05 R142): the first one after each reload. -/
def nearEvent (s : State) (i : Nat) (r : KeyRec) : State :=
  if r.limit - max 4096 ((r.limit + 15) / 16) ≤ r.hw ∧ !(s.ks.nearSeen.contains (spaceHandle i r.handle)) then
    event (setKs s { s.ks with nearSeen := sput s.ks.nearSeen (spaceHandle i r.handle) }) 2 evLimitNear 128 r.owner
      (leBytes 4 r.handle ++ leBytes 8 (r.limit - r.uses))
  else s

/-- Raise the lease high-water in the cache and re-seal the page (04 R92 steps 1 and 2); the mark is still to come. -/
def leaseRaise (s : State) (i : Nat) : State :=
  let r := s.krec i
  let r' := { r with hw := min (r.hw + 4096) r.limit }
  let s := putRec s i r'
  let s := resealPage (touchPage (setKs s { s.ks with advance := sput s.ks.advance i }) (pageOf i)) (pageOf i)
  nearEvent s i r'

/-- The lease mark of a record commits in MRAM (04 R92 steps 3 and 4, R93). -/
def markWrite (s : State) (i : Nat) : State :=
  let r := s.krec i
  let s := setKs s { s.ks with marks := tset 0 s.ks.marks (spaceHandle i r.handle) r.hw, advance := sdel s.ks.advance i }
  if r.owner = 0 then s else mirrorOut s (spaceHome s (idxSpace i)) mkLease r.handle (leBytes 8 r.hw)

/-- MARK_SET_FULL shows whether a lease advance waits on a full mark set; its rising edge latches MARK_WAIT (04 R93, Table 04.13). -/
def markShow (s : State) : State :=
  let waits := s.ks.advance ++ (s.ks.leaseWait.map Prod.snd).filter (fun i => (s.krec i).leaseSpent)
  let full := waits.any (fun i => markFull s i && !(s.fenced (s.krec i).owner))
  let s := if full ∧ !(s.is F.KS_STATUS_MARK_SET_FULL) then s.raise F.KS_STATUS_MARK_WAIT else s
  s.poke F.KS_STATUS_MARK_SET_FULL (b2n full)

/-- Consume one use (02 R37, 04 R86): the last one makes the record EXHAUSTED. -/
def useOne (s : State) (i : Nat) : State :=
  let r := s.krec i
  if !r.counted then s
  else
    let r' := { r with uses := r.uses + 1 }
    if r'.uses = r.limit then
      event (changeRec s i { r' with state := if r.state = kActive then kExhausted else r.state }) 2 evExhausted 128
        r.owner (leBytes 4 r.handle ++ leBytes 8 0)
    else putRec s i r'

/-- Must a load of a record wait: its lease advance is not committed, or an older load waits (04 R91, R92)? -/
def mustWait (s : State) (who : Loader) (i : Nat) : Bool :=
  s.ks.advance.contains i || (s.ks.leaseWait.find? (fun e => e.2 == i)).any (fun e => decide (e.1 ≠ who))

/-- A load by a whole command, an array's operation or a call of FF1: the lease advances within the load where it must (04 R92); none where
the load waits: behind another, on a full mark set, or for the owner to leave the fence (04 R91, R93; 13 R345). -/
def consume (s : State) (who : Loader) (i : Nat) : Option State :=
  let r := s.krec i
  if mustWait s who i then none
  else
    let s := dropLoads (cacheTake s i false) (fun l => decide (l = who))
    if r.leaseSpent then
      if markFull s i || s.fenced r.owner then none else some (useOne (markWrite (leaseRaise s i) i) i)
    else some (useOne s i)

/-- A load waits in arrival order, in the state `s` in which its command or call began: executed again it finds its place kept (04 R91). -/
def loadWait (s : State) (who : Loader) (i : Nat) : State :=
  markShow (if s.ks.leaseWait.contains (who, i) then s else setKs s { s.ks with leaseWait := s.ks.leaseWait ++ [(who, i)] })

/-- Does the record as it stands in HBM pass the checks of a fill (04 R83): its CRC-64 with its address folded in, its handle against its index,
its owner against its page's? The 128 bytes are deciphered with the keystream of the page's present version. -/
def recordSound (s : State) (i : Nat) : Bool :=
  let p := pageOf i
  let l := s.leaf p
  match pageKey s p with
  | none => true
  | some key =>
    if l.cur = 0 ∨ idxSpace i ≠ 0 then true
    else
      let b := sliceBytes (gcmCrypt 3 key (pageIv p l.cur) (memRead s.gmem (0x1000000000 + p * 4096) 4096)) (i % 32 * 128) 128
      let r := recParse b
      decide (leNat (b.drop 120) = checkValue 2 (some (hIdx i * 128)) (b.take 120)) &&
        (!r.live || (decide (hIdx r.handle = hIdx i) && decide (r.owner = if p < 128 then 0 else l.owner)))

/-- A record that is not cached passes a pipeline, which checks it; a mismatch poisons it (04 R83). -/
def pipeIn (s : State) (i : Nat) : State :=
  if cached s i || !(s.krec i).live || recordSound s i then s else recordBad s i

/-! ## Key check values (05 R123) -/

def kcvMethodOf (alg : Nat) : Nat :=
  if alg = 4 ∨ alg = 5 then 0 else if alg = 1 ∨ alg = 2 ∨ alg = 3 ∨ alg = 6 then 1 else if alg = 7 then 3 else 2

/-- The KCV of key material, or of the public components. -/
def kcvOf (alg : Nat) (material pub : Bytes) : Bytes :=
  match kcvMethodOf alg with
  | 0 => (encBlock alg material (List.replicate 8 0)).take 3
  | 1 => (cmac alg material (List.replicate 16 0)).take 5
  | 2 => (sha256 pub).take 5
  | _ => (hmac 1 material (List.replicate 16 0)).take 5

/-- The material's length of a standard algorithm (04 Table 04.2). -/
def algKeyLen (alg : Nat) : Nat :=
  match alg with
  | 1 => 16
  | 2 => 24
  | 3 => 32
  | 4 => 16
  | 5 => 24
  | 6 => 16
  | _ => 32

def isExtAlg (alg : Nat) : Bool :=
  [0x20, 0x21, 0x22, 0x23, 0x24, 0x25, 0x26, 0x27, 0x30, 0x31, 0x32, 0x38, 0x39, 0x3A].contains alg

/-- The algorithms a use code may have (05 Table 05.8 check 2). -/
def useFitsAlg (u alg : Nat) : Bool :=
  if u = 14 then decide (1 ≤ alg) && decide (alg ≤ 3)
  else if u = 6 ∨ u = 7 then decide (1 ≤ alg) && decide (alg ≤ 7)
  else if u = 8 ∨ u = 9 then [0x20, 0x21, 0x22, 0x23, 0x25, 0x27, 0x38, 0x39, 0x3A].contains alg
  else if u = 12 then [0x21, 0x22, 0x23, 0x24, 0x26, 0x30, 0x31, 0x32].contains alg
  else if 1 ≤ u ∧ u ≤ 13 then decide (1 ≤ alg) && decide (alg ≤ 6)
  else false

/-! ## Quotas and allocation (01 R21, 04 R80, R81, R84, R85) -/

/-- Live records of an owner other than its root record. -/
def keysHeld (s : State) (o : Nat) : Nat :=
  (s.ks.recs.filter (fun e => decide (4096 ≤ hIdx e.1) && decide (e.2.owner = o) && e.2.live)).length

/-- Protected state in bytes (04 R85). -/
def protectedBytes (s : State) : Nat :=
  128 * (s.ks.recs.filter (fun e => e.2.live)).length + 512 * s.ks.heap.length

/-- May slot `i` be allocated again? -/
def slotFree (s : State) (i : Nat) : Bool :=
  let r := s.krec i
  (decide (r.state = 0) || (decide (r.state = 5) && decide (hGen r.handle < 127))) && !(s.ks.wiping.contains i)

/-- The lowest free slot of a page. -/
def pageSlotFree (s : State) (p : Nat) : Option Nat := ((List.range 32).map (fun k => p * 32 + k)).find? (slotFree s)

/-- The lowest page from `p` on that is unallocated and has a free slot 0. -/
def freePage (fuel : Nat) (s : State) (p : Nat) : Option Nat :=
  match fuel with
  | 0 => none
  | n + 1 =>
    if p % 1048576 < 128 then none
    else if (s.leaf p).owner = 0xFFFF ∧ !(s.leaf p).gfail ∧ !(s.leaf p).lost ∧ !(s.leaf p).pois ∧ slotFree s (p * 32) then some p
    else freePage n s (p + 1)

/-- The slot a new record of an owner takes (04 R80, R81). -/
def allocSlot (s : State) (o : Nat) : Option Nat :=
  let base := spaceOf s o * 1048576
  match ((s.ks.leaves.filter (fun e => decide (base + 128 ≤ e.1) && decide (e.1 < base + 1048576) && decide (e.2.owner = o) && !e.2.lost && !e.2.gfail && !e.2.pois)).findSome?
      (fun e => pageSlotFree s e.1)) with
  | some i => some i
  | none => (freePage (s.ks.leaves.length + s.ks.recs.length + 1) s (base + 128)).map (fun p => p * 32)

/-- The first of `n` consecutive free granules, above the heap map (04 R84). -/
def allocGranules (n cur : Nat) (l : Tab Nat) : Nat :=
  match l with
  | [] => cur
  | (g, _) :: r => if cur + n ≤ g then cur else allocGranules n (max cur (g + 1)) r

/-- Give granules to a handle, or free them (handle 0). -/
def setGranules (s : State) (first n h : Nat) : State :=
  setKs s { s.ks with heap := (List.range n).foldl (fun t k => tset 0 t (first + k) h) s.ks.heap }

/-- The clear body of an extended record (04 R84). -/
def bodyBytes (handle alg : Nat) (b : Body) : Bytes :=
  leBytes 4 handle ++ [BitVec.ofNat 8 alg] ++ List.replicate 3 0 ++ leBytes 2 b.priv.length ++ leBytes 2 b.pub.length ++
    List.replicate 4 0 ++ b.priv ++ b.pub

def bodyAad (handle alg len : Nat) : Bytes := beBytes 4 handle ++ [BitVec.ofNat 8 alg] ++ beBytes 4 len

/-- The sealed body and its tag. -/
def sealBody (key : Bytes) (handle alg : Nat) (b : Body) : Bytes × Bytes :=
  let p := bodyBytes handle alg b
  let iv := beBytes 4 handle ++ List.replicate 8 0
  let c := gcmCrypt 3 key iv p
  (c, gcmTag 3 key iv (bodyAad handle alg p.length) c)

/-- What a creation writes (05 Table 05.7 and the command's own part). -/
structure NewKey where
  owner : Nat
  use : Nat
  flags : Nat
  alg : Nat
  origin : Nat
  replaced : Nat
  grace : Nat
  limit : Nat
  label : Bytes
  material : Bytes
  body : Option Body
  deriving DecidableEq, Repr

/-- Create a record (04 R80, R86, 05 R125): its index and the state; none where no slot or no granule is left, or an extended record would pass the cap (01 R21). -/
def createRec (s : State) (k : NewKey) : Option (Nat × State) :=
  match allocSlot s k.owner with
  | none => none
  | some i =>
    let old := s.krec i
    let h := mkHandle (hGen old.handle + 1) i
    let p := pageOf i
    let s := showPoison (setKs s { s.ks with poison := s.ks.poison.filter (fun e => e.index != i) })
    let s := if (s.leaf p).owner = k.owner then s else setLeaf s p { s.leaf p with owner := k.owner }
    let r0 : KeyRec := { KeyRec.empty with
      handle := h, state := if k.replaced = 0 then kActive else kPending, use := k.use, exportable := k.flags.testBit 0
      counted := k.flags.testBit 1, focusBound := k.flags.testBit 2, alg := k.alg, owner := k.owner
      ext := k.body.isSome, origin := k.origin, klen := if k.body.isSome then 0 else k.material.length, linked := k.replaced
      limit := if k.flags.testBit 1 then k.limit else 0, grace := if k.replaced = 0 then 0 else k.grace
      kcv := kcvOf k.alg k.material (match k.body with
        | some b => b.pub
        | none => []), kcvMethod := kcvMethodOf k.alg, material := k.material, label := k.label }
    match k.body with
    | none => some (i, changeRec s i r0)
    | some b =>
      let d := drawBytes s 32
      let s := d.2
      let len := 16 + b.priv.length + b.pub.length
      let n := ceilDiv len 512
      let base := idxSpace i * 16777216
      let g := allocGranules n (base + 131072) (tfilter (fun k _ => decide (base ≤ k)) s.ks.heap)
      if base + 16777216 < g + n ∨ 6442450944 < protectedBytes s + 128 + 512 * n then none
      else
        let sealed := sealBody d.1 h k.alg b
        let s := setGranules s g n h
        let s := setKs s { s.ks with bodies := tset none s.ks.bodies i (some b) }
        let s := if base = 0 then { s with gmem := memWrite s.gmem (0x1100000000 + g * 512) sealed.1 } else s
        let part := fun (j : Nat) => ({ kind := 2, page := h, owner := k.owner, live := 0, part := j, space := idxSpace i, version := 0
                                        tag := sealed.2, payload := sliceBytes sealed.1 (4096 * j) (min 4096 (len - 4096 * j)) } : PageSlot)
        let parts := if len ≤ 4096 then [part 0] else [part 0, part 1]
        let s := setKs s { s.ks with pendExp := s.ks.pendExp ++ parts }
        some (i, changeRec s i { r0 with material := d.1, granule := g % 16777216, granules := n, bodyLen := len, bodyTag := sealed.2 })

/-- A creation by a command, with the owner's key quota and the cap of R21 (05 Table 05.8 check 7). -/
def quotaOk (s : State) (o extra : Nat) : Bool :=
  decide (keysHeld s o < (tget Owner.absent s.own o).keyQuota) && decide (protectedBytes s + 128 + extra ≤ 6442450944)

/-- Destroy a record for new loads; its wipe waits for its holders (04 R89). A handle whose generation is 127 is spent (04 R80). -/
def destroyRec (s : State) (i : Nat) : State :=
  let r := s.krec i
  let s := if hGen r.handle = 127 then s.poke F.KS_SPENT_SPENT (s.get F.KS_SPENT_SPENT + 1) else s
  let s := setKs s { s.ks with wiping := sput s.ks.wiping i, poison := s.ks.poison.filter (fun e => e.index != i) }
  changeRec (showPoison s) i { r with state := kDestroyed, linked := 0, grace := 0, focus := 0xFFFF }

/-! ## Creation checks (05 Table 05.7, Table 05.8) -/

/-- A creation attribute block. -/
structure Attr where
  use : Nat
  flags : Nat
  alg : Nat
  rsv : Nat
  replaced : Nat
  grace : Nat
  limit : Nat
  label : Bytes
  deriving DecidableEq, Repr

def attrOf (b : Bytes) : Attr :=
  ⟨byteAt b 0, byteAt b 1, byteAt b 2, byteAt b 3 + leNat (sliceBytes b 12 4), leNat (sliceBytes b 4 4), leNat (sliceBytes b 8 4),
    leNat (sliceBytes b 16 8), sliceBytes b 24 8⟩

/-- Is the key already being replaced? -/
def beingReplaced (s : State) (o h : Nat) : Bool :=
  s.ks.recs.any (fun e => decide (e.2.state = kPending) && decide (e.2.linked = h) && decide (idxSpace e.1 = spaceOf s o))

/-- The bytes of the heap that an extended key with `n` bytes of components takes (04 R84). -/
def heapBytes (n : Nat) : Nat := 512 * ceilDiv (16 + n) 512

/-- The status of 05 Table 05.8; `body` is what an extended key takes of the heap. -/
def creationCheck (s : State) (o : Nat) (a : Attr) (body : Nat := 0) : Nat :=
  let f := keyFind s o false a.replaced
  if a.rsv ≠ 0 ∨ 8 ≤ a.flags ∨ (a.flags.testBit 2 ∧ a.replaced = 0) ∨ (a.flags.testBit 1 ≠ decide (a.limit ≠ 0)) ∨
      2592000 < a.grace then sMalformed
  else if !(useFitsAlg a.use a.alg) then sKeyUse
  else if a.replaced ≠ 0 ∧ f.1 ≠ sOk then f.1
  else if a.replaced ≠ 0 ∧ (f.2.state = kPending ∨ beingReplaced s o a.replaced) then sKeyPending
  else if a.replaced ≠ 0 ∧ f.2.state = kRetired then sKeyRetired
  else if a.replaced ≠ 0 ∧ f.2.use ≠ a.use then sKeyUse
  else if !(quotaOk s o body) then sQuota
  else sOk

/-- The record that an attribute block asks for. -/
def newKeyOf (o : Nat) (a : Attr) (origin : Nat) (material : Bytes) (body : Option Body) : NewKey :=
  ⟨o, a.use, a.flags, a.alg, origin, a.replaced, a.grace, a.limit, a.label, material, body⟩

/-! ## The subject lane (02 Subject lane for wrapping) -/

/-- The subject key that the key store presents to a facet under WRAP: the key of handle B of the command it runs (the
subject of KEY_EXPORT is its handle A; log entry 21), if its record is EXPORTABLE and of the work's owner. -/
def subjectKey (s : State) (p : Nat) : Option Bytes :=
  match (s.facet p).subject with
  | some x => some x.shown
  | none => match (s.facet p).work with
    | .cmd ctx aseq => match jrFind s ctx aseq with
      | some (_, r) =>
        let f := keyFind s r.owner false (subField r.sub 12 4)
        if f.1 = sOk ∧ f.2.exportable ∧ f.2.owner = (s.facet p).owner then some f.2.material else none
      | none => none
    | _ => none

/-- Take the next part of the subject. -/
def takeSubject (key : Bytes) (f : Facet) : Facet :=
  { f with subject := some (match f.subject with
      | some x => { x with taken := x.taken + 1 }
      | none => ⟨key, 1, []⟩) }

end Sys2Proof.Machine
end

