-- ==== Sys2Proof/Machine/FacetBlock.lean ====
section
/-! DEFINITION. Machine/FacetBlock.lean: lens operations, block-register instructions, the GF unit and the block sequencer
(02 R29 to R47, 03 Table 03.3 majors 0x20, 0x21, 0x23, 0x24). -/

namespace Sys2Proof.Machine

open Sys2Proof

/-- Issue an instruction that needs K: it does not issue while an LDK is pending, and with K empty the work is abandoned
(02 R38). -/
def issueK (h : Slot) (s : State) (regs : List Nat) (k : KReg → State → State) : State :=
  let f := s.facet h.p
  if !f.squash && f.ldk.isSome then s
  else issue h s regs (fun s => match (s.facet h.p).k with
    | none => abandon s h.p 3 (emptyKStatus s h.p)
    | some key => k key s)

/-! ## LENS and HSET -/

/-- The destination code of an L-format word, and whether 02 Table 02.6 permits it. -/
def lensDest (s : State) (p : Nat) (u : Nat) (bd : Nat) (dest : Nat) : Option LensDst :=
  let cls := (s.facet p).cls
  match dest with
  | 0 => (useBlockDest u cls).map (fun sl => if sl then .sealedReg bd else .reg bd)
  | 1 => if useDerivDest u then some (.deriv false) else none
  | 2 => if useDerivDest u then some (.deriv true) else none
  | 3 => if useSubjectDest u then some .subject else none
  | _ => if useBlockDest u cls = some false then some (.memory (0x22000 + Config.lensOutOffset ⟨bd % 8, Nat.mod_lt _ (by decide)⟩)) else none

/-- Put one block into a lens pipeline. -/
def lensPush (s : State) (p lens : Nat) (k : KReg) (dir : Nat) (x : Block) (d : LensDst) : State :=
  s.modFacet p (fun f => { f with lens := f.lens ++ [⟨lens, k.alg, k.key, dir, x, d, 0, 0, 0⟩] })

/-- The next 128-bit part of the subject key (02 Subject lane); a part past the key's end is filled with zeros. -/
def subjectPart (s : State) (p : Nat) : Option (Block × State) :=
  (subjectKey s p).map (fun key =>
    let n := (match (s.facet p).subject with
      | some x => x.taken
      | none => 0)
    (blockOf (sliceBytes key (16 * n) 16), s.modFacet p (takeSubject key)))

/-- LENS (02 R29 to R46): one block to one lens, or one to each (03 Table 03.2). -/
def lensIssue (h : Slot) (bd bs1 bs2 : BR) (sel dir dest : Nat) (subj : Bool) (k : KReg) (s : State) : State :=
  let p := h.p.val
  let cls := (s.facet p).cls
  if !(classOk k.use cls) || !((useDirs k.use).contains dir) || !(algDir k.alg dir) || (subj && decide (k.use ≠ 3)) then badUse s p
  else match lensDest s p k.use bd.val dest with
    | none => badUse s p
    | some d =>
      let x := getB s p bs1
      let y := getB s p bs2
      if (x.sld || (decide (sel = 2) && y.sld)) && !(useSealedIn k.use cls) then badSeal s p
      else
        let r := if subj then subjectPart s p else some (0, s)
        match r with
        | none => badUse s p
        | some (m, s) =>
          let s := lensPush s p (if sel = 1 then 1 else 0) k dir (x.val ^^^ m) d
          if sel = 2 then
            lensPush s p 1 k dir y.val ((lensDest s p k.use (Config.pairedDest bd).val (if dest = 1 then 2 else dest)).getD d)
          else s

def execLens (h : Slot) (bd bs1 bs2 : BR) (sel : BitVec 2) (dir dest : BitVec 3) (subj : Bool) (s : State) :
    Host.Outcome State Fault Refusal :=
  .next (if 4 ≤ dir.toNat ∨ 5 ≤ dest.toNat then issue h s [] (fun s => badCode s h.p)
    else issueK h s [] (fun _ => afterLens h (fun s => match (s.facet h.p).k with
      | some k => lensIssue h bd bs1 bs2 sel.toNat dir.toNat dest.toNat subj k s
      | none => s)))

/-- HSET: the all-zero block in direction F; the result goes to H alone (02 R47). -/
def execHset (h : Slot) (s : State) : Host.Outcome State Fault Refusal :=
  .next (issueK h s [] (fun k s =>
    if !(classOk k.use (s.facet h.p).cls) || !((useDirs k.use).contains 0) || !(algDir k.alg 0) ||
        (useBlockDest k.use (s.facet h.p).cls).isNone then
      badUse s h.p
    else lensPush s h.p 0 k 0 0 .hsub))

/-! ## Block registers (02 R44 to R46) -/

/-- An instruction on block registers, once every lens result has arrived. -/
def blkOp (h : Slot) (regs : List Nat) (k : State → State) (s : State) : State := issueLens h s regs k

def execBxor (h : Slot) (bd bs1 bs2 : BR) (s : State) : Host.Outcome State Fault Refusal :=
  .next (blkOp h [] (fun s => setB s h.p bd (bres ((getB s h.p bs1).val ^^^ (getB s h.p bs2).val)
    ((getB s h.p bs1).sld || (getB s h.p bs2).sld))) s)
def execBand (h : Slot) (bd bs1 bs2 : BR) (s : State) : Host.Outcome State Fault Refusal :=
  .next (blkOp h [] (fun s => setB s h.p bd (bres ((getB s h.p bs1).val &&& (getB s h.p bs2).val)
    ((getB s h.p bs1).sld || (getB s h.p bs2).sld))) s)
def execBshl (h : Slot) (bd bs1 : BR) (n : Fin 128) (s : State) : Host.Outcome State Fault Refusal :=
  .next (blkOp h [] (fun s => setB s h.p bd (bres ((getB s h.p bs1).val <<< n.val) (getB s h.p bs1).sld)) s)
def execBshr (h : Slot) (bd bs1 : BR) (n : Fin 128) (s : State) : Host.Outcome State Fault Refusal :=
  .next (blkOp h [] (fun s => setB s h.p bd (bres ((getB s h.p bs1).val >>> n.val) (getB s h.p bs1).sld)) s)

/-- Put a piece of `w` bits, counted from the most significant end of the block, into place `i`. -/
def putPiece (x : Block) (w i v : Nat) : Block :=
  let sh := 128 - w * (i + 1)
  BitVec.ofNat 128 (x.toNat - (x.toNat / 2 ^ sh % 2 ^ w) * 2 ^ sh + (v % 2 ^ w) * 2 ^ sh)

/-- Piece `i` of `w` bits, counted from the most significant end. -/
def getPiece (x : Block) (w i : Nat) : Nat := x.toNat / 2 ^ (128 - w * (i + 1)) % 2 ^ w

/-- BMOVB: byte `src` of bs1 into byte `dst` of bd, whose other bytes stay; both are sources (02 R44). -/
def execBmovb (h : Slot) (bd bs1 : BR) (dstByte srcByte : Fin 16) (s : State) : Host.Outcome State Fault Refusal :=
  .next (blkOp h [] (fun s => setB s h.p bd (bres
    (putPiece (getB s h.p bd).val 8 dstByte.val (getPiece (getB s h.p bs1).val 8 srcByte.val))
    ((getB s h.p bd).sld || (getB s h.p bs1).sld))) s)
/-- BMOVN: the same on nibbles. -/
def execBmovn (h : Slot) (bd bs1 : BR) (dstNib srcNib : Fin 32) (s : State) : Host.Outcome State Fault Refusal :=
  .next (blkOp h [] (fun s => setB s h.p bd (bres
    (putPiece (getB s h.p bd).val 4 dstNib.val (getPiece (getB s h.p bs1).val 4 srcNib.val))
    ((getB s h.p bd).sld || (getB s h.p bs1).sld))) s)
/-- BCTR: bytes 12 to 15 take a big-endian counter value (03 R56). 02 R45 does not name it among the uses of a sealed source. -/
def execBctr (h : Slot) (bd bs1 : BR) (ctr : CtrSrc) (s : State) : Host.Outcome State Fault Refusal :=
  .next (blkOp h (match ctr with
      | .imm _ => []
      | .reg g => [g.val]) (fun s =>
    let v := match ctr with
      | .imm v => v.toNat
      | .reg g => (getG s h.p g).toNat
    if (getB s h.p bs1).sld then badSeal s h.p
    else setB s h.p bd (bres (putPiece (getB s h.p bs1).val 32 3 v) false)) s)
/-- BMULX: a sealed source gives a sealed result, which a CMAC that is to be compared needs (03 Table 03.11; log entry 37). -/
def execBmulx (h : Slot) (bd bs1 : BR) (gcmOrder : Bool) (s : State) : Host.Outcome State Fault Refusal :=
  .next (blkOp h [] (fun s => setB s h.p bd (bres
    (BitVec.ofNat 128 (if gcmOrder then gcmX (getB s h.p bs1).val.toNat else cmacX (getB s h.p bs1).val.toNat)) (getB s h.p bs1).sld)) s)
def execBcmp (h : Slot) (bs1 bs2 : BR) (s : State) : Host.Outcome State Fault Refusal :=
  .next (blkOp h [] (fun s => setCompare s h.p (getB s h.p bs1) (getB s h.p bs2)) s)
/-- BINS: a general register into one half; the register is then open (03 R56). The other half of a sealed register is a
sealed source (log entry 19). -/
def execBins (h : Slot) (bd : BR) (high : Bool) (g : GR) (s : State) : Host.Outcome State Fault Refusal :=
  .next (blkOp h [g.val] (fun s =>
    if (getB s h.p bd).sld then badSeal s h.p
    else setB s h.p bd (bres (putPiece (getB s h.p bd).val 64 (if high then 0 else 1) (getG s h.p g).toNat) false)) s)
def execBext (h : Slot) (g : GR) (bs1 : BR) (high : Bool) (s : State) : Host.Outcome State Fault Refusal :=
  .next (blkOp h [g.val] (fun s =>
    if (getB s h.p bs1).sld then badSeal s h.p
    else setG s h.p g (BitVec.ofNat 64 (getPiece (getB s h.p bs1).val 64 (if high then 0 else 1)))) s)

/-! ## GF unit (02 R47, 03 R78) -/

def execGmul (h : Slot) (bd bs1 bs2 : BR) (s : State) : Host.Outcome State Fault Refusal :=
  .next (blkOp h [] (fun s =>
    if (getB s h.p bs1).sld || (getB s h.p bs2).sld then badSeal s h.p
    else setB s h.p bd (bres (gfMul (getB s h.p bs1).val (getB s h.p bs2).val) false)) s)
/-- GHASH folds one block: A becomes (A ⊕ X) · H (03 R78). -/
def execGhash (h : Slot) (bs1 : BR) (s : State) : Host.Outcome State Fault Refusal :=
  .next (blkOp h [] (fun s =>
    if (getB s h.p bs1).sld then badSeal s h.p
    else perf (s.modFacet h.p (fun f => { f with acc := ghashFold f.hsub f.acc (getB s h.p bs1).val })) h.p 7 1) s)
/-- TAG: the accumulator XOR a released lens result (02 R47); with any other operand, which would let the bare accumulator out, it is
refused as a sealed one is (log entry 209). -/
def execTag (h : Slot) (bd bs1 : BR) (s : State) : Host.Outcome State Fault Refusal :=
  .next (blkOp h [] (fun s =>
    if (getB s h.p bs1).sld || !(getB s h.p bs1).rel then badSeal s h.p
    else setB s h.p bd ⟨(s.facet h.p).acc ^^^ (getB s h.p bs1).val, false, true, false, false⟩) s)

/-! ## Block sequencer (03 Table 03.4A) -/

/-- Does a recipe use no reserved value? -/
def recipeOk (r : Bytes) : Bool :=
  decide (byteAt r 0 ≤ 2) && decide (byteAt r 1 ≤ 1) && decide (byteAt r 2 < 8) && decide (byteAt r 3 ≤ 1) &&
    decide (sliceBytes r 4 4 = List.replicate 4 0) && decide (sliceBytes r 34 30 = List.replicate 30 0)

/-- SEQLD: a reserved value in the recipe is a reserved encoding (log entry 20). -/
def execSeqld (h : Slot) (q : Fin 4) (s1 : GR) (imm : BitVec 16) (s : State) : Host.Outcome State Fault Refusal :=
  .next (issueLens h s [s1.val] (fun s => loadBytes h s (effAddr s h.p s1 imm) 64 (fun r s =>
    if recipeOk r then s.modFacet h.p (fun f => { f with seq := tset none f.seq q.val (some ⟨r, 0, 0, 0⟩) })
    else badCode s h.p)))
/-- SEQGO: start a slot; the recipe obeys the rules of single-issued lens instructions (02 Lenses). A slot that SEQLD has not loaded
has no recipe to start, and the instruction has no effect (log entry 210). -/
def execSeqgo (h : Slot) (q : Fin 4) (ctr : BR) (count : Fin 65536) (s : State) : Host.Outcome State Fault Refusal :=
  .next (issueK h s [] (fun k => afterLens h (fun s =>
    let p := h.p.val
    match tget none (s.facet p).seq q.val with
    | none => s
    | some sl =>
      if !(recipePermitted (s.facet p) sl.recipe k) then badUse s p
      else if recipeSealed (s.facet p) sl.recipe ctr.val k then badSeal s p
      else s.modFacet p (fun f => { f with seq := tset none f.seq q.val (some ⟨sl.recipe, count.val + 1, 0, ctr.val⟩) }))))
/-- SEQWAIT: the last block of the slot has been released. -/
def execSeqwait (h : Slot) (q : Fin 4) (s : State) : Host.Outcome State Fault Refusal :=
  .next (if !(s.facet h.p).squash && seqHeld (s.facet h.p) then s else issue h s [] (fun s =>
    let s := lensDrain (s.facet h.p).lens.length s h.p
    if (s.facet h.p).pc = 0 then s else seqRun h.ecc (seqLeft s h.p q.val) s h.p q.val))

end Sys2Proof.Machine
end

