-- ==== Sys2Proof/Machine/FacetKey.lean ====
section
/-! DEFINITION. Machine/FacetKey.lean: LDK, KSET, KVAR and KCOMMIT, and the key store's answers to a load (02 R34 to R39,
04 R90 to R93). -/

namespace Sys2Proof.Machine

open Sys2Proof

/-- A failed LDK leaves K empty and writes its status into the destination (02 R36). Emptied so, K counts as written (03 R73), while
the derivation buffer, H and the accumulator stay (log entry 211). -/
def ldkFails (s : State) (p d : Nat) (st : Nat) : State :=
  let s := s.modFacet p (fun f => { f with ldk := none, ldkFail := some st, k := none, kTouched := true })
  setG (showK s p) p ⟨d % 32, Nat.mod_lt _ (by decide)⟩ (BitVec.ofNat 64 st)

/-- A successful LDK: K takes the key, locked to the use code and the entry class (02 R35, R36). -/
def ldkLoads (s : State) (p d : Nat) (r : KeyRec) (use : Nat) : State :=
  let s := s.modFacet p (fun f => { f with ldk := none })
  let s := setK s p (some ⟨r.material, r.alg, use, (s.facet p).cls, r.handle⟩)
  setG s p ⟨d % 32, Nat.mod_lt _ (by decide)⟩ (BitVec.ofNat 64 sOk)

/-- The acceptance time of a facet's work, which decides 02 Table 02.5 checks 4 and 5 (05 R137). -/
def workAcc (s : State) (p : Nat) : Nat :=
  match (s.facet p).work with
  | .cmd ctx aseq => match jrFind s ctx aseq with
    | some (_, r) => r.sec * 1000000000 + r.ns
    | none => s.now
  | _ => s.now

/-- Check a load whose record stands in the cache or a pipeline, and deliver it (02 Table 02.5, R37; 04 R91, R92). -/
def ldkDeliver (s : State) (p : Nat) (l : LdkReq) : State :=
  let c := keyCheck s (s.facet p).owner (inner s p) (workAcc s p) l.handle l.use
  let i := kidx s (s.facet p).owner l.handle
  if c.1 ≠ sOk then ldkFails s p l.dest c.1
  else if mustWait s (.ldk p) i then loadWait s (.ldk p) i
  else if c.2.leaseSpent then loadWait (leaseRaise s i) (.ldk p) i
  else ldkLoads (useOne s i) p l.dest c.2 l.use

/-- LDK: check 1 at once; a cached record is delivered at once, another waits for its fill (02 R36, 03 R68, 04 R90, R91). A miss empties
K at issue, and K keeps its key through a cached key's wait for a lease (log entry 212). -/
def execLdk (h : Slot) (d s1 : GR) (use : BitVec 8) (s : State) : Host.Outcome State Fault Refusal :=
  .next (if !(s.facet h.p).squash && (s.facet h.p).ldk.isSome then s
    else issue h s [d.val, s1.val] (fun s =>
      let p := h.p.val
      let u := use.toNat
      let hd := (getG s p s1).toNat % 4294967296
      let s := s.incWrap F.FCT_LDK p
      let f := s.facet p
      let uses := match f.entry with
        | some e => e.uses
        | none => 0
      let l : LdkReq := ⟨d.val, hd, u⟩
      if !(useInK u) || !(classOk u f.cls) || !(uses.testBit u) then ldkFails s p d.val sKeyUse
      else if cached s (kidx s f.owner hd) then
        ldkDeliver (cacheTake (s.modFacet p (fun f => { f with ldk := some l })) (kidx s f.owner hd) false) p l
      else
        let s := s.incWrap F.FCT_LDK_MISS p
        let s := s.modFacet p (fun f => { f with ldk := some l, k := none, kTouched := true })
        let i := kidx s f.owner hd
        let fills := if s.ks.fills.any (fun x => x.index == i) then
            s.ks.fills.map (fun x => if x.index = i then { x with facets := x.facets ++ [p] } else x)
          else s.ks.fills ++ [⟨i, [p]⟩]
        showK (setKs s { s.ks with fills := fills }) p))

/-- Deliver a filled record to the facets whose load waits on it, in arrival order (04 R91). -/
def fillDeliver (s : State) (i : Nat) (ps : List Nat) : State :=
  ps.foldl (fun s p => match (s.facet p).ldk with
    | some l => if kidx s (s.facet p).owner l.handle = i then ldkDeliver s p l else s
    | none => s) s

/-- UNSEAL_FILL_COMPLETE: the pipeline checks the record and delivers it; a record of an owner whose page key has not been
derived waits for its group (04 R83, R90; 05 R111). `readOk` is false where the record was read other than it stands. -/
def execUnsealFillComplete (space : Fin 17) (index : Fin 33554432) (readOk : Bool) (s : State) : Host.Outcome State Fault Refusal :=
  .next (let i := space.val * 33554432 + index.val
    match s.ks.fills.find? (fun x => x.index == i) with
    | none => s
    | some x =>
      if (s.leaf (pageOf i)).owner ≠ 0xFFFF ∧ !(s.leaf (pageOf i)).lost ∧ !(s.leaf (pageOf i)).gfail ∧
          (pageKey s (pageOf i)).isNone then s
      else
        let s := setKs s { s.ks with fills := s.ks.fills.filter (fun y => y.index != i) }
        fillDeliver (if readOk && recordSound s i then cacheTake s i false else recordBad s i) i x.facets)

/-- Serve the loads that wait on a record, in arrival order, while it has granted uses (04 R91, R92). A command, an array's operation or a call of
FF1 takes its use when it runs again, and those behind it wait for that. -/
def leaseServe (fuel : Nat) (s : State) (i : Nat) : State :=
  match fuel with
  | 0 => s
  | n + 1 =>
    match s.ks.leaseWait.find? (fun e => e.2 == i) with
    | some (.ldk p, _) =>
      let t := setKs s { s.ks with leaseWait := s.ks.leaseWait.erase (.ldk p, i) }
      match (s.facet p).ldk with
      | none => leaseServe n t i
      | some l =>
        let c := keyCheck s (s.facet p).owner (inner s p) (workAcc s p) l.handle l.use
        if c.1 ≠ sOk then leaseServe n (ldkFails t p l.dest c.1) i
        else if c.2.leaseSpent then leaseRaise s i
        else leaseServe n (ldkLoads (useOne t i) p l.dest c.2 l.use) i
    | _ => s

/-- LEASE_MARK_COMMIT: the mark of a raised lease commits in MRAM, and the waiting loads consume their uses. A set with no
free entry holds the advance back (04 R92, R93), and so does a fence (13 R345). With no mark outstanding it serves the loads that waited behind
a command. -/
def execLeaseMarkCommit (space : Fin 17) (hd : Word) (s : State) : Host.Outcome State Fault Refusal :=
  .next (let i := space.val * 33554432 + hIdx hd.toNat
    let wait := s.ks.advance.contains i && (markFull s i || s.fenced (s.krec i).owner)
    if wait then markShow s
    else
      let s := if s.ks.advance.contains i then markWrite s i else s
      markShow (leaseServe (s.ks.leaseWait.length + 1) s i))

/-! ## KSET, KVAR, KCOMMIT -/

/-- The key that the derivation buffer holds for an algorithm: the first lens result stands in bits [127:0] and the second in
bits [255:128] (08 R226 for two-key TDES; log entry 22 for the others). K3 of a three-key TDES key has no stated place. -/
def derivKey (d : W256) (alg : Nat) : Bytes :=
  let lo := beBytes 16 (d.toNat % 2 ^ 128)
  let hi := beBytes 16 (d.toNat / 2 ^ 128)
  match alg with
  | 4 => lo.drop 8 ++ hi.drop 8
  | 5 => lo.drop 8 ++ hi.drop 8 ++ beBytes 8 (Config.derivThird d).toNat
  | a => (lo ++ hi).take (algKeyLen a)

/-- A key in the layout of the derivation buffer. -/
def derivOf (alg : Nat) (key : Bytes) : W256 :=
  if alg = 4 ∨ alg = 5 then BitVec.ofNat 256 (beNat (sliceBytes key 0 8) + beNat (sliceBytes key 8 8) * 2 ^ 128)
  else BitVec.ofNat 256 (beNat (sliceBytes key 0 16) + beNat (sliceBytes key 16 16) * 2 ^ 128)

/-- The algorithm a KSET code names, in the codes of 04 Table 04.2; none for a reserved one (03 Table 03.2). -/
def ksetAlg (a : Nat) : Option Nat :=
  match a with
  | 0 => some 1
  | 1 => some 2
  | 2 => some 3
  | 3 => some 6
  | 4 => some 4
  | 5 => some 5
  | _ => none

/-- Is the running entry vendor-signed (03 Table 03.7 bytes 8–9)? -/
def vendorEntry (f : Facet) : Bool := match f.entry with
  | some e => decide (e.signer < 32768)
  | none => false

/-- Does K's use code have any KSET and KVAR target? -/
def hasTargets (u : Nat) : Bool := !(useTargets u).isEmpty

/-- Issue KSET or KVAR: not while an LDK is pending (02 R38). -/
def issueKey (h : Slot) (s : State) (k : State → State) : State :=
  if !(s.facet h.p).squash && (s.facet h.p).ldk.isSome then s else issueLens h s [] k

/-- KSET (02 R39): a refused one ends the work with S_KEY_USE. -/
def execKset (h : Slot) (use : BitVec 8) (alg : BitVec 4) (s : State) : Host.Outcome State Fault Refusal :=
  .next (issueKey h s (fun s =>
    let p := h.p.val
    let f := s.facet p
    match ksetAlg alg.toNat with
    | none => badCode s p
    | some a => match f.k with
      | none => abandon s p 2 sKeyUse
      | some k =>
        let u := use.toNat
        if !((useTargets k.use).contains u) || !(classOk k.use f.cls) || ((u = 10 || u = 11 || u = 13) && !(vendorEntry f)) then
          abandon s p 2 sKeyUse
        else setK s p (some ⟨derivKey f.deriv a, a, u, f.cls, 0⟩)))

/-- KVAR: the derivation buffer takes K XOR the mask (02 Derivation buffer, R39). -/
def execKvar (h : Slot) (v : VR) (s : State) : Host.Outcome State Fault Refusal :=
  .next (issueKey h s (fun s =>
    let p := h.p.val
    let f := s.facet p
    match f.k with
    | none => abandon s p 2 sKeyUse
    | some k =>
      if !(hasTargets k.use) || !(classOk k.use f.cls) then abandon s p 2 sKeyUse
      else s.modFacet p (fun f => { f with deriv := derivOf k.alg k.key ^^^ getV s p v })))

/-- KCOMMIT: the key store writes a new record from the subject lane, for the work's owner, under the checks of 05 Table 05.8
(02 Subject lane, 04 R80, R86; log entry 23). -/
def execKcommit (h : Slot) (d : GR) (attr : Bytes) (s : State) : Host.Outcome State Fault Refusal :=
  .next (issueK h s [d.val] (fun k => afterLens h (fun s =>
    let p := h.p.val
    let f := s.facet p
    let a := attrOf attr
    let kept := (match f.subject with
      | some x => x.kept
      | none => [])
    let n := if a.alg = 7 then kept.length else algKeyLen a.alg
    let c := creationCheck s f.owner a
    let fail := fun (st : Nat) => setG s p d (BitVec.ofNat 64 st)
    if k.use ≠ 4 ∨ !(classOk 4 f.cls) then badUse s p
    else if c ≠ sOk then fail c
    else if isExtAlg a.alg ∨ kept.length < n ∨ n = 0 ∨ 32 < n then fail sMalformed
    else match createRec s (newKeyOf f.owner a 3 (kept.take n) none) with
      | none => fail sQuota
      | some (_, s) => setG (s.modFacet p (fun f => { f with subject := none })) p d (BitVec.ofNat 64 sOk))))

end Sys2Proof.Machine
end

