-- ==== Sys2Proof/Machine/FacetWork.lean ====
section
/-! DEFINITION. Machine/FacetWork.lean: the command interface of a facet: CMDIN, CMDOUT, DONE and the end of a host transfer
(03 R57 to R60). -/

namespace Sys2Proof.Machine

open Sys2Proof

/-- The journal record of the command a facet runs. -/
def State.curRec (s : State) (p : Nat) : Option (Nat × JRec) :=
  match (s.facet p).work with
  | .cmd ctx aseq => jrFind s ctx aseq
  | _ => none

/-- CMDIN and CMDOUT: g[s1] is the offset in the input or output, g[s2] the local address, g[s3] the length (log entry 35). The
facet stalls until the transfer is complete. `bound` is where in the submission the limit stands. -/
def hostCopy (h : Slot) (d s1 s2 s3 : GR) (toHost : Bool) (bound : Nat) (s : State) : State :=
  issueLens h s [d.val, s1.val, s2.val, s3.val] (fun s =>
    let p := h.p.val
    let off := (getG s p s1).toNat
    let a := (getG s p s2).toNat
    let n := (getG s p s3).toNat
    let lim := (match s.curRec p with
      | some (_, r) => subField r.sub bound 4
      | none => 0)
    if 4096 < n ∨ lim < off + n then setG s p d (BitVec.ofNat 64 sMalformed)
    else if !(within a n 0x10000 0x1FFFF) && !(toHost && within a n 0x22000 0x22FFF) then badAddr s p
    else s.modFacet p (fun f => { f with dma := some ⟨toHost, d.val, a, off, n⟩ }))

def execCmdin (h : Slot) (d s1 s2 s3 : GR) (s : State) : Host.Outcome State Fault Refusal := .next (hostCopy h d s1 s2 s3 false 32 s)
def execCmdout (h : Slot) (d s1 s2 s3 : GR) (s : State) : Host.Outcome State Fault Refusal := .next (hostCopy h d s1 s2 s3 true 44 s)

/-- The check of a facet's pending copy at the host path of its function's port (15 R384); `fn` and the host address come from its
record. -/
def copyAccess (s : State) (p : Nat) (q : DmaReq) : Bool × State :=
  match s.curRec p with
  | some (_, r) => if q.toHost ∧ r.flr then (true, s)
      else hostAccess s p (s.ctxFn r.ctx) (subField r.sub (if q.toHost then 36 else 24) 8 + q.hostOff) q.len q.toHost
  | none => (true, s)

/-- Does a facet's pending copy wait: its function's TDI is in ERROR (14 R380)? A copy after a function level reset is not performed. -/
def copyStopped (s : State) (p : Nat) (q : DmaReq) : Bool := match s.curRec p with
  | some (_, r) => s.dmaStopped (s.ctxFn r.ctx) && !(q.toHost && r.flr)
  | none => false

/-- HOST_DMA_COMPLETE: the copy is complete and the stalled instruction writes its status; a host-side error is an event (03
R58), and work whose copy the aperture unit refuses is abandoned (15 Table 15.8). `e` is what the data SRAM's ECC finds at the
local address (02 R25), and `data` are the bytes a CMDIN read. -/
def dmaComplete (p : Nat) (ok : Bool) (e : Ecc) (data : Bytes) (s : State) : State :=
  match (s.facet p).dma with
  | none => s
  | some q =>
    if copyStopped s p q then s else
    let st := fun (s : State) (x : Nat) => setG s p ⟨q.dest % 32, Nat.mod_lt _ (by decide)⟩ (BitVec.ofNat 64 x)
    let c := copyAccess (perf (s.modFacet p (fun f => { f with dma := none })) p 0x0C 1) p q
    if !c.1 then badAddr c.2 p
    else if !ok then st (event c.2 2 evHostErr p (c.2.facet p).owner) sMalformed
    else
      let r := sramEcc e p c.2 q.locAddr
      let s := r.2
      if !r.1 then s
      else if q.toHost then
        let b := locRead (s.facet p) q.locAddr q.len
        let s := s.modFacet p (fun f => { f with cmdout := memWrite f.cmdout q.hostOff b })
        match s.curRec p with
        | some (_, r) => st (if r.flr then s else { s with sent := s.sent ++ [.host (s.ctxFn r.ctx) (subField r.sub 36 8 + q.hostOff) b] }) sOk
        | none => st s sOk
      else st (s.modFacet p (fun f => locWrite f q.locAddr (sliceBytes data 0 q.len))) sOk

def execHostDmaComplete (c : FacetCycle) (ok : Bool) (data : List (BitVec 8)) (s : State) : Host.Outcome State Fault Refusal :=
  .next (withCauses c.also c.p (dmaComplete c.p ok c.ecc data) s)

/-- DONE: the command of the facet ends (03 R59, R60). A result the program wrote with CMDOUT is already at the host; the first
4,096 bytes come from the output buffer. Outside a command it has no effect. -/
def done (p : Nat) (s : State) : State :=
  match s.curRec p with
  | none => s
  | some (_, r) =>
    let s := perf (drainAll s p) p 0x0F 1
    let st := progStatus ((getG s p 1).toNat % 65536)
    let len := (getG s p 2).toNat
    let f := s.facet p
    if st ≠ sOk ∧ st ≠ sVerifyFail then finishCommand s r.owner r.tag st []
    else if subField r.sub 44 4 < len then finishCommand s r.owner r.tag sMalformed []
    else
      let d := locRead f 0x22000 (min len 4096)
      finishWith s r.owner r.tag st (d ++ memRead f.cmdout 4096 (len - 4096)) d
def execDone (h : Slot) (s : State) : Host.Outcome State Fault Refusal := .next (issueLens h s [1, 2] (done h.p))

end Sys2Proof.Machine
end

