-- ==== Sys2Proof/Machine/Stream.lean ====
section
/-! DEFINITION. Machine/Stream.lean: ports, prism and collimator (09 R237 to R274), and the frame instructions of a facet (03
R61 to R64). -/

namespace Sys2Proof.Machine

open Sys2Proof

/-! ## Ports (09 R237 to R242) -/

/-- The sub-ports a breakout creates. -/
def State.subPorts (s : State) (n : Nat) : Nat := 2 ^ min 2 (s.get F.SP_CFG_BREAKOUT n)
def State.peer (s : State) (n : Nat) : Nat := s.get F.SP_CFG_PEER n

/-- Does a port carry frames (09 R239)? -/
def State.paired (s : State) (n : Nat) : Bool :=
  let m := s.peer n
  s.is F.SP_CFG_ENABLE n && s.is F.SP_CFG_ENABLE m && decide (s.peer m = n) &&
    decide (s.get F.SP_CFG_SIDE n ≠ s.get F.SP_CFG_SIDE m) && decide (s.get F.SP_CFG_BREAKOUT n = s.get F.SP_CFG_BREAKOUT m)

def State.linkUp (s : State) (n k : Nat) : Bool := (s.get F.SP_STATUS_LINK n).testBit k

/-- Is a port dark (09 R242)? An S-reset and a P-reset clear ENABLE. -/
def State.dark (s : State) (n : Nat) : Bool :=
  !(s.is F.SP_CFG_ENABLE n) || !(s.paired n) || s.rst.pfail || !s.mainPower

/-- Bring PAIR_ERR and DARK of every port up to date (09 R242, Table 09.2). -/
def portUpdate (s : State) : State :=
  (List.range 16).foldl (fun s n =>
    let s := s.poke F.SP_STATUS_PAIR_ERR (b2n (s.is F.SP_CFG_ENABLE n && !(s.paired n))) n
    s.poke F.SP_STATUS_DARK (b2n (s.dark n)) n) s

/-- A frame lost on its port: causes in the order of 09 Table 09.11. -/
def portLoss (s : State) (n cause : Nat) : State := s.add64 F.SP_LOSS_LO 1 n cause

/-! ## Leaving the part (09 R250, R253, R263) -/

/-- A byte of the template memory of a port. -/
def State.templ (s : State) (n t off len : Nat) : Bytes :=
  (List.range len).map (fun i => BitVec.ofNat 8 (bitsOf (s.reg (0xC0800 + n * 0x1000 + t * 64 + (off + i) / 4 * 4)) (8 * ((off + i) % 4)) 8))

/-- The outer headers of a sealed frame, from the template as it stands (09 R253). -/
def outerHeaders (s : State) (n t : Nat) (inner : Nat) : Bytes :=
  let tm := s.templ n t
  let flags := byteAt (tm 14 1) 0
  let fl := beNat (tm 17 3)
  let pay := 8 + inner
  tm 0 12 ++ (if flags.testBit 1 then [0x81, 0x00] ++ tm 12 2 else []) ++ [0x86, 0xDD] ++
    beBytes 4 (6 * 2 ^ 28 + byteAt (tm 15 1) 0 * 2 ^ 20 + fl % 2 ^ 20) ++ beBytes 2 pay ++ [17] ++ tm 16 1 ++ tm 20 32 ++
    tm 52 4 ++ beBytes 2 pay ++ [0, 0]

/-- The length of a frame of the transmit buffer as it leaves, FCS excluded. -/
def txLen (s : State) (x : TxFrame) : Nat := match x.template with
  | none => x.data.length
  | some (n, t) => (outerHeaders s n t x.data.length).length + x.data.length

def State.txq (s : State) (n k : Nat) : List TxFrame := tget [] s.str.tx (n * 4 + k)
def State.txFull (s : State) (n k add : Nat) : Bool :=
  decide (Config.txBuffer < ((s.txq n k).map (txLen s)).foldl (· + ·) add)
def txPut (s : State) (n k : Nat) (x : TxFrame) : State :=
  setStr s { s.str with tx := tset [] s.str.tx (n * 4 + k) (s.txq n k ++ [x]) }

/-- Show whether a sub-port's releases are held (21 Table 21.10). -/
def showHeld (s : State) (n k : Nat) (held : Bool) : State :=
  let f := if n < 8 then F.COL_HELD_LO else F.COL_HELD_HI
  let b := 4 * (n % 8) + k
  let w := s.get f
  let s := s.poke f (if held = w.testBit b then w else if held then w + 2 ^ b else w - 2 ^ b)
  s.poke F.COL_INFLIGHT_HELD (b2n (decide (s.get F.COL_HELD_LO ≠ 0) || decide (s.get F.COL_HELD_HI ≠ 0)))

/-! ## Classification (09 R245, R250 to R256) -/

def etherType (o : Bytes) (off : Nat) : Nat := beNat (sliceBytes o off 2)

/-- The VID of a frame; none when untagged. -/
def frameVid (o : Bytes) : Option Nat := if etherType o 12 = 0x8100 then some (beNat (sliceBytes o 14 2) % 4096) else none

/-- Does an egress flow's match take the frame in lookup `n` of 09 R245? -/
def Flow.matchesFrame (f : Flow) (n : Nat) (o : Bytes) : Bool :=
  let flags := byteAt f.desc 49
  let vidOk : Bool := match frameVid o with
    | some v => !(flags.testBit 0) && !(flags.testBit 1) && decide (leNat (sliceBytes f.desc 50 2) = v)
    | none => !(flags.testBit 0) && flags.testBit 1
  let daOk := !(flags.testBit 2) && decide (sliceBytes f.desc 52 6 = o.take 6)
  match n with
  | 0 => vidOk && daOk
  | 1 => vidOk && flags.testBit 2
  | _ => flags.testBit 0 && flags.testBit 2

/-- The flow that satisfies a test. -/
def State.findFlow (s : State) (q : Flow → Bool) : Option Nat :=
  s.str.flows.findSome? (fun e => match e.2 with
    | some f => if !f.withdrawn && q f then some e.1 else none
    | none => none)

/-- The egress flow of a clear-side frame on sub-port `k` of port `n` (09 R245). -/
def State.egressFlow (s : State) (n k : Nat) (o : Bytes) : Option Nat :=
  [0, 1, 2].findSome? (fun l => s.findFlow (fun f =>
    decide (f.dir = 1) && decide (f.port = s.peer n) && decide (byteAt f.desc 48 = k) && f.matchesFrame l o))

/-- A SecTAG's fields: TCI and AN byte, tag length, PN field (09 R251). -/
def tagLen (o : Bytes) : Nat := if (byteAt o 14).testBit 5 then 16 else 8

/-- Does the SecTAG pass (09 R251)? The length agrees when the frame ends with the user data that SL counts and the ICV, or is
padded to the least length (log entry 31). -/
def secTagOk (o : Bytes) : Bool :=
  let t := byteAt o 14
  let sl := byteAt o 15
  let want := 12 + tagLen o + sl + 16
  !(t.testBit 7) && !(t.testBit 5 && (t.testBit 6 || t.testBit 4)) && (t.testBit 3 == t.testBit 2) && decide (sl < 48) &&
    (decide (sl = 0) || decide (want = o.length) || (decide (want < 60) && decide (o.length = 60))) &&
    decide (beNat (sliceBytes o 16 4) ≠ 0)

/-- The SCI of a MACsec frame. -/
def secSci (o : Bytes) : Bytes := if (byteAt o 14).testBit 5 then sliceBytes o 20 8 else sliceBytes o 6 6 ++ [0, 1]

/-- The offset of a sealed-flow header; none for another frame (09 R254). -/
def sealedAt (s : State) (n : Nat) (o : Bytes) : Option Nat :=
  let b := if etherType o 12 = 0x8100 then 18 else 14
  if etherType o (b - 2) = 0x86DD ∧ byteAt o b / 16 = 6 ∧ byteAt o (b + 6) = 17 ∧
      beNat (sliceBytes o (b + 42) 2) = s.get F.SP_SF_UDP_PORT n then some (b + 48) else none

/-- Is the frame a PTP message to the port's own clock (09 R256, 10 R278)? -/
def ownClock (s : State) (n k : Nat) (o : Bytes) : Bool :=
  let dom := s.get F.FOC_TCFG_DOMAIN
  let ptp := fun (p : Nat) => p = 319 || p = 320
  decide (s.get F.FOC_TCFG_SRC = 1) && decide (s.get F.FOC_TCFG_PTP_PORT = n) && decide (s.get F.FOC_TCFG_PTP_SUB = k) &&
    (match s.get F.FOC_TCFG_PTP_TRANSPORT with
      | 1 => let u := 14 + 4 * (byteAt o 14 % 16)
        decide (etherType o 12 = 0x0800) && decide (byteAt o 23 = 17) && ptp (etherType o (u + 2)) && decide (byteAt o (u + 12) = dom)
      | 2 => decide (etherType o 12 = 0x86DD) && decide (byteAt o 20 = 17) && ptp (etherType o 56) && decide (byteAt o 66 = dom)
      | _ => decide (etherType o 12 = 0x88F7) && decide (byteAt o 18 = dom))

/-! ## Packet numbers (09 R251, R252, R254, R260) -/

/-- The full PN of an XPN frame (09 R251; IEEE 802.1AE-2018, log entry 32). -/
def recoverPn (lapn field : Nat) : Nat :=
  let up := lapn / 2 ^ 32
  (if 2 ^ 31 ≤ lapn % 2 ^ 32 ∧ field < 2 ^ 31 then up + 1 else up) * 2 ^ 32 + field

/-- Does a PN fail the replay check of a slot (09 R252, R254)? -/
def replayed (f : Flow) (x : FSlot) (pn : Nat) : Bool :=
  if f.macsec then (byteAt f.desc 25).testBit 1 && decide (pn < x.pn)
  else decide (pn + 4096 ≤ x.pn) || (decide (pn ≤ x.pn) && x.bitmap.testBit (x.pn - pn))

/-- A released ingress frame moves its slot on (09 R252, R254). -/
def replayMove (f : Flow) (x : FSlot) (pn : Nat) : FSlot :=
  if f.macsec then
    let nx := max x.nextPn (pn + 1)
    { x with nextPn := nx, pn := max x.pn (nx - leNat (sliceBytes f.desc 28 4)) }
  else if x.pn < pn then { x with pn := pn, bitmap := (x.bitmap * 2 ^ min 4096 (pn - x.pn) % 2 ^ 4096) ||| 1 }
  else { x with bitmap := x.bitmap ||| 2 ^ (x.pn - pn) }

/-- The PN in use of a slot: the last one assigned, or the highest released. -/
def pnUsed (f : Flow) (x : FSlot) : Nat := if f.dir = 1 then x.pn - 1 else if f.macsec then x.nextPn - 1 else x.pn

/-- The greatest PN of a flow's suite. -/
def Flow.maxPn (f : Flow) : Nat := if f.xpn then 2 ^ 64 - 1 else 0xFFFFFFFF

/-! ## The prism (09 Table 09.8) -/

/-- A withdrawn flow whose last frame has left: its index is free and SA_WITHDRAW completes (09 R248, 07 R198). -/
def flowDrained (s : State) (i : Nat) : State :=
  match s.flow i with
  | some f => if f.withdrawn ∧ !(s.str.frames.any (fun x => x.flow == i)) then
      let s := setFlow (setStr s { s.str with cache := sdel s.str.cache i }) i none
      f.waiters.foldl (fun s w => finishCommand (noteSoft s w.1 w.2) w.1 w.2 sOk []) s
    else s
  | none => s

/-- A frame in fate `cause` at steps 9 to 13: discarded, counted on its flow. -/
def prismDrop (s : State) (id i cause : Nat) : State :=
  flowDrained (flowLoss (setStr s { s.str with frames := s.str.frames.filter (fun x => x.id != id) }) i cause) i

/-- The egress slot of a frame by its arrival stamp (09 R265); none without an ACTIVE slot for it. -/
def egressSlot (f : Flow) (stamp : Nat) : Option Nat :=
  let act := if f.s0.st = 2 then some 0 else if f.s1.st = 2 then some 1 else none
  match act with
  | none => none
  | some a => if (f.slot a).since ≤ stamp then some a
    else if (f.slot (1 - a)).st = 3 then some (1 - a) else none

/-- The ingress slot that a frame names by AN or epoch (09 R265, R254). -/
def ingressSlot (f : Flow) (name : Nat) : Option Nat :=
  [0, 1].find? (fun k => decide ((f.slot k).st ≠ 0) && decide ((if f.macsec then (f.slot k).an else (f.slot k).epoch) = name))

/-- What stands before the data of an egress frame: the addresses and the SecTAG (09 R250), or the sealed-flow header (09 Table 09.6). -/
def egressHead (f : Flow) (x : Frame) (an pn : Nat) : Bytes :=
  if f.macsec then
    let sc := (byteAt f.desc 25).testBit 0
    let tci := 32 * b2n sc + (if (byteAt f.desc 25).testBit 2 then 12 else 0) + an % 4
    let data := x.len - 12
    sliceBytes x.buf 64 12 ++ [0x88, 0xE5, BitVec.ofNat 8 tci, BitVec.ofNat 8 (if data < 48 then data else 0)] ++ beBytes 4 (pn % 2 ^ 32) ++
      (if sc then f.desc.take 8 else [])
  else [BitVec.ofNat 8 (16 * byteAt f.desc 27), 0] ++ beBytes 2 x.len ++ f.desc.take 4 ++ beBytes 4 x.epoch ++ beBytes 8 pn ++ [0, 0, 0, 0]

/-- An egress frame takes its PN: the prism writes its head into the headroom (log entry 242). -/
def takePn (f : Flow) (an pn : Nat) (x : Frame) : Frame :=
  let hd := egressHead f x an pn
  { x with pn := pn, stage := .ready, head := hd, buf := spliceBytes x.buf (64 - f.headRoom) hd }

/-- Give waiting egress frames of a slot their PNs up to its mark, in order (09 R259, R260); the warning event at the
threshold (R269). -/
def assignPns (fuel : Nat) (s : State) (i : Nat) : State :=
  match fuel with
  | 0 => s
  | n + 1 =>
    match s.str.frames.find? (fun x => x.flow == i && x.stage == .mark), s.flow i with
    | some x, some f =>
      let k := f.slot x.slot
      if k.mark < k.pn then s
      else
        let thr := leNat (sliceBytes f.desc 40 8)
        let warn := decide (thr ≠ 0) && decide (thr ≤ k.pn) && !k.warned
        let s := setFlow s i (some (f.setSlot x.slot { k with pn := k.pn + 1, warned := k.warned || warn }))
        let s := if warn then event s 2 evPnWarn prismSrc f.owner (leBytes 4 i) else s
        assignPns n (modFrame s x.id (takePn f k.an k.pn)) i
    | _, _ => s

/-- Steps 9 to 14 for a frame whose context is present (09 Table 09.8). -/
def prismRest (s : State) (id : Nat) : State :=
  match s.frame id with
  | none => s
  | some x => match s.flow x.flow with
    | none => s
    | some f =>
      let o := sliceBytes x.buf 64 x.len
      let i := x.flow
      let sh := (sealedAt s x.port o).getD 0
      let hd := sliceBytes o sh 24
      let grow := if f.macsec then 24 + (if (byteAt f.desc 25).testBit 0 then 8 else 0)
        else 102 + (if (byteAt (s.templ f.port (byteAt f.desc 58) 14 1) 0).testBit 1 then 4 else 0)
      -- step 9
      if f.dir = 0 ∧ !f.macsec ∧ (byteAt hd 0 / 16 = 0 ∨ byteAt f.desc 27 < byteAt hd 0 / 16 ∨ byteAt hd 0 % 16 ≠ 0 ∨
          byteAt hd 1 ≠ 0 ∨ sliceBytes hd 20 4 ≠ [0, 0, 0, 0] ∨
          beNat (sliceBytes o (sh - 4) 2) ≠ 8 + 24 + beNat (sliceBytes hd 2 2) + 16 ∨ beNat (sliceBytes hd 12 8) = 0) then
        prismDrop s id i 6
      else if f.dir = 0 ∧ f.macsec ∧ (byteAt o 14).testBit 3 ≠ (byteAt f.desc 25).testBit 2 then prismDrop s id i 7
      else if f.dir = 1 ∧ s.get F.SP_CFG_MAX_FRAME (s.peer x.port) < x.len + 4 + grow then prismDrop s id i 7
      else
        let slot := if f.dir = 1 then egressSlot f x.stamp
          else ingressSlot f (if f.macsec then byteAt o 14 % 4 else beNat (sliceBytes hd 8 4))
        match slot with
        | none => prismDrop s id i 4
        | some k =>
          let sl := f.slot k
          let pn := if f.dir = 1 then 0
            else if !f.macsec then beNat (sliceBytes hd 12 8)
            else if f.xpn then recoverPn sl.pn (beNat (sliceBytes o 16 4)) else beNat (sliceBytes o 16 4)
          if f.dir = 0 ∧ replayed f sl pn then prismDrop s id i 3
          else if f.dir = 1 ∧ f.maxPn < sl.pn + ((s.str.frames.filter (fun y => y.flow == i && y.stage == .mark && y.slot == k)).length) then
            let s := if sl.exhausted then s
              else event (setFlow s i (some (f.setSlot k { sl with exhausted := true }))) 3 evPnSpent prismSrc f.owner (leBytes 4 i)
            prismDrop s id i 8
          else if 4096 ≤ f.frames ∨ 16384 ≤ f.cells then prismDrop s id i 5
          else
            let s := modFrame s id (fun y => { y with
              seq := f.seqNext, slot := k, pn := pn, stage := if f.dir = 1 then .mark else .ready
              key := sl.key, alg := sl.alg, handle := sl.handle, epoch := sl.epoch })
            let s := setFlow s i (some ({ f with seqNext := (f.seqNext + 1) % 2 ^ 32, frames := f.frames + 1, cells := f.cells + x.cells }.setSlot k
              { sl with inFlight := sl.inFlight + 1 }))
            assignPns s.str.frames.length s i

/-- A frame of a flow enters frame SRAM: steps 7 and 8, and on (09 Table 09.8). -/
def prismFlow (s : State) (n k stamp : Nat) (o : Bytes) (i dir : Nat) : State :=
  let need := ceilDiv (o.length + 128) 192
  if s.cellsFree < need then portLoss s n 7
  else
    let id := s.str.nextId
    let x : Frame := { id := id, flow := i, dir := dir, seq := 0, port := n, sub := k, slot := 0, pn := 0
                       buf := List.replicate 64 0 ++ o ++ List.replicate 64 0, start := 64, len := o.length
                       stage := .fill, cells := need, stamp := stamp, key := [], alg := 0, handle := 0, epoch := 0, head := [] }
    let s := setStr s { s.str with frames := s.str.frames ++ [x], nextId := id + 1 }
    strUpdate (if s.str.cache.contains i then prismRest s id else s)

/-- FRAME_RECEIVE: the MAC's checks (09 R237, 21 R503), then the steps of 09 Table 09.8. `octets` are the frame without its
FCS; `overflow` says that the prism did not take it from the receive buffer in time. A C-reset is in progress from its request
on (18 R447). -/
def frameReceive (n k stamp : Nat) (o : Bytes) (fcsOk overflow : Bool) (s : State) : State :=
  if s.subPorts n ≤ k then s
  else if !fcsOk then s.poke F.SP_FCSERR (s.get F.SP_FCSERR n k + 1) n k
  else if o.length + 4 < 64 ∨ s.get F.SP_CFG_MAX_FRAME n < o.length + 4 then s.poke F.SP_LENERR (s.get F.SP_LENERR n k + 1) n k
  else
    let s := (s.add64 F.SP_RXOK_LO 1 n k).add64 F.SP_RXOCT_LO (o.length + 4) n k
    let m := s.peer n
    if s.rst.level = 1 then portLoss s n 8
    else if !(s.paired n) then portLoss s n 0
    else if !(s.linkUp m k) then portLoss s n 1
    else if overflow then portLoss s n 2
    else if etherType o 12 = 0x8808 then portLoss s n 3
    else if etherType o 12 = 0x888E then txPut s m k ⟨o, none⟩
    else if ownClock s n k o then s
    else if s.get F.SP_CFG_SIDE n = 0 then
      match s.egressFlow n k o with
      | some i => prismFlow s n k stamp o i 1
      | none => portLoss s n 6
    else if etherType o 12 = 0x88E5 then
      if !(secTagOk o) then portLoss s n 5
      else match s.findFlow (fun f => decide (f.dir = 0) && decide (f.port = n) && f.macsec && decide (f.desc.take 8 = secSci o)) with
        | some i => prismFlow s n k stamp o i 0
        | none => portLoss s n 6
    else match sealedAt s n o with
      | none => portLoss s n 4
      | some h =>
        match s.findFlow (fun f => decide (f.dir = 0) && decide (f.port = n) && !f.macsec && decide (f.desc.take 4 = sliceBytes o (h + 4) 4)) with
        | some i => prismFlow s n k stamp o i 0
        | none => portLoss s n 6

def execFrameReceive (port : Fin 16) (sub : Fin 4) (stamp : Nat) (octets : List (BitVec 8)) (fcsOk overflow : Bool) (s : State) :
    Host.Outcome State Fault Refusal := .next (frameReceive port sub stamp octets fcsOk overflow s)

/-- The flow-context cache: 65,536 entries in sets of some number of ways, and the set that a flow index falls in (09 R246 gives neither). -/
def cacheWays : Nat := max 1 (min 65536 Config.flowWays)
def cacheSet (i : Nat) : Nat := Config.flowSet i % (65536 / cacheWays)

/-- CONTEXT_FILL_COMPLETE: the context of a flow comes into the cache, unless its set is entirely pinned, and the frames that
wait for it go on in order (09 R246). The victim among the unpinned is free. -/
def contextFill (i : Nat) (s : State) : State :=
  let waiting := s.str.frames.filter (fun x => x.flow == i && x.stage == .fill)
  if waiting = [] ∨ s.str.cache.contains i then s
  else
    let set := s.str.cache.filter (fun j => cacheSet j == cacheSet i)
    let free := set.filter (fun j => match s.flow j with
      | some f => decide (f.frames = 0)
      | none => true)
    let go := fun (s : State) => waiting.foldl (fun s x => prismRest s x.id) (setStr s { s.str with cache := sput s.str.cache i })
    if set.length < cacheWays then strUpdate (go s)
    else match free[(s.free.1 % (free.length + 1))]?.or free.head? with
      | none => s
      | some v => strUpdate (go (setStr s.free.2 { s.str with cache := sdel s.str.cache v }))

def execContextFillComplete (flow : Fin 1048576) (s : State) : Host.Outcome State Fault Refusal := .next (contextFill flow s)

/-- The facets that may take a frame: stream role, ACTIVE, not lagging, fewer than 4 frames (09 R261). -/
def streamFacets (s : State) : List Nat :=
  (List.range 72).filter (fun p => s.is F.FCT_MAP_VALID p && decide (s.get F.FCT_MAP_ROLE p = 0) &&
    decide (s.get F.FCT_MAP_STATE p = mapActive) && !(s.wear.queue.contains p) && !(s.str.lagging.contains p) && decide ((s.heldBy p).length < 4))

/-- Is facet `a` the better choice: fewer frames, then the less recent receipt? -/
def facetBefore (s : State) (a b : Nat) : Bool :=
  let x := (s.heldBy a).length
  let y := (s.heldBy b).length
  decide (x < y) || (decide (x = y) && decide (tget 0 s.str.lastRx a < tget 0 s.str.lastRx b))

def leastLoaded (s : State) : Option Nat :=
  (streamFacets s).foldl (fun acc p => match acc with
    | none => some p
    | some q => if facetBefore s p q then some p else some q) none

/-- FRAME_DISPATCH: the oldest ready frame goes to a facet (09 R261). -/
def frameDispatch (s : State) : State :=
  match s.str.frames.find? (fun x => x.stage == .ready), leastLoaded s with
  | some x, some p =>
    let stampNo := (s.str.lastRx.map Prod.snd).foldl max 0 + 1
    let s := modFrame s x.id (fun y => { y with stage := .facet p })
    frameStart (setStr s { s.str with held := tset [] s.str.held p (s.heldBy p ++ [x.id]), lastRx := tset 0 s.str.lastRx p stampNo }) p
  | _, _ => s
def execFrameDispatch (s : State) : Host.Outcome State Fault Refusal := .next (frameDispatch s)

/-! ## The collimator (09 R262, R263) -/

/-- A flow is withdrawn: no new frame is its own, and its slots are EMPTY (09 R248, Table 09.9). -/
def Flow.withdraw (f : Flow) : Flow := { f with withdrawn := true, s0 := f.s0.emptied, s1 := f.s1.emptied }

/-- Does a slot still hold the key that a frame was taken under? -/
def sameSlot (x : Frame) (k : FSlot) : Bool := decide (k.epoch = x.epoch) && decide (k.handle = x.handle)

/-- A frame leaves the collimator: cells, flow and slot counts; an egress RETIRING slot empties with its last frame, an
ingress one at the end of its overlap (09 R264). -/
def frameGone (s : State) (x : Frame) : State :=
  let s := setStr s { s.str with frames := s.str.frames.filter (fun y => y.id != x.id) }
  let s := modFlow s x.flow (fun f =>
    let k := f.slot x.slot
    { f with frames := f.frames - 1, cells := f.cells - x.cells, relNext := (f.relNext + 1) % 2 ^ 32 }.setSlot x.slot
      (if sameSlot x k then { k with inFlight := k.inFlight - 1 } else k))
  flowDrained (strUpdate s) x.flow

/-- Discard at the collimator, counted on the flow. -/
def colDrop (s : State) (x : Frame) (cause : Nat) : State := frameGone (flowLoss s x.flow cause) x

/-- Release one frame (09 R252, R254, R262, R263). One whose slot has taken another key since has no replay state left: NO_KEY. -/
def colRelease (s : State) (x : Frame) (f : Flow) : State :=
  let m := s.peer x.port
  let sl := f.slot x.slot
  let data := sliceBytes x.buf x.start x.len
  let t : TxFrame := ⟨data, if f.dir = 1 ∧ !f.macsec then some (f.port, byteAt f.desc 58) else none⟩
  if !(s.linkUp m x.sub) then colDrop s x 11
  else if f.dir = 0 ∧ !(sameSlot x sl) then colDrop s x 4
  else if f.dir = 0 ∧ replayed f sl x.pn then colDrop s x 3
  else if f.dir = 0 ∧ sl.mark < x.pn then s
  else if s.txFull m x.sub (txLen s t) then showHeld s m x.sub true
  else
    let s := if f.dir = 0 then modFlow s x.flow (fun f => f.setSlot x.slot (replayMove f (f.slot x.slot) x.pn)) else s
    let s := flowCount (flowCount s x.flow 0 1) x.flow 1 (txLen s t)
    frameGone (txPut s m x.sub t) x

/-- Pass over the holes of a flow, then release its next frame if that one has passed to the collimator (09 R262). -/
def collimate (fuel : Nat) (s : State) (i : Nat) : State :=
  match fuel with
  | 0 => s
  | n + 1 =>
    match s.flow i with
    | none => s
    | some f => match s.str.frames.find? (fun x => x.flow == i && x.stage != .fill && x.seq == f.relNext) with
      | none => s
      | some x => match x.stage with
        | .gone => collimate n (frameGone s x) i
        | .done => colRelease s x f
        | _ => s
def execFrameRelease (flow : Fin 1048576) (s : State) : Host.Outcome State Fault Refusal :=
  .next (collimate (s.str.frames.length + 1) s flow)

/-- PN_MARK_WRITE: when the PN in use is within 2,048 of the mark, or a frame waits for a PN above it, the mark moves to
4,096 past the greater of the mark and the PN awaited (09 R260; log entry 33). -/
def pnMarkWrite (i k : Nat) (s : State) : State :=
  match s.flow i with
  | none => s
  | some f =>
    let sl := f.slot k
    let want := (s.str.frames.filter (fun x => x.flow == i && x.slot == k && x.dir == 0 && x.stage == .done)).foldl
      (fun a x => max a x.pn) (pnUsed f sl)
    if (sl.st = 0 ∧ sl.inFlight = 0) ∨ (want + 2048 < sl.mark ∧ sl.pn ≤ sl.mark) then s
    else
      let s := setFlow s i (some (f.setSlot k { sl with mark := max sl.mark want + 4096 }))
      assignPns s.str.frames.length s i
def execPnMarkWrite (flow : Fin 1048576) (slot : Fin 2) (s : State) : Host.Outcome State Fault Refusal := .next (pnMarkWrite flow slot s)

/-- FRAME_TRANSMIT: the oldest frame of a sub-port's buffer has left; its place is free for a held release (09 R253, R263). A dark port sends
nothing, and a port in a C-reset only idle (R242). -/
def frameTransmit (n k : Nat) (s : State) : State :=
  match s.txq n k with
  | [] => s
  | x :: r => if s.dark n ∨ s.rst.level = 1 then s else
    let bytes := match x.template with
      | none => x.data
      | some (q, t) => outerHeaders s q t x.data.length ++ x.data
    let s := setStr s { s.str with tx := tset [] s.str.tx (n * 4 + k) r }
    let s := (s.add64 F.SP_TXOK_LO 1 n k).add64 F.SP_TXOCT_LO (bytes.length + 4) n k
    showHeld { s with sent := s.sent ++ [.frame n k bytes] } n k false
def execFrameTransmit (port : Fin 16) (sub : Fin 4) (s : State) : Host.Outcome State Fault Refusal := .next (frameTransmit port sub s)

/-- STREAM_LINK_CHANGE: LINK bit k changes and LINK_CHG bit k is set (09 Table 09.2). -/
def linkChange (n k : Nat) (up : Bool) (s : State) : State :=
  let w := s.get F.SP_STATUS_LINK n
  if s.subPorts n ≤ k ∨ up = w.testBit k then s
  else
    let s := s.poke F.SP_STATUS_LINK (if up then w + 2 ^ k else w - 2 ^ k) n
    let c := s.get F.SP_STATUS_LINK_CHG n
    let s := s.poke F.SP_STATUS_LINK_CHG (c ||| 2 ^ k) n
    portUpdate (evLatch s (80 + n))
def execStreamLinkChange (port : Fin 16) (sub : Fin 4) (up : Bool) (s : State) : Host.Outcome State Fault Refusal :=
  .next (linkChange port sub up s)

/-! ## Epochs (09 R264 to R266) -/

/-- Switch one flow to the epoch a focus action names; false when the flow is not switched (09 R264, R266). -/
def flowSwitch (s : State) (i epoch instant overlap : Nat) : Bool × State :=
  match s.flow i with
  | none => (false, s)
  | some f =>
    match [0, 1].find? (fun k => decide ((f.slot k).st = 1) && decide ((f.slot k).epoch = epoch)) with
    | none => (false, event s 3 evNotSwitched prismSrc f.owner (leBytes 4 i))
    | some k =>
      let o := f.slot (1 - k)
      let f := f.setSlot k { f.slot k with st := 2, since := instant }
      let f := if o.st = 2 then f.setSlot (1 - k) { o with st := 3, until_ := instant + overlap } else f
      (true, setFlow s i (some f))

/-- EPOCH_OVERLAP_END: every ingress RETIRING slot whose overlap has ended is EMPTY (09 R264, 10 R295). -/
def overlapEnd (s : State) : State :=
  setStr s { s.str with flows := tmap none (fun _ e => e.map (fun f =>
    let go := fun (x : FSlot) => if f.dir = 0 ∧ x.st = 3 ∧ x.until_ ≤ s.now then x.emptied else x
    { f with s0 := go f.s0, s1 := go f.s1 })) s.str.flows }
def execEpochOverlapEnd (s : State) : Host.Outcome State Fault Refusal := .next (overlapEnd s)

/-! ## A facet that lags (09 R272, R273) -/

/-- LAG_EPISODE_START: dispatch to the facet stops; a second episode within 1 mt of the end of the first retires it. -/
def lagStart (p : Nat) (s : State) : State :=
  if s.heldBy p = [] ∨ s.str.lagging.contains p then s
  else
    let again := decide (tget 0 s.str.lagEnd p ≠ 0) && decide (s.mtick + 1 ≤ tget 0 s.str.lagEnd p + 1)
    let s := event ((setStr s { s.str with lagging := sput s.str.lagging p }).raise F.PRM_STATUS_LAG) 2 evLag prismSrc 0xFFFF (leBytes 1 p)
    if again then
      decideRetire (event (s.raise F.PRM_STATUS_RETIRE) 3 evLagRetire prismSrc 0xFFFF (leBytes 1 p)) p 5 true
    else s
def execLagEpisodeStart (p : Fin 72) (s : State) : Host.Outcome State Fault Refusal := .next (lagStart p s)

/-- LAG_EPISODE_END: the facet holds none and dispatch resumes. -/
def execLagEpisodeEnd (p : Fin 72) (s : State) : Host.Outcome State Fault Refusal := .next (lagEnds s p)

/-- STREAM_FACET_HANG: the held frames are abandoned as FAULT, and the facet is retired at once. -/
def streamHang (p : Nat) (s : State) : State :=
  match s.heldBy p with
  | [] => s
  | l =>
    let s := l.foldl (fun s id => match s.frame id with
      | some x => flowLoss (modFrame s id (fun y => { y with stage := .gone })) x.flow 10
      | none => s) s
    let s := setStr s { s.str with held := tset [] s.str.held p [], lagging := sdel s.str.lagging p }
    let s := event ((facetEnd s p).raise F.PRM_STATUS_HANG) 4 evStrHang prismSrc 0xFFFF (leBytes 1 p)
    facetFault s p 6
def execStreamFacetHang (p : Fin 72) (s : State) : Host.Outcome State Fault Refusal := .next (streamHang p s)

/-! ## Resets (09 R271) -/

/-- C-reset: frames in flight are counted RESET, the cache is written back, and the PNs resume past their marks (09 R260). -/
def streamCReset (s : State) : State :=
  let s := s.str.frames.foldl (fun s x => if x.stage = .gone ∨ x.stage = .fill then s else flowCount s x.flow 12 1) s
  let s := s.str.frames.foldl (fun s x => if x.stage = .fill then flowCount s x.flow 12 1 else s) s
  let fix := fun (f : Flow) (x : FSlot) => if x.st = 0 then FSlot.empty else
    { x with inFlight := 0, pn := x.mark + 1, nextPn := if f.dir = 0 then max x.nextPn (x.mark + 1) else x.nextPn
             bitmap := if f.dir = 0 ∧ !f.macsec then 2 ^ 4096 - 1 else x.bitmap, st := if f.dir = 1 ∧ x.st = 3 then 0 else x.st }
  let s := setStr s { s.str with frames := [], cache := [], held := [], lagging := [], lagEnd := [], lastRx := []
                                 flows := tmap none (fun _ e => e.map (fun f =>
    { f with s0 := fix f f.s0, s1 := fix f f.s1, frames := 0, cells := 0, seqNext := 0, relNext := 0 })) s.str.flows }
  strUpdate ((s.str.flows.map Prod.fst).foldl flowDrained s)

/-- The frames in flight: those that no discard has counted. -/
def framesInFlight (s : State) : Nat := (s.str.frames.filter (fun x => decide (x.stage ≠ .gone))).length

/-- S-reset and P-reset: frames in flight are lost and reported by one event, and every association is removed (09 R247,
R271). -/
def streamReset (s : State) : State :=
  let n := framesInFlight s
  let s := if n = 0 then s else event s 2 evFramesLost prismSrc 0xFFFF (leBytes 4 n)
  setStr s StrSt.zero

/-- A flow whose context is lost (09 R248). -/
def flowLost (s : State) (i : Nat) : State :=
  match s.flow i with
  | none => s
  | some f =>
    let s := event s 4 evFlowLost prismSrc f.owner (leBytes 4 i ++ leBytes 2 f.owner)
    flowDrained (setFlow s i (some { f.withdraw with counters := [] })) i

/-! ## Frame instructions of a facet (03 R61 to R64) -/

def frameRegLen (r : FrameReg) : Nat := match r with
  | .g _ => 8
  | .v _ => 32
  | .b _ => 16

/-- FLD: a block register loaded from the frame is open and marked (03 R63). Byte order as in log entry 16. -/
def execFld (h : Slot) (dst : FrameReg) (off : BitVec 16) (s : State) : Host.Outcome State Fault Refusal :=
  .next (issueLens h s (match dst with
      | .g r => [r.val]
      | _ => []) (fun s =>
    let p := h.p.val
    let n := frameRegLen dst
    match (s.curFrame p).bind (fun x => (frameIdx x off.toInt n).map (fun i => sliceBytes x.buf i n)) with
    | none => badAddr s p
    | some d => match dst with
      | .g r => setG s p r (BitVec.ofNat 64 (leNat d))
      | .v r => setV s p r (BitVec.ofNat 256 (leNat d))
      | .b r => setB s p r ⟨blockOf d, false, false, true, false⟩))

/-- FST: a sealed block register is refused (02 R46). -/
def execFst (h : Slot) (src : FrameReg) (off : BitVec 16) (s : State) : Host.Outcome State Fault Refusal :=
  .next (issueLens h s (match src with
      | .g r => [r.val]
      | _ => []) (fun s =>
    let p := h.p.val
    let sealedSrc : Bool := match src with
      | .b r => (getB s p r).sld
      | _ => false
    let d := match src with
      | .g r => leBytes 8 (getG s p r).toNat
      | .v r => leBytes 32 (getV s p r).toNat
      | .b r => blockBytes (getB s p r).val
    if sealedSrc then badSeal s p
    else match (s.curFrame p).bind (fun x => (frameIdx x off.toInt d.length).map (fun i => (x.id, i))) with
      | none => badAddr s p
      | some (id, i) => modFrame s id (fun x => { x with buf := spliceBytes x.buf i d })))

/-- FDONE: verdict in g1, start offset in g2, length in g3 (03 R62). A start or a length that does not lie in the frame's cells
is taken as DISCARD_MALFORMED (log entry 34), and so is the release of an egress frame that is not in protected form (09 R268; log
entry 242). Outside a frame it has no effect. -/
def execFdone (h : Slot) (s : State) : Host.Outcome State Fault Refusal :=
  .next (issueLens h s [1, 2, 3] (fun s =>
    let p := h.p.val
    match s.curFrame p with
    | none => s
    | some x =>
      let v := (getG s p 1).toNat
      let st := (getG s p 2).toInt
      let len := (getG s p 3).toNat
      let inside := decide (-64 ≤ st) && decide (st ≤ 64) && decide (64 + st + len ≤ x.buf.length) &&
        (decide (x.dir = 0) || (s.flow x.flow).any (fun f => protectedForm f x st len))
      let s := drainAll s p
      if v = 1 then frameLeave s p x.id (some 2)
      else if v = 3 then frameLeave s p x.id (some 7)
      else if v ≠ 0 ∨ !inside then frameLeave s p x.id (some 6)
      else if x.dir = 0 ∧ !(s.facet p).auth then frameLeave s p x.id (some 2)
      else frameLeave (modFrame s x.id (fun x => { x with start := (64 + st).toNat, len := len })) p x.id none))

end Sys2Proof.Machine
end

