-- ==== Sys2Proof/Machine/Tamper.lean ====
section
/-! DEFINITION. Machine/Tamper.lean: life cycle, debug and tamper (17 R420 to R439). -/

namespace Sys2Proof.Machine

open Sys2Proof

def evLcWriter : Nat := 0x0F01
def evLcForced : Nat := 0x0F02
def evTokenWrong : Nat := 0x0F03
def evLcProgFail : Nat := 0x0F04
def evCertGood : Nat := 0x0F05
def evCertBad : Nat := 0x0F06
def evPendingFull : Nat := 0x0F08
def evOtpLow : Nat := 0x0F09
def evOtpBit : Nat := 0x0F0A

/-! ## Life-cycle states (17 R421 to R425) -/

def lcOf (code : Nat) : Option Nat := [0, 1, 2, 3].find? (fun st => lcCode st == code)

/-- May state `a` go to state `b` (17 Table 17.2)? -/
def lcPermitted (a b : Nat) : Bool := (a = 0 && b = 1) || (a = 1 && b = 2) || (a = 1 && b = 3) || (a = 2 && b = 3)

/-- The bitwise majority of three words. -/
def majority (l : List Nat) : Nat :=
  let a := l.getD 0 0
  let b := l.getD 1 0
  let c := l.getD 2 0
  (a &&& b) ||| (a &&& c) ||| (b &&& c)

/-- What the tamper die decodes: state, FORCED, INTERRUPTED, DISAGREE (17 R422). -/
def lcDecode (l : List Nat) : Nat × Bool × Option Nat × Nat :=
  let m := majority l
  let dis := fun (c : Nat) => (List.range 3).foldl (fun a k => if l.getD k 0 = c then a else a + 2 ^ k) 0
  match lcOf m with
  | some st => (st, false, none, dis m)
  | none =>
    match lcOf (l.getD 2 0), lcOf (l.getD 0 0) with
    | some a, some b =>
      let x := l.getD 1 0
      if lcPermitted a b ∧ (List.range 32).all (fun i => x.testBit i == (lcCode a).testBit i || x.testBit i == (lcCode b).testBit i) then
        (a, false, some b, dis (lcCode a))
      else (3, true, none, 0)
    | _, _ => (3, true, none, 0)

/-- Is the tamper counter exhausted (17 R438)? -/
def State.counterSpent (s : State) : Bool := decide (1024 ≤ s.get F.TMP_OTP_COUNT_COUNT)

/-- OTP_LOW is live: 64 or fewer counter bits are left (17 R438). -/
def otpLowShow (s : State) : State := s.poke F.TMP_STATUS_OTP_LOW (b2n (decide (960 ≤ s.get F.TMP_OTP_COUNT_COUNT)))
/-- A start with 64 or fewer bits left is recorded (17 R438). -/
def otpLowStart (s : State) : State :=
  if 960 ≤ s.get F.TMP_OTP_COUNT_COUNT then event (otpLowShow s) 3 evOtpLow tmpSrc else s

/-- A request for a transition (17 R425): its RESULT, and the state in which programming runs. `token` is 32 bytes. -/
def lcRequest (s : State) (target : Nat) (token : Bytes) : Nat × State :=
  let st := s.lcState
  let res := fun (s : State) (r : Nat) => (r, s.poke F.LC_CMD_RESULT r)
  let fails := s.get F.LC_STATE_TOKEN_FAILS
  if !(lcPermitted st target) || (s.counterSpent && decide (target ≠ 3)) then res s 3
  else if 3 ≤ fails then res s 4
  else if sha384 (ascii "PH64-LC" ++ [BitVec.ofNat 8 target] ++ Config.serial ++ token) ≠ Config.tokenDigest target then
    res (event (s.poke F.LC_STATE_TOKEN_FAILS (min 3 (fails + 1))) 5 evTokenWrong stewardSrc) 2
  else
    let s := if st ≠ 0 then eraseShare s else s
    let s := { s with lc := { s.lc with prog := some target } }
    res (s.poke F.LC_CMD_BUSY 1) 1

/-- LC_CMD_GO: a write of LC_CMD with GO = 1 by the primary PF (17 R420, R424). -/
def lcCmd (a : Agent) (v : Word) (s : State) : State :=
  if s.outOfReach a 0x2000 then s
  else if !(s.isPrimary a) then event s 2 evLcWriter stewardSrc
  else
    let target := bitsOf v 28 2
    let s := s.poke F.LC_CMD_TARGET target
    if s.is F.LC_CMD_BUSY ∨ !(s.lcState = 1 ∨ s.lcState = 2) ∨ s.get F.DEV_START_STAGE < 5 ∨ !(v.getLsbD 31) then s
    else (lcRequest s target ((List.range 8).flatMap (fun k => leBytes 4 (s.reg (F.LC_TOKEN.at k 0)).toNat))).2
def execLcCmdGo (a : Agent) (v : Word) (s : State) : Host.Outcome State Fault Refusal := .next (lcCmd a v s)

/-! ## Tamper sensors (17 R432 to R437) -/

def execTamperAlarm (n : Fin 8) (s : State) : Host.Outcome State Fault Refusal := .next (tamperAlarm n s)

/-- A tamper hold ends: the release goes on with step 2, unless the part stays held. -/
def holdEnds (s : State) : State :=
  let s := s.poke F.TMP_STATUS_HOLD 0
  if s.lcState == 3 || s.counterSpent then s else (s.poke F.DEV_START_FAIL 0).poke F.DEV_START_STAGE 2

/-- TAMPER_ALARM_CLEAR: the sensor leaves alarm; the last one ends a hold, and the release goes on with step 2 (17 R435). -/
def tamperClear (n : Nat) (s : State) : State :=
  let s := { s with lc := { s.lc with alarms := sdel s.lc.alarms n } }
  let v := s.get F.TMP_STATUS_LIVE
  let s := s.poke F.TMP_STATUS_LIVE (if v.testBit n then v - 2 ^ n else v)
  if s.is F.TMP_STATUS_HOLD && s.lc.alarms.isEmpty then holdEnds s else s
def execTamperAlarmClear (n : Fin 8) (s : State) : Host.Outcome State Fault Refusal := .next (tamperClear n s)

/-- UNPOWERED_TAMPER_EPISODE: only sensors 0, 1 and 4 are sampled without main power (17 R437, Table 17.9), with VAUX as without it (log
entry 246). -/
def unpoweredEpisode (n : Nat) (s : State) : State :=
  if s.mainPower ∨ !(n = 0 ∨ n = 1 ∨ n = 4) then s
  else
    let s := if s.eraseClass n then { s with sec := { s.sec with share := none } }.poke F.TMP_STATUS_ERASED 1 else s
    let s := s.poke F.TMP_STATUS_LATCHED (s.get F.TMP_STATUS_LATCHED ||| 2 ^ n)
    (s.poke F.TMP_STATUS_UNPOWERED 1).incSat F.TMP_OTP_COUNT_PENDING
def execUnpoweredTamperEpisode (n : Fin 8) (s : State) : Host.Outcome State Fault Refusal := .next (unpoweredEpisode n s)

/-- CELL_LOW (17 R439). -/
def cellLow (k : Nat) (s : State) : State :=
  let v := s.get F.TMP_STATUS_CELL_LOW
  if v.testBit k then s else (s.poke F.TMP_STATUS_CELL_LOW (v + 2 ^ k)).raise F.TMP_STATUS_CELL_LOW_SEEN
def execCellLow (k : Fin 2) (s : State) : Host.Outcome State Fault Refusal := .next (cellLow k s)

/-! ## The Loupe port (17 R426 to R431) -/

/-- What the port shifts out. -/
def loupeOut (s : State) (ir : Nat) (d : Bytes) : State :=
  { s with lc := { s.lc with ir := ir }, sent := s.sent ++ [.loupe d], out := d }

/-- Another instruction is selected: a hold by EXTEST, CLAMP or HIGHZ ends, and the release goes on with step 2. -/
def loupeLeave (s : State) : State :=
  if s.lc.loupeHold then
    let s := { s with lc := { s.lc with loupeHold := false, drive := 0 } }
    if s.get F.DEV_START_STAGE = 0 ∧ s.rst.level = 2 ∧ s.rst.begun then s.poke F.DEV_START_STAGE 2 else s
  else { s with lc := { s.lc with drive := 0 } }

/-- EXTEST, CLAMP or HIGHZ: in Production and End-of-life the compute die is first put into S-reset (17 R426). -/
def loupeDrive (s : State) (ir drive : Nat) (d : Bytes) : State :=
  let s := if 2 ≤ s.lcState ∧ !s.lc.loupeHold then
      { s with lc := { s.lc with loupeHold := true }
               rst := if s.rst.level < 2 then { s.rst with level := 2, begun := false, recovery := true } else s.rst }
    else s
  loupeOut { s with lc := { s.lc with drive := drive } } ir d

/-- The port needs the main rails. -/
def loupe (s : State) (k : State → State) : State := if s.mainPower then k s else s

def execLoupeExtest (pads drive : List (BitVec 8)) (s : State) : Host.Outcome State Fault Refusal :=
  .next (loupe s (fun s => loupeDrive { s with lc := { s.lc with boundary := drive } } 0 1 pads))
/-- CLAMP drives the preloaded boundary register; its data register is the bypass bit. -/
def execLoupeClamp (_pads _drive : List (BitVec 8)) (s : State) : Host.Outcome State Fault Refusal :=
  .next (loupe s (fun s => loupeDrive s 4 1 [0]))
def execLoupeHighz (s : State) : Host.Outcome State Fault Refusal := .next (loupe s (fun s => loupeDrive s 5 2 [0]))
def execLoupeSamplePreload (pads drive : List (BitVec 8)) (s : State) : Host.Outcome State Fault Refusal :=
  .next (loupe s (fun s => loupeOut { loupeLeave s with lc := { (loupeLeave s).lc with boundary := drive } } 2 pads))
def execLoupeIdcode (s : State) : Host.Outcome State Fault Refusal :=
  .next (loupe s (fun s => loupeOut (loupeLeave s) 1 (leBytes 4 0x064005AB)))
def execLoupeBypass (s : State) : Host.Outcome State Fault Refusal := .next (loupe s (fun s => loupeOut (loupeLeave s) 0xFF [0]))
def execLoupeLcRead (s : State) : Host.Outcome State Fault Refusal :=
  .next (loupe s (fun s => loupeOut (loupeLeave s) 0x40 (leBytes 4 (s.reg (F.LC_STATE_STATE.at 0 0)).toNat)))

/-- LC_XFER: a transition in any state (17 R424); not while one is being programmed. -/
def execLoupeLcXfer (target : Fin 4) (token : List (BitVec 8)) (s : State) : Host.Outcome State Fault Refusal :=
  .next (loupe s (fun s =>
    let s := loupeOut (loupeLeave s) 0x41 []
    if s.is F.LC_CMD_BUSY then s else (lcRequest s target (sliceBytes token 0 32)).2))

/-- A fresh challenge replaces any outstanding; zeros while the entropy source is stopped (17 R429). -/
def drawChallenge (s : State) : Bytes × State :=
  if s.rngStopped then (List.replicate 32 0, { s with lc := { s.lc with challenge := none } })
  else
    let r := drawBytes s 32
    (r.1, { r.2 with lc := { r.2.lc with challenge := some r.1 } })

def execLoupeDbgChal (s : State) : Host.Outcome State Fault Refusal :=
  .next (loupe s (fun s =>
    let s := loupeLeave s
    if s.lcState ≠ 2 then loupeOut s 0x42 (List.replicate 32 0)
    else
      let r := drawChallenge s
      loupeOut r.2 0x42 r.1))

/-- The first failing check of a debug certificate, 2 to 7; 1 when it is accepted (17 Table 17.7). -/
def certCheck (s : State) (c : Bytes) : Nat :=
  let rights := leNat (sliceBytes c 6 2)
  let key := fun (alg : Nat) => if alg = 0x3A then sliceBytes c 64 2592 else sliceBytes c 2656 96
  if c.length < 2760 ∨ leNat (sliceBytes c 0 4) ≠ 0x43474244 ∨ byteAt c 4 ≠ 1 ∨ byteAt c 5 ≠ 0 ∨
      sliceBytes c 56 8 ≠ List.replicate 8 0 ∨ 1024 ≤ rights then 2
  else if s.lcState ≠ 2 then 3
  else if sliceBytes c 8 16 ≠ Config.serial then 4
  else if s.lc.challenge ≠ some (sliceBytes c 24 32) then 5
  else if s.lc.debugRoot ≠ some (sha384 (sliceBytes c 64 2688)) then 6
  else if leNat (sliceBytes c 2752 2) ≠ 1 ∨ !(sigBlockOk key (c.drop 2752) (c.take 2752)) then 7
  else 1

/-- A certificate is presented: it consumes the challenge, and an accepted one comes into force (17 R429 to R431). -/
def presentCert (s : State) (c : Bytes) : State :=
  let r := certCheck s c
  let s := { s with lc := { s.lc with challenge := none } }
  let s := s.poke F.LC_DEBUG_LAST r
  if r = 1 then
    let rights := leNat (sliceBytes c 6 2)
    event ((s.poke F.LC_DEBUG_IN_FORCE 1).poke F.LC_DEBUG_RIGHTS rights) 5 evCertGood stewardSrc 0xFFFF (leBytes 2 rights)
  else event s 5 evCertBad stewardSrc 0xFFFF (leBytes 1 r)

def execLoupeDbgCert (cert : List (BitVec 8)) (s : State) : Host.Outcome State Fault Refusal :=
  .next (loupe s (fun s =>
    let s := loupeOut (loupeLeave s) 0x43 []
    if s.lcState ≠ 2 then s else presentCert s cert))

/-- Is a debug right in force: every right in Blank and Test, else those of the certificate (17 Table 17.2)? -/
def State.right (s : State) (n : Nat) : Bool :=
  decide (s.lcState < 2) || (decide (s.lcState = 2) && s.is F.LC_DEBUG_IN_FORCE && (s.get F.LC_DEBUG_RIGHTS).testBit n)

/-- The right that a halt, step or resume of a unit needs: 0 for the steward (unit 72) and custody facets, 2 for the others. -/
def haltRight (s : State) (unit : Nat) : Nat := if unit = 72 ∨ s.get F.FCT_MAP_ROLE unit = 2 then 0 else 2

/-- What a debug read of a register of a halted facet shows: 8 bytes of an open register, low bytes first; a sealed block register, K,
the derivation buffer, H, the accumulator and the hash state read as zero (02 R28, 17 R428). -/
def dbgRegRead (s : State) (p : Fin 72) (r : DbgReg) : Bytes :=
  let piece := fun (n i : Nat) => leBytes 8 (n / 2 ^ (64 * i))
  match r with
  | .reg (.g g) i => piece (tget 0 (s.facet p).g g.val).toNat i
  | .reg (.v v) i => piece (getV s p v).toNat i
  | .reg (.b b) i => if (getB s p b).sld then piece 0 i else piece (getB s p b).val.toNat i
  | _ => piece 0 0

/-- A debug write of 8 bytes of an open register; the registers that read as zero take none (log entry 213). -/
def dbgRegWrite (s : State) (p : Fin 72) (r : DbgReg) (x : BitVec 64) : State :=
  let put := fun (n i : Nat) => n - n / 2 ^ (64 * i) % 2 ^ 64 * 2 ^ (64 * i) + x.toNat * 2 ^ (64 * i)
  match r with
  | .reg (.g g) i => if i.val = 0 then s.modFacet p (fun f => { f with g := tset 0 f.g g.val x }) else s
  | .reg (.v v) i => setV s p v (BitVec.ofNat 256 (put (getV s p v).toNat i))
  | .reg (.b b) i => if (getB s p b).sld then s else setB s p b (bres (BitVec.ofNat 128 (put (getB s p b).val.toNat i)) false)
  | _ => s

/-- DBG_ACCESS: an 8-byte access to a global range of 03 Table 03.1 as master 0x0B8, in the world of its right; a refused one
reports an error to the TAP (17 R427, 15 Tables 15.2 and 15.8). EVENT_READ reads the event log without a world right (17 Table
17.5). A register of a facet that debug has halted is reached under the right that halts it. The status bit is the last byte
shifted out. -/
def execLoupeDbgAccess (t : DbgTarget) (write : Bool) (data : BitVec 64) (s : State) : Host.Outcome State Fault Refusal :=
  .next (loupe s (fun s =>
    let s := loupeLeave s
    let good := fun (s : State) (d : Bytes) => loupeOut s 0x44 (d ++ [0])
    let bad := fun (s : State) => loupeOut s 0x44 (List.replicate 8 0 ++ [1])
    match t with
    | .reg p r =>
      if !(s.right (haltRight s p)) ∨ (s.facet p).halt ≠ 1 then bad s
      else if write then good (dbgRegWrite s p r data) (List.replicate 8 0)
      else good s (dbgRegRead s p r)
    | .mem addr =>
      let inWorld := s.right 0
      let a := addr.toNat
      if s.right 4 && !inWorld && !write && within a 8 logBase (logBase + 0xFFFFF) then good s (s.devRead a 8)
      else if !inWorld && !(s.right 2) then bad s
      else match place inWorld write a 8 with
        | .glob u d =>
          let r := aptCheck s u d 8 0xB8 inWorld write
          let s := visible r.2
          if !r.1 then bad r.2
          else if write then good { s with gmem := memWrite s.gmem a (leBytes 8 data.toNat) } (List.replicate 8 0)
          else good s (s.devRead a 8)
        | _ => bad s))

/-- Halt a facet: K is cleared first, and the work of a facet whose K held a key is abandoned with S_INTERNAL (17 R428). -/
def haltFacet (s : State) (p : Nat) : State :=
  let s := if (s.facet p).k.isSome then abandon (setK s p none) p 6 sInternal else s
  s.modFacet p (fun f => { f with halt := 1 })

/-- DBG_CTRL: 0 halt, 1 step, 2 resume, 3 trace select, each under its right (17 R427, Table 17.5). -/
def execLoupeDbgCtrl (unit : Fin 73) (op : Fin 4) (sel : Nat) (s : State) : Host.Outcome State Fault Refusal :=
  .next (loupe s (fun s =>
    let s := loupeOut (loupeLeave s) 0x45 []
    let u := unit.val
    if op.val = 3 then
      if s.right (haltRight s u + 1) then { s with lc := { s.lc with trace := sel } } else s
    else if !(s.right (haltRight s u)) then s
    else if u = 72 then { s with lc := { s.lc with stewardHalt := decide (op.val = 0) } }
    else if op.val = 0 then haltFacet s u
    else if op.val = 1 then s.modFacet u (fun f => { f with halt := if f.halt = 0 then 0 else 2 })
    else s.modFacet u (fun f => { f with halt := 0 })))

end Sys2Proof.Machine
end

