-- ==== Sys2Proof/Machine/FacetEvents.lean ====
section
/-! DEFINITION. Machine/FacetEvents.lean: lens releases and mismatches (02 R30 to R33), budgets and hangs (03 R70, 20 R480),
check-value self-tests (12 R328), role changes and substitution (02 R51, R52), ageing (20 R486 to R490). -/

namespace Sys2Proof.Machine

open Sys2Proof

/-! ## Lenses -/

/-- A lens mismatch (02 R31): the block in flight is withheld, everything behind it is discarded, and the work is abandoned. -/
def lensFault (s : State) (p lens : Nat) : State :=
  let s := lensMismatch s p lens
  let s := if (s.facet p).work = .none then s else abandon s p 1 sLensFault
  facetFault s p 1

/-- A running sequencer slot of a facet. -/
def runningSlot (f : Facet) : Option Nat := (tfind (fun _ x => match x with
  | some q => decide (0 < q.left)
  | none => false) f.seq).map Prod.fst

/-- LENS_BLOCK_RELEASE: the oldest block in flight reaches its compare (02 R30, R31). -/
def lensBlock (p : Nat) (good : Bool) (e : Ecc) (s : State) : State :=
  let f := s.facet p
  let s := if f.lens = [] then (match runningSlot f with
    | some q => seqIssue e s p q
    | none => s) else s
  match (s.facet p).lens with
  | [] => s
  | o :: _ => if good then lensRelease s p else lensFault s p o.lens
def execLensBlockRelease (c : FacetCycle) (good : Bool) (s : State) : Host.Outcome State Fault Refusal :=
  .next (withCauses c.also c.p (lensBlock c.p good c.ecc) s)

/-- LENS_SELF_TEST: a comparator that misses the forced mismatch counts as a mismatch (02 R33). -/
def execLensSelfTest (p : Fin 72) (lens : Fin 2) (good : Bool) (s : State) : Host.Outcome State Fault Refusal :=
  .next (if good then s else lensFault s p lens)

/-! ## Budgets, hangs, self-tests -/

/-- CYCLE_BUDGET_EXHAUSTED (03 R70, Table 03.4). -/
def execCycleBudgetExhausted (c : FacetCycle) (s : State) : Host.Outcome State Fault Refusal :=
  .next (withCauses c.also c.p (fun s => if (s.facet c.p).work = .none then s else abandon s c.p 7 sInternal) s)

/-- FACET_HANG: the facet stops, its record returns to ACCEPTED, and it is retired (20 R480, 06 R167). A stream facet's hang is
that of STREAM_FACET_HANG. -/
def facetHang (p : Nat) (s : State) : State :=
  match (s.facet p).work with
  | .cmd ctx aseq =>
    let s := match jrFind s ctx aseq with
      | some (i, _) => jrMod s i (fun r => { r with st := .accepted, facet := 0 })
      | none => s
    facetFault (event (facetEnd s p) 4 evHang p 0xFFFF (leBytes 1 p)) p 6
  | _ => s
def execFacetHang (p : Fin 72) (s : State) : Host.Outcome State Fault Refusal := .next (facetHang p s)

/-- CVU_SELF_TEST: by unit (12 R328). -/
def execCvuSelfTest (which : CvUnit) (pass : Bool) (s : State) : Host.Outcome State Fault Refusal :=
  .next (if pass then s
    else match which with
      | .facet p =>
        let s := if (s.facet p).work = .none then s else abandon s p 8 sInternal
        facetFault s p 4
      | .keyStore => critical s 4
      | .steward => critical s 4
      | .ring => event s 4 evRingCv 134)

/-! ## Roles (02 R51) -/

/-- Does a facet hold work? -/
def State.busy (s : State) (p : Nat) : Bool := decide ((s.facet p).work ≠ .none) || decide (s.heldBy p ≠ [])

/-- Start a role change of a physical facet (01 R17, 02 R51). A spare in TEST for its logical number takes up the new role with it (01
R18). -/
def startRole (s : State) (p role : Nat) : State :=
  if s.get F.FCT_MAP_ROLE p = role ∧ (s.facet p).nextRole = 0 then s
  else
    let s := (s.modFacet p (fun f => { f with nextRole := role + 1 })).poke F.FCT_MAP_STATE mapDraining p
    match s.wear.sub with
    | some x => if x.old = p then { s with wear := { s.wear with sub := some { x with role := role } } } else s
    | none => s

/-- FACET_DRAINED: a drained facet loads the entry set of its new role and takes it up; one that waits for a substitution stays drained. -/
def facetDrained (p : Nat) (s : State) : State :=
  if !(s.is F.FCT_MAP_VALID p) || decide (s.get F.FCT_MAP_STATE p ≠ mapDraining) || s.busy p || s.wear.queue.contains p then s
  else match (s.facet p).nextRole with
    | 0 => s
    | r + 1 => ((loadLibrary (s.setFacet p { clearFacet (s.facet p) with nextRole := 0 }) p r).poke F.FCT_MAP_ROLE r p).poke
        F.FCT_MAP_STATE mapActive p
def execFacetDrained (p : Fin 72) (s : State) : Host.Outcome State Fault Refusal := .next (facetDrained p s)

/-! ## Substitution (02 R52, 20 R487 to R490) -/

/-- The physical facets in order of use: lowest spare. -/
def lowestSpare (s : State) : Option Nat := (List.range 72).find? (fun p => s.get F.FCT_MAP_STATE p == mapSpare)

/-- A physical facet leaves service for good. -/
def retireDone (s : State) (p : Nat) : State :=
  let s := ((s.poke F.FCT_MAP_VALID 0 p).poke F.FCT_MAP_STATE mapRetired p).poke F.FCT_AGE_PENDING 0 p
  let w := s.get F.PWR_DOM (p / 32)
  s.poke F.PWR_DOM (if w.testBit (p % 32) then w - 2 ^ (p % 32) else w) (p / 32)

/-- Remove a logical number from service (20 R489, R490). -/
def removeLogical (s : State) (n : Nat) : State :=
  let before := 64 - s.wear.removed.length
  let s := { s with wear := { s.wear with removed := sput s.wear.removed n } }
  let s := event s 3 evRemove stewardSrc 0xFFFF (leBytes 1 n)
  wearUpdate (if 52 ≤ before ∧ 64 - s.wear.removed.length < 52 then event s 4 evFew stewardSrc 0xFFFF (leBytes 1 (64 - s.wear.removed.length)) else s)

/-- The facet that carries the highest-numbered logical facet of a role. -/
def highestOf (s : State) (role : Nat) : Option Nat :=
  (List.range 72).foldl (fun acc p =>
    if s.is F.FCT_MAP_VALID p ∧ s.get F.FCT_MAP_ROLE p = role then match acc with
      | some q => if s.get F.FCT_MAP_LOGICAL q < s.get F.FCT_MAP_LOGICAL p then some p else some q
      | none => some p
    else acc) none

/-- No spare is left (20 R489). -/
def withoutSpare (s : State) (old : Nat) : State :=
  let lg := s.get F.FCT_MAP_LOGICAL old
  let drop := fun (s : State) => { s with wear := { s.wear with queue := s.wear.queue.erase old } }
  if s.get F.FCT_MAP_ROLE old ≠ 2 then removeLogical (retireDone (drop s) old) lg
  else match (highestOf s 1).or (highestOf s 0) with
    | none => s
    | some v =>
      if s.busy v then s.poke F.FCT_MAP_STATE mapDraining v
      else
        let own := s.get F.FCT_MAP_LOGICAL v
        let s := retireDone (drop s) old
        let s := loadLibrary (s.setFacet v { clearFacet (s.facet v) with nextRole := 0 }) v 2
        removeLogical (((s.poke F.FCT_MAP_LOGICAL lg v).poke F.FCT_MAP_ROLE 2 v).poke F.FCT_MAP_STATE mapActive v) own

/-- SUBSTITUTION: the first facet that waits, once it holds no work, is to be replaced by the lowest spare, which goes to TEST
(02 R52 steps 1 and 2; one at a time, 20 Table 20.3), and reads DRAINING from then on (02 R49). A retired facet that carries no logical number only leaves service. -/
def substitution (s : State) : State :=
  match s.wear.sub, s.wear.queue with
  | none, old :: r =>
    if s.busy old then s
    else if !(s.is F.FCT_MAP_VALID old) then wearUpdate (retireDone { s with wear := { s.wear with queue := r } } old)
    else match lowestSpare s with
      | none => withoutSpare s old
      | some p =>
        let role := match (s.facet old).nextRole with
          | 0 => s.get F.FCT_MAP_ROLE old
          | k + 1 => k
        wearUpdate (((setDomain s p true).poke F.FCT_MAP_STATE mapTest p).poke F.FCT_MAP_STATE mapDraining old |> fun s =>
          { s with wear := { s.wear with sub := some ⟨old, s.get F.FCT_MAP_LOGICAL old, role, p⟩ } })
  | _, _ => s
def execSubstitution (s : State) : Host.Outcome State Fault Refusal := .next (substitution s)

/-- SPARE_TESTED: the logical number moves in a single write pair and the old facet is RETIRED, or the spare is retired with
cause 8 and the procedure restarts (02 R52 steps 2 to 5). The spare has loaded the entry set of the role by then. -/
def spareTested (pass : Bool) (s : State) : State :=
  match s.wear.sub with
  | none => s
  | some x =>
    let s := { s with wear := { s.wear with sub := none } }
    if pass then
      let s := { s with wear := { s.wear with queue := s.wear.queue.erase x.old, count := s.wear.count + 1 } }
      let s := retireDone s x.old
      let s := loadLibrary (s.setFacet x.spare Facet.zero) x.spare x.role
      let s := (s.poke F.FCT_MAP_LOGICAL x.logical x.spare).poke F.FCT_MAP_ROLE x.role x.spare
      let s := (s.poke F.FCT_MAP_VALID 1 x.spare).poke F.FCT_MAP_STATE mapActive x.spare
      wearUpdate ((s.poke F.FCT_SUBST_NUMBER s.wear.count x.spare).poke F.FCT_SUBST_FROM x.old x.spare)
    else
      let s := decideRetire s x.spare 8 false
      wearUpdate (retireDone { s with wear := { s.wear with queue := s.wear.queue.erase x.spare } } x.spare)
def execSpareTested (pass : Bool) (s : State) : Host.Outcome State Fault Refusal := .next (spareTested pass s)

/-! ## Ageing (20 R486) -/

/-- Warning and retirement thresholds of the clock mode in force (20 Table 20.5). -/
def ageLimits (s : State) : Nat × Nat := if s.get F.CLK_STATUS_MODE < 2 then (400, 600) else (2000, 2400)

/-- One measurement of one facet. -/
def ageOne (s : State) (a : Ageing) : State :=
  let p := a.p.val
  let st := s.get F.FCT_MAP_STATE p
  if !(st = mapActive ∨ st = mapDraining ∨ (st = mapSpare ∧ s.get F.DEV_START_STAGE = 5)) then s
  else
    let en := s.get F.FCT_AGE_RAW_ENROLLED p
    let age := if en = 0 ∨ en ≤ a.ratio.toNat then 0 else min 10000 ((en - a.ratio.toNat) * 10000 / en)
    let s := (s.poke F.FCT_AGE_RAW_RATIO a.ratio.toNat p).poke F.FCT_AGE_AGE age p
    let s := s.poke F.FCT_AGE_WARN (b2n (decide ((ageLimits s).1 ≤ age))) p
    let run := if (ageLimits s).2 ≤ age then tget 0 s.wear.ageRun p + 1 else 0
    let s := { s with wear := { s.wear with ageRun := tset 0 s.wear.ageRun p run } }
    if 16 ≤ run then decideRetire s p 7 true else s
def execAgeingMeasurement (ratios : List Ageing) (s : State) : Host.Outcome State Fault Refusal :=
  .next (wearUpdate (ratios.foldl ageOne s))

end Sys2Proof.Machine
end

