-- ==== Sys2Proof/Machine/Pin.lean ====
section
/-! DEFINITION. Machine/Pin.lean: PIN fields, PAN fields and the four PIN-field instructions (03, 08 R210 to R212). -/

namespace Sys2Proof.Machine

open Sys2Proof

/-- Is it an ISO 9564 format the part implements? -/
def pinFmtOk (f : Nat) : Bool := f = 0 || f = 1 || f = 3 || f = 4

/-- Bytes of a PIN block of a format. -/
def pinBlockLen (f : Nat) : Nat := if f = 4 then 16 else 8

/-- The nibbles of a PIN field: 16 of an 8-byte one, which stands in bits [63:0] of a block register; 32 of format 4. -/
def fieldNibbles (f : Nat) (x : Block) : List Nat :=
  if f = 4 then nibblesOf (blockBytes x) else nibblesOf (beBytes 8 (x.toNat % 2 ^ 64))

/-- A block from the nibbles of a field. -/
def fieldBlock (l : List Nat) : Block := BitVec.ofNat 128 (beNat (ofNibbles l))

/-- PCHK: the field check (08 R211). -/
def pinCheck (f : Nat) (l : List Nat) : Bool :=
  let n := l.getD 1 0
  decide (l.getD 0 0 = f) && decide (4 ≤ n) && decide (n ≤ 12) && ((l.drop 2).take n).all (fun d => decide (d < 10)) &&
    (match f with
     | 0 => ((l.take 16).drop (n + 2)).all (fun d => decide (d = 15))
     | 3 => ((l.take 16).drop (n + 2)).all (fun d => decide (10 ≤ d))
     | 4 => ((l.take 16).drop (n + 2)).all (fun d => decide (d = 10))
     | _ => true)

/-- The digits of a field that passed the check. -/
def pinDigits (l : List Nat) : List Nat := (l.drop 2).take (min 12 (l.getD 1 0))

/-- The canonical form of a PIN: length, digits in nibbles 1 to 12, the rest 0xF. -/
def pinCanon (n : Nat) (d : List Nat) : List Nat := [n] ++ ((d ++ List.replicate 12 15).take 12) ++ List.replicate 19 15

/-- A PIN field of a format from the PIN's digits and random bytes (08 Table 08.3). -/
def pinField (f : Nat) (d : List Nat) (rnd : Bytes) : List Nat :=
  let r := nibblesOf rnd
  let n := d.length
  match f with
  | 0 => ([0, n] ++ d ++ List.replicate 14 15).take 16
  | 1 => ([1, n] ++ d ++ r).take 16
  | 3 => ([3, n] ++ d ++ rnd.map (fun (x : Byte) => 10 + x.toNat % 6)).take 16
  | _ => ([4, n] ++ d ++ List.replicate 14 10).take 16 ++ (r.take 16)

/-- Random bytes a field of a format takes: 16 for the fill of formats 1 and 3, 8 for the 64 random bits of format 4. -/
def pinRandom (f : Nat) : Nat := match f with
  | 0 => 0
  | 4 => 8
  | _ => 16

/-- The 12 and 11 rightmost digits with the check digit excluded, left-padded with 0 (08 R207). -/
def panRight (k : Nat) (pan : List Nat) : List Nat :=
  let d := pan.dropLast
  (List.replicate k 0 ++ d).drop (d.length)

/-- The PAN field of a format (08 Table 08.3). -/
def panField (f : Nat) (pan : List Nat) : List Nat :=
  match f with
  | 1 => List.replicate 16 0
  | 4 =>
    let p := List.replicate (12 - pan.length) 0 ++ pan
    (([pan.length - 12] ++ p) ++ List.replicate 32 0).take 32
  | _ => [0, 0, 0, 0] ++ panRight 12 pan

/-! ## The instructions -/

/-- PEXT: the canonical form, always sealed (03); a length above 12 has no stated result. -/
def execPext (h : Slot) (bd bs1 : BR) (fmt : BitVec 3) (s : State) : Host.Outcome State Fault Refusal :=
  .next (blkOp h [] (fun s =>
    if !(pinFmtOk fmt.toNat) then badCode s h.p
    else
      let l := fieldNibbles fmt.toNat (getB s h.p bs1).val
      let n := l.getD 1 0
      if n ≤ 12 then setB s h.p bd (bres (fieldBlock (pinCanon n (pinDigits l))) true)
      else setB s.free.2 h.p bd (bres (BitVec.ofNat 128 s.free.1) true)) s)

/-- PINS: the field of a format from the canonical form, with random fill from the entropy source (08 R212). -/
def execPins (h : Slot) (bd bs1 : BR) (fmt : BitVec 3) (s : State) : Host.Outcome State Fault Refusal :=
  .next (blkOp h [] (fun s =>
    if !(pinFmtOk fmt.toNat) then badCode s h.p
    else
      let x := getB s h.p bs1
      let l := nibblesOf (blockBytes x.val)
      let r := drawBytes s (pinRandom fmt.toNat)
      setB r.2 h.p bd (bres (fieldBlock (pinField fmt.toNat ((l.drop 1).take (min 12 (l.getD 0 0))) r.1)) x.sld)) s)

/-- PCHK: the field check writes PINOK alone (03 R56). -/
def execPchk (h : Slot) (bs1 : BR) (fmt : BitVec 3) (s : State) : Host.Outcome State Fault Refusal :=
  .next (blkOp h [] (fun s =>
    if !(pinFmtOk fmt.toNat) then badCode s h.p
    else setPinok s h.p (pinCheck fmt.toNat (fieldNibbles fmt.toNat (getB s h.p bs1).val))) s)

/-- PPAN: the open PAN field from the digits of a register pair (log entry 24). -/
def execPpan (h : Slot) (bd : BR) (g : GR) (fmt : BitVec 3) (s : State) : Host.Outcome State Fault Refusal :=
  .next (blkOp h [g.val, (g.val + 1) % 32] (fun s =>
    if !(pinFmtOk fmt.toNat) then badCode s h.p
    else
      let d := (Config.pairDigits (getG s h.p g) (getG s h.p ⟨(g.val + 1) % 32, Nat.mod_lt _ (by decide)⟩)).map (fun x => x.val)
      setB s h.p bd (bres (fieldBlock (panField fmt.toNat d)) false)) s)

end Sys2Proof.Machine
end

