-- ==== Sys2Proof/Machine/FacetWorld.lean ====
section
/-! DEFINITION. Machine/FacetWorld.lean: world calls, entry calls, the gates of the shipped library, RNGLD and FF1 (03 R41,
R70 to R73, Table 03.9; 08 R233). -/

namespace Sys2Proof.Machine

open Sys2Proof

/-- An installed entry. -/
def State.prog (s : State) (signer id : Nat) : Option Prog := tget none s.progs (signer * 65536 + id)

/-- Show the running entry in FCT_WORK and FCT_STATUS (21 Table 21.6). -/
def showEntry (s : State) (p : Nat) : State :=
  let f := s.facet p
  let s := s.poke F.FCT_WORK_ENTRY (match f.entry with
    | some e => e.id
    | none => 0) p
  let s := s.poke F.FCT_STATUS_ENTRY_CLASS f.cls p
  if f.gate.isSome then s.poke F.FCT_WORK_KIND 3 p
  else s.poke F.FCT_WORK_KIND (match f.work with
    | .none => 0
    | .cmd _ _ => 1
    | .frame _ => 2) p

/-- The passing of work from an owner-signed to a vendor-signed entry clears K, the derivation buffer and every sealed block
register (02 R41). -/
def passEntry (f : Facet) (dst : EntryRef) : Facet :=
  let owner : Bool := (match f.entry with
    | some e => decide (32768 ≤ e.signer)
    | none => false)
  if owner && decide (dst.signer < 32768) then
    { f with k := none, deriv := 0, hsub := 0, acc := 0, b := tfilter (fun _ r => !r.sld) f.b }
  else f

/-- An owner entry's data segment in the owner window (03 R71). -/
def loadWindow (f : Facet) (g : Prog) : Facet :=
  if g.entry.signer < 32768 then f
  else if f.window = some (g.entry.signer * 65536 + g.entry.id) then f
  else { f with window := some (g.entry.signer * 65536 + g.entry.id)
                loc := memWrite (memZero f.loc windowBase 8192) windowBase (g.data.take 8192) }

/-- Enter an entry. -/
def enterProg (f : Facet) (g : Prog) : Facet :=
  loadWindow { passEntry f g.entry with entry := some g.entry, pc := g.start } g

/-! ## World calls -/

/-- Enter gate `n` (03 R72). -/
def wcall (s : State) (p n : Nat) : State :=
  match (tget none s.gates n).bind (fun id => s.prog 0 id) with
  | none => badAddr s p
  | some g =>
    if inner s p ∨ 64 ≤ n then badAddr s p
    else
      let s := drainAll s p
      let s := s.modFacet p (fun f => { f with
        gate := some f.pc, gateFrom := f.entry, gateDepth := f.calls.length, kTouched := false
        entry := some g.entry, pc := g.start })
      showEntry (s.incWrap F.FCT_GATES p) p

/-- The scrub of a return from a gate (03 R73). -/
def scrubGate (f : Facet) (ret : Nat) : Facet :=
  let f := { f with
    g := tfilter (fun k _ => decide (1 ≤ k) && decide (k ≤ 4)) f.g, v := [], b := []
    eq := false, c := false, auth := false, pinok := false, lines := []
    gate := none, entry := f.gateFrom, gateFrom := none, calls := f.calls.drop (f.calls.length - f.gateDepth), gateDepth := 0
    pc := ret }
  if f.kTouched then { f with k := none, deriv := 0, hsub := 0, acc := 0, hash := none, cvu := none, kTouched := false } else f

/-- Return from a gate; with none to return from the work is abandoned (03 R73, Table 03.4). -/
def wret (s : State) (p : Nat) : State :=
  match (s.facet p).gate with
  | none => abandon s p 6 sInternal
  | some ret =>
    let s := drainAll s p
    showK (showEntry (s.modFacet p (fun f => scrubGate f ret)) p) p

def execWcall (h : Slot) (n : BitVec 16) (s : State) : Host.Outcome State Fault Refusal :=
  .next (issueLens h s [] (fun s => wcall s h.p n.toNat))
def execWret (h : Slot) (s : State) : Host.Outcome State Fault Refusal :=
  .next (issueLens h s [] (fun s => wret s h.p))

/-! ## Entry calls (03 R71) -/

/-- The callee of an ECALL: a vendor entry, else an entry of the work's owner, of the facet's role and world. -/
def callee (s : State) (p id : Nat) : Option Prog :=
  let ok := fun (g : Prog) => g.roles.testBit (s.get F.FCT_MAP_ROLE p) && (decide (g.entry.cls = 15) == inner s p)
  ((s.prog 0 id).filter ok).or ((s.prog (32768 + (s.facet p).owner) id).filter ok)

/-- ECALL: calls nest to a depth of 8; a deeper one, and one of no such entry, abandon the work (log entry 28). -/
def execEcall (h : Slot) (id : BitVec 16) (s : State) : Host.Outcome State Fault Refusal :=
  .next (issueLens h s [] (fun s =>
    let p := h.p.val
    let f := s.facet p
    match callee s p id.toNat, f.entry with
    | some g, some e =>
      if 8 ≤ f.calls.length then abandon s p 6 sInternal
      else
        let s := s.setFacet p (enterProg { f with calls := ⟨e, f.pc⟩ :: f.calls } g)
        perf (showK (showEntry s p) p) p 0x0D 1
    | _, _ => abandon s p 6 sInternal))

/-- ERET: back to the caller, with 02 R41 applied; with nothing to return to the work is abandoned. -/
def execEret (h : Slot) (s : State) : Host.Outcome State Fault Refusal :=
  .next (issueLens h s [] (fun s =>
    let p := h.p.val
    let f := s.facet p
    match f.calls with
    | [] => abandon s p 6 sInternal
    | c :: r =>
      if f.gate.isSome ∧ f.calls.length ≤ f.gateDepth then abandon s p 6 sInternal
      else
        let f := { passEntry f c.entry with entry := some c.entry, pc := c.pc, calls := r }
        let f := match s.prog c.entry.signer c.entry.id with
          | some g => loadWindow f g
          | none => f
        showK (showEntry (s.setFacet p f) p) p))

/-! ## Gates (03 Table 03.9) -/

/-- A gate's body inside the gate; from the outer world, the world call, the body and the return (log entry 29). -/
def gateRun (h : Slot) (n : Nat) (body : State → State) (s : State) : State :=
  let p := h.p.val
  if (s.facet p).gate.isSome then issue h s [] body
  else issueLens h s [] (fun s =>
    let s := wcall s p n
    if (s.facet p).gate.isSome then wret (body s) p else s)

/-- The arguments and returns of a gate. -/
def g1 : GR := 1
def g2 : GR := 2
def g3 : GR := 3
def g4 : GR := 4

/-- The status of a gate's handle: present for the owner, or owner 0 in the inner world; a POISONED record is reported with
the state its sealed record holds (04 R525). -/
def gateFind (s : State) (p : Nat) : Nat × KeyRec :=
  let hd := (getG s p g1).toNat % 4294967296
  let r := keyFind s (s.facet p).owner true hd
  if r.1 = sKeyPoisoned ∧ r.2.handle = hd then (sOk, r.2) else if r.1 = sOk then r else (sKeyAbsent, r.2)

def flagByte (r : KeyRec) : Nat := b2n r.exportable + 2 * b2n r.counted + 4 * b2n r.focusBound

/-- KEY_INFO. -/
def gateKeyInfo (p : Nat) (s : State) : State :=
  let r := gateFind s p
  if r.1 ≠ sOk then setG s p g1 (BitVec.ofNat 64 sKeyAbsent)
  else
    let k := r.2
    let s := setG s p g1 (BitVec.ofNat 64 sOk)
    let s := setG s p g2 (BitVec.ofNat 64 (k.state + 256 * k.use + 65536 * flagByte k + 16777216 * k.alg))
    setG s p g3 (BitVec.ofNat 64 (if k.counted then k.limit - k.uses else 0))

/-- OWNER_INFO. -/
def gateOwnerInfo (p : Nat) (s : State) : State :=
  let o := (s.facet p).owner
  let w := tget Owner.absent s.own o
  let s := setG s p g1 (BitVec.ofNat 64 sOk)
  let s := setG s p g2 (BitVec.ofNat 64 (keysHeld s o))
  let s := setG s p g3 (BitVec.ofNat 64 w.keyQuota)
  setG s p g4 (BitVec.ofNat 64 w.mode)

/-- The event class of 03 Table 03.9: AUDIT_NOTE. -/
def evAuditNote : Nat := 0x0204

/-- AUDIT_NOTE: an event at severity 0 attributed to the owner. -/
def gateAuditNote (p : Nat) (s : State) : State :=
  let d := leBytes 2 (getG s p g1).toNat ++ leBytes 6 (getG s p g2).toNat ++ leBytes 6 (getG s p g3).toNat ++
    leBytes 6 (getG s p g4).toNat
  setG (event s 0 evAuditNote p (s.facet p).owner d) p g1 (BitVec.ofNat 64 sOk)

/-- KCV: the check value by method (05 R123). -/
def gateKcv (p : Nat) (s : State) : State :=
  let r := gateFind s p
  if r.1 ≠ sOk then setG s p g1 (BitVec.ofNat 64 sKeyAbsent)
  else if kcvMethodOf r.2.alg ≠ (getG s p g2).toNat then setG s p g1 (BitVec.ofNat 64 sKeyUse)
  else
    let pub := (match tget none s.ks.bodies (kidx s (s.facet p).owner r.2.handle) with
      | some b => b.pub
      | none => [])
    let v := kcvOf r.2.alg r.2.material pub
    setG (setG s p g1 (BitVec.ofNat 64 sOk)) p g2 (BitVec.ofNat 64 (beNat v))

def execGateKeyInfo (h : Slot) (s : State) : Host.Outcome State Fault Refusal := .next (gateRun h 0 (gateKeyInfo h.p) s)
def execGateOwnerInfo (h : Slot) (s : State) : Host.Outcome State Fault Refusal := .next (gateRun h 1 (gateOwnerInfo h.p) s)
def execAuditNote (h : Slot) (s : State) : Host.Outcome State Fault Refusal := .next (gateRun h 2 (gateAuditNote h.p) s)
def execKcv (h : Slot) (s : State) : Host.Outcome State Fault Refusal := .next (gateRun h 3 (gateKcv h.p) s)

/-! ## RNGLD (03 R56, 12 R320) -/

/-- RNGLD: 64 bits of full-entropy output and S_OK; with the source stopped, zero and S_ENTROPY. -/
def execRngld (h : Slot) (d : GR) (s : State) : Host.Outcome State Fault Refusal :=
  .next (issue h s [d.val] (fun s =>
    let p := h.p.val
    if s.rngStopped then setG (setG s p (Config.companion d) (BitVec.ofNat 64 sEntropy)) p d 0
    else
      let r := drawBytes s 8
      setG (setG r.2 p (Config.companion d) (BitVec.ofNat 64 sOk)) p d (BitVec.ofNat 64 (leNat r.1))))

/-! ## FF1 (08 R233, R234) -/

/-- The numerals of an FF1 call, the limits on its arguments (08 R233, R234), and the checks of its key load, with use FPE. -/
def ff1Nums (s : State) (p : Nat) : List Nat :=
  let n := (getG s p g3).toNat
  if n ≤ 4096 then (List.range n).map (fun i => leNat (locRead (s.facet p) (0x10000 + 2 * i) 2)) else []
def ff1Fits (s : State) (p : Nat) : Bool :=
  let radix := (getG s p g2).toNat
  let n := (getG s p g3).toNat
  let m := (getG s p g4).toNat
  decide (m % 256 ≤ 1) && decide (m < 65536) && decide (2 ≤ n) && decide (n ≤ 4096) && decide (2 ≤ radix) && decide (radix ≤ 65536) &&
    decide (1000000 ≤ radix ^ min n 20) && !((ff1Nums s p).any (fun x => decide (radix ≤ x)))
/-- The record that the entry loads passes a pipeline where it is not cached, and its load is checked (04 R83, 02 Table 02.5). -/
def ff1Pipe (s : State) (p : Nat) : State := pipeIn s (kidx s (s.facet p).owner ((getG s p g1).toNat % 4294967296))
def ff1Check (s : State) (p : Nat) : Nat × KeyRec :=
  keyCheck s (s.facet p).owner (inner s p) (workAcc s p) ((getG s p g1).toNat % 4294967296) 14

/-- The FF1 entry: status in g1, the numerals replaced in place. It loads its key itself, with use FPE: a failed load leaves K empty
(02 R36), and one that waits for a lease holds the call back (02 R37). -/
def ff1Run (p : Nat) (s : State) : State :=
  let f := s.facet p
  let hd := (getG s p g1).toNat % 4294967296
  let radix := (getG s p g2).toNat
  let m := (getG s p g4).toNat
  let st := fun (s : State) (x : Nat) => setG s p g1 (BitVec.ofNat 64 x)
  let nums := ff1Nums s p
  if !(ff1Fits s p) then st s sMalformed
  else
    let s := ff1Pipe s p
    let c := ff1Check s p
    if c.1 ≠ sOk then
      let s := s.modFacet p (fun f => { f with k := none, kTouched := true, ldkFail := some c.1 })
      st (showK s p) c.1
    else match consume s (.call p) (kidx s f.owner hd) with
      | none => loadWait (s.modFacet p (fun f => { f with pc := f.pc - 1 })) (.call p) (kidx s f.owner hd)
      | some s =>
        let s := setK s p (some ⟨c.2.material, c.2.alg, 14, f.cls, c.2.handle⟩)
        if !(c.2.alg = 1 || c.2.alg = 2 || c.2.alg = 3) then st s sKeyUse
        else
          let tweak := locRead f 0x1F000 (m / 256)
          let out := if m % 2 = 0 then ff1Enc c.2.alg c.2.material radix tweak nums else ff1Dec c.2.alg c.2.material radix tweak nums
          st (s.modFacet p (fun f => locWrite f 0x10000 (out.flatMap (leBytes 2)))) sOk

def execFf1 (h : Slot) (s : State) : Host.Outcome State Fault Refusal :=
  .next (issueLens h s [] (fun s =>
    let r := sramEcc h.ecc h.p s 0x10000
    if r.1 then ff1Run h.p r.2 else r.2))

end Sys2Proof.Machine
end

