-- ==== Sys2Proof/Machine/KeyPages.lean ====
section
/-! DEFINITION. Machine/KeyPages.lean: sealed pages, export and durability, the page-version tree and reload (04 R95 to
R104, 05 R111). -/

namespace Sys2Proof.Machine

open Sys2Proof

/-- PAGE_RESEAL: a page with a change that no sealed version carries is sealed (04 R96). -/
def execPageReseal (page : Fin 17825792) (s : State) : Host.Outcome State Fault Refusal :=
  .next (if s.ks.toSeal.contains page.val then resealPage s page.val else s)

/-! ## Export (04 R97, R98) -/

/-- The key store writes the oldest pending entry into the ring when there is room. -/
def exportWrite (s : State) : State :=
  match s.ks.pendExp with
  | [] => s
  | x :: r =>
    if !(s.is F.KS_CTRL_EXP_EN) ∨ s.expSize ≤ s.expUsed then s
    else
      let prod := s.get F.KS_EXP_PROD
      let base := s.get F.KS_EXP_BASE_LO_ADDR_LO * 4096 + s.get F.KS_EXP_BASE_HI * 4294967296
      let data := fitBytes 4096 x.payload ++ slotTrailer x s.ks.expSeq
      let s := { s with sent := s.sent ++ [.host (s.primary * 2048) (base + prod % s.expSize * 4160) data] }
      let s := setKs s { s.ks with pendExp := r, ring := s.ks.ring ++ [x], expSeq := s.ks.expSeq + 1 }
      expUpdate (s.poke F.KS_EXP_PROD ((prod + 1) % 4294967296))

def execExportEntryWrite (s : State) : Host.Outcome State Fault Refusal := .next (exportWrite s)

/-- A write of a KS register from a function that may not write (04 R100). -/
def ksDenied (s : State) : State := event s 2 evKsWriter 128

/-- A write of KS_EXP_ACK (04 Table 04.9). -/
def exportAck (a : Agent) (v : Nat) (s : State) : State :=
  if s.outOfReach a 0x50000 then s
  else if !(s.isPrimary a) then ksDenied s
  else if s.expUsed < (v + 4294967296 - s.get F.KS_EXP_ACK) % 4294967296 then event s 3 evAckBeyond 128
  else expUpdate (s.poke F.KS_EXP_ACK v)

def execExportAck (a : Agent) (v : Word) (s : State) : Host.Outcome State Fault Refusal := .next (exportAck a v.toNat s)

/-- EXPORT_STALL: the ring has stayed full for 1,600 mt (04 R97). -/
def execExportStall (s : State) : Host.Outcome State Fault Refusal :=
  .next (if s.is F.KS_STATUS_EXP_FULL then event (s.raise F.KS_STATUS_EXP_STALL) 3 evExpStall 128 else s)

/-! ## Completion on durability (04 R99, 05 R119) -/

/-- A change made under a work tag is durable with its status and result (06 R159). -/
def noteChange (s : State) (owner tag status : Nat) (result : Bytes) : State :=
  { s with jr := { s.jr with changes := tset none s.jr.changes (tagKey owner tag) (some (status, result)) } }

/-- The end of a custody command. -/
def finishCustody (s : State) (owner tag status : Nat) (result : Bytes) : State :=
  finishCommand (custodyEnd s owner tag) owner tag status result

/-- A command waits until the page that holds its change is durable (04 R99). -/
def waitPage (s : State) (page owner tag status : Nat) (result : Bytes) (wipe : Option Nat := none) : State :=
  setKs s { s.ks with waits := s.ks.waits ++ [⟨page, wipe, none, owner, tag, status, result, none, none⟩] }

/-! ## The page-version tree (04 R101, R102) -/

/-- The root slots of a space. -/
def rootsOf (s : State) (sp : Nat) : RootSlot × RootSlot :=
  if sp = 0 then s.ks.roots
  else match s.ring.taken.find? (fun t => t.home + 1 == sp) with
    | some t => t.roots
    | none => (RootSlot.zero, RootSlot.zero)

/-- Write the root slot of a space that does not hold the higher sequence, with the root digest of its tree (04 R102 step 3). -/
def rootAdvance (s : State) (sp : Nat) : State :=
  let x : RootSlot := ⟨treeRoot s.ks.tree sp, 0, epochOf s sp, s.ks.kekCheck⟩
  if sp = 0 then setKs s { s.ks with roots := rootNext s.ks.roots x }
  else setRing s { s.ring with taken := s.ring.taken.map (fun t =>
    if t.home + 1 = sp then { t with roots := rootNext t.roots x } else t) }

/-- Does a record have the state and the attributes of another, whatever loads have changed (04 R88)? -/
def sameAttrs (x y : KeyRec) : Bool := recBody { x with uses := 0, hw := 0 } == recBody { y with uses := 0, hw := 0 }

/-- Write an owner's custody state into MRAM and stream it to the holder (13 Table 13.8). -/
def setCustody (s : State) (o : Nat) (x : Owner) : State :=
  let s := { s with own := tset Owner.absent s.own o x }
  if o = 0 then s else mirrorOut s (homeOf s o) mkCustody o (custodyBytes x)

/-- Is everything a command waits for durable: its page, and for KEY_SCHEDULE its focus entry on every node (04 R99, 05 R136)? -/
def waitMet (s : State) (w : PageWait) : Bool :=
  (match w.version with
    | some v => decide (v ≤ (s.leaf w.page).dur)
    | none => false) &&
  (match w.entry with
    | some e => (match tget none s.foc.table e with
      | some x => decide (x.st ≠ 4) || decide (x.owner ≠ w.owner) || decide (x.tag ≠ w.tag)
      | none => true)
    | none => true)

/-- Complete the commands whose waits are met. -/
def settleWaits (s : State) : State :=
  let done := s.ks.waits.filter (waitMet s)
  let s := setKs s { s.ks with waits := s.ks.waits.filter (fun w => !(done.contains w)) }
  done.foldl (fun s w =>
    let s := match w.cust with
      | some (o, k, c) =>
        let x := tget Owner.absent s.own o
        setCustody s o { x with custodians := tset none x.custodians k c }
      | none => s
    finishCustody (noteChange s w.owner w.tag w.status w.result) w.owner w.tag w.status w.result) s

/-- Is a record one that the holder keeps: any record of an owner but owner 0, and the owners' root records (13 Mirroring)? -/
def mirrored (i : Nat) (r : KeyRec) : Bool :=
  decide (r.state ≠ 0) && (decide (r.owner ≠ 0) || (decide (i % 33554432 < 4096) && decide (i % 33554432 ≠ 0)))

/-- The last body part of an extended record has passed: the body goes to the holder (13 Table 13.8). -/
def bodyDurable (s : State) (x : PageSlot) : State :=
  let i := x.space * 33554432 + hIdx x.page
  let r := s.krec i
  match tget none s.ks.bodies i with
  | some b => if r.handle = x.page ∧ mirrored i r ∧ x.part = (if 4096 < r.bodyLen then 1 else 0) then
      mirrorOut s (spaceHome s x.space) mkBody (hIdx x.page) (bodyBytes r.handle r.alg b)
    else s
  | none => s

/-- One entry below KS_EXP_ACK becomes durable (04 R88, R93, R98, R102): the leaf, the node digest, the marks that the durable
version covers, the pins it releases, the commands it completes, and the unallocated pool. Records are mirrored (13 Table
13.8). -/
def makeDurable (s : State) (x : PageSlot) : State :=
  if x.kind = 2 then bodyDurable s x
  else if x.kind ≠ 0 then s
  else
    let p := x.space * 1048576 + x.page
    let recs := match pageKey s p with
      | some k =>
        if gcmTag 3 k (pageIv x.page x.version) (pageAad x.page x.owner x.live x.version) x.payload = x.tag then unsealPage k x else []
      | none => []
    let at_ := fun (k : Nat) => recs.getD (k % 32) KeyRec.empty
    let l := s.leaf p
    let l := { l with dur := x.version, tag := x.tag, live := x.live, durOwner := x.owner
                      pend := decide (l.cur ≠ x.version) }
    let gone := decide (128 ≤ p % 1048576) && decide (x.live = 0) && !l.pend && !(s.ks.toSeal.contains p) &&
      (pageRecs s p).all (fun r => !r.live)
    let s := setLeaf s p (if gone then { l with owner := 0xFFFF } else l)
    let s := setKs s { s.ks with
      tree := tset [] s.ks.tree (p / 16) (groupDigest (p / 16) s.leaf)
      groups := sput s.ks.groups (p / 16)
      marks := tfilter (fun k hw => !(decide (k / 4294967296 = x.space) && decide (pageOf (hIdx k) = x.page) &&
        decide ((at_ (hIdx k)).handle = k % 4294967296) && decide (hw ≤ (at_ (hIdx k)).hw))) s.ks.marks
      cache := tmap none (fun k c => if pageOf k = p ∧ sameAttrs (at_ k) (s.krec k) then
        c.map (fun e => { e with pinned := false }) else c) s.ks.cache }
    let s := (List.range 32).foldl (fun s k =>
      let r := at_ k
      if mirrored (p * 32 + k) r then
        mirrorOut s (spaceHome s x.space) mkRecord (x.page * 32 + k) (recBytes r ((x.page * 32 + k) * 128) ++ leBytes 8 x.version)
      else s) s
    settleWaits s

/-- The first entries of a batch that hold at most 64 pages. -/
def batchLen (l : List PageSlot) (pages n : Nat) : Nat :=
  match l with
  | [] => n
  | x :: r => if x.kind = 0 then (if pages = 64 then n else batchLen r (pages + 1) (n + 1)) else batchLen r pages (n + 1)

/-- A batch of acknowledged entries becomes durable and KS_EXP_DUR advances past it (04 R98, R102): the update log, the leaves and the nodes, then
the root slot. It ends before a page of a fenced owner (13 R345). -/
def treeCommit (s : State) : State :=
  let acked := (s.get F.KS_EXP_ACK + 4294967296 - s.get F.KS_EXP_DUR) % 4294967296
  let n := batchLen ((s.ks.ring.take acked).takeWhile (fun x => !(decide (x.kind = 0) && s.fenced x.owner))) 0 0
  if n = 0 then s
  else
    let l := s.ks.ring.take n
    let s := setKs s { s.ks with ring := s.ks.ring.drop n }
    let s := s.poke F.KS_EXP_DUR ((s.get F.KS_EXP_DUR + n) % 4294967296)
    let pages := l.filter (fun x => decide (x.kind = 0))
    let recs := pages.map (fun x => (⟨x.space * 1048576 + x.page, x.version, x.tag, x.owner, x.live, (rootLast (rootsOf s x.space)).seq + 1⟩ : UpdRec))
    let log := s.ks.log ++ recs
    let s := l.foldl makeDurable (setKs s { s.ks with log := log.drop (log.length - 1024) })
    markShow ((pages.map (fun x => x.space)).eraseDups.foldl rootAdvance s)

/-! ## The wipe of a destroyed key (04 R89) -/

/-- Does a facet or a Huxel port still hold the key? -/
def keyHeld (s : State) (i : Nat) : Bool :=
  s.facets.any (fun e => match e.2.k with
    | some k => decide (k.handle = (s.krec i).handle) && decide (kidx s e.2.owner k.handle = i)
    | none => false) ||
  s.hx.ops.any (fun x => decide (x.array ≠ 0) && decide (x.w.a.toNat = (s.krec i).handle) && decide (kidx s x.owner x.w.a.toNat = i))

/-- Overwrite the material with zero, free the granules, and have the page re-sealed. -/
def wipeRec (s : State) (i : Nat) : State :=
  let r := s.krec i
  let base := idxSpace i * 16777216
  let s := if r.ext then setGranules s (base + r.granule) r.granules 0 else s
  let s := if r.ext ∧ base = 0 then { s with gmem := memZero s.gmem (0x1100000000 + r.granule * 512) (r.granules * 512) } else s
  let s := setKs s { s.ks with bodies := tset none s.ks.bodies i none, wiping := sdel s.ks.wiping i }
  changeRec s i { r with material := [], granule := 0, granules := 0, bodyLen := 0, bodyTag := [] }

/-! ## Activation (04 Table 04.3, 05 R135, R137, R140) -/

/-- A PENDING key becomes ACTIVE and its predecessor RETIRED in the same instant `t`, in nanoseconds. An EXHAUSTED predecessor
stays EXHAUSTED and takes the successor as its linked handle. -/
def activate (s : State) (i t : Nat) : State :=
  let r := s.krec i
  let j := kidx s r.owner r.linked
  let q := s.krec j
  let s := changeRec s i { r with state := kActive, linked := 0, grace := 0, focus := 0xFFFF }
  if r.linked = 0 ∨ q.handle ≠ r.linked ∨ q.owner ≠ r.owner then s
  else if q.state = kActive then
    changeRec s j { q with state := kRetired, linked := r.handle, grace := graceEnd t r.grace }
  else if q.state = kExhausted then changeRec s j { q with linked := r.handle }
  else s

/-- The KEY_ACTIVATE instants of armed keys, in nanoseconds: from the focus table. -/
def instantOf (s : State) (entry : Nat) : Option Nat := tget none s.foc.table entry |>.map (fun e => e.instant)

/-! ## Reload (04 R94, R103, R104; 05 R111) -/

/-- Does a group of pages serve its records? A group that was never written holds unallocated pages only. -/
def groupLive (s : State) (g : Nat) : Bool := s.ks.groups.contains g || decide (tget [] s.ks.tree g = [])

/-- R94 on a counted record of a restoring copy. -/
def leaseRestore (s : State) (i : Nat) (r : KeyRec) : KeyRec :=
  if !r.counted then r
  else
    let v := max r.hw (max (tget 0 s.ks.marks (spaceHandle i r.handle)) r.uses)
    { r with uses := v, hw := v, state := if v = r.limit ∧ r.state = kActive then kExhausted else r.state }

/-- A record takes the count that R94 gives it; one that it exhausts is recorded (05 R142). -/
def leaseTake (s : State) (i : Nat) (r : KeyRec) : State :=
  let r' := leaseRestore s i r
  let s := setKs s { s.ks with recs := tset KeyRec.empty s.ks.recs i r' }
  if r'.state = kExhausted ∧ r.state ≠ kExhausted then event s 2 evExhausted 128 r'.owner (leBytes 4 r'.handle ++ leBytes 8 0) else s

/-- A KEY_ACTIVATE of an owner's key takes effect at an instant: work accepted before it still sees the old states (05 R137). The list
stands in MRAM beside the focus table. -/
def noteAct (s : State) (o h t : Nat) : State := if s.acted.contains (o, h, t) then s else { s with acted := s.acted ++ [(o, h, t)] }

/-- A PENDING record whose KEY_ACTIVATE instant has passed is activated, with its predecessor RETIRED from that instant (04
R104). -/
def actIfPast (s : State) (i : Nat) : State :=
  let r := s.krec i
  if r.state = kPending ∧ r.focus ≠ 0xFFFF then
    match instantOf s r.focus with
    | some t => if t ≤ s.now then
        let s := activate (noteAct s r.owner r.handle t) i t
        { s with foc := { s.foc with table := tset none s.foc.table r.focus ((tget none s.foc.table r.focus).map (fun x =>
            { x with st := 2, outcome := 1 })) } }
      else s
    | none => s
  else s

/-- The slot that 4,160 bytes of the import ring hold; none where check 1 of 04 Table 04.12 fails. -/
def slotParse (s : State) (b : Bytes) : Option PageSlot :=
  let t := b.drop 4096
  let n := fun (o k : Nat) => leNat (sliceBytes t o k)
  let ok := decide (n 0 4 = 0x4B535047) && decide (n 11 1 = 1) && (decide (n 12 1 = 0) || decide (n 12 1 = 1) || decide (n 12 1 = 3)) &&
    decide (n 48 4 = crc32c (n 4 4) (sliceBytes t 0 48)) && decide (n 13 1 < 2) &&
    (decide (n 12 1 = 3) || decide (n 4 4 < 1048576)) &&
    (decide (n 14 1 = 0) || s.ring.taken.any (fun x => decide (x.home + 1 = n 14 1)))
  if ok then some ⟨n 12 1, n 4 4, n 8 2, n 10 1, n 13 1, n 14 1, n 16 8, sliceBytes t 24 16, b.take 4096⟩ else none

/-- The leaf that a candidate yields. -/
def candLeaf (x : PageSlot) : Leaf :=
  { cur := x.version, dur := x.version, tag := x.tag, owner := if x.live = 0 ∧ 128 ≤ x.page then 0xFFFF else x.owner
    live := x.live, pend := false, pois := false, lost := decide (x.kind = 1), gfail := false, durOwner := x.owner }

/-- The body of a live record once its parts have come: deciphered under the record's body key (04 R84). -/
def bodyTry (s : State) (i : Nat) : State :=
  let r := s.krec i
  let part := fun (j : Nat) => tget none s.ks.bodyCand (i * 2 + j)
  match part 0 with
  | none => s
  | some p0 =>
    if !r.live ∨ !r.ext ∨ (4096 < r.bodyLen ∧ (part 1).isNone) then s
    else
      let c := p0.payload.take (min 4096 r.bodyLen) ++ (match part 1 with
        | some x => x.payload.take (r.bodyLen - 4096)
        | none => [])
      let iv := beBytes 4 r.handle ++ List.replicate 8 0
      let s := setKs s { s.ks with bodyCand := tset none (tset none s.ks.bodyCand (i * 2) none) (i * 2 + 1) none }
      if gcmTag 3 r.material iv (bodyAad r.handle r.alg r.bodyLen) c ≠ r.bodyTag then s
      else
        let d := gcmCrypt 3 r.material iv c
        let pl := leNat (sliceBytes d 8 2)
        let s := if idxSpace i = 0 then { s with gmem := memWrite s.gmem (0x1100000000 + r.granule * 512) c } else s
        setKs s { s.ks with bodies := tset none s.ks.bodies i (some ⟨sliceBytes d 16 pl, sliceBytes d (16 + pl) (leNat (sliceBytes d 10 2))⟩) }

/-- Install the records of a page at its candidate's version. Once the reload is over, R94 and R104 apply to each at once. -/
def pageLive (s : State) (p : Nat) (x : PageSlot) : State :=
  let s := setLeaf s p (candLeaf x)
  if x.kind = 1 then s
  else
    let recs := match (if p % 1048576 < 128 then some (kdf (deviceKek s) "PH64-PG00" []) else tget none s.ownKeys x.owner) with
      | some k => unsealPage k x
      | none => []
    let s := if pageSpace p = 0 then { s with gmem := memWrite s.gmem (0x1000000000 + p * 4096) x.payload } else s
    (List.range 32).foldl (fun s k =>
      let i := p * 32 + k
      let r := recs.getD k KeyRec.empty
      let late := s.is F.KS_STATUS_READY
      let s := if late then leaseTake s i r else setKs s { s.ks with recs := tset KeyRec.empty s.ks.recs i r }
      let s := if r.live ∧ r.ext then bodyTry (setGranules s (idxSpace i * 16777216 + r.granule) r.granules r.handle) i else s
      if late then actIfPast s i else s) s

/-- Try to take a group live: its candidates, with unallocated leaves for the other pages, must reproduce the digest that MRAM
holds for it (04 R103). The owner keys of root records in it are derived (05 R111). -/
def groupTry (s : State) (g : Nat) : State :=
  if groupLive s g then s
  else
    let leaf := fun (p : Nat) => match tget none s.ks.cand p with
      | some x => candLeaf x
      | none => Leaf.free
    if groupDigest g leaf ≠ tget [] s.ks.tree g then s
    else
      let s := (List.range 16).foldl (fun s k =>
        let p := g * 16 + k
        match tget none s.ks.cand p with
        | some x =>
          let s := pageLive s p x
          setKs s { s.ks with cand := tset none s.ks.cand p none }
        | none => setLeaf s p { s.leaf p with gfail := false }) s
      let s := setKs s { s.ks with groups := sput s.ks.groups g }
      let s := if g % 65536 < 8 then
          (List.range 512).foldl (fun s k =>
            let o := g % 65536 * 512 + k
            if (s.krec (g * 512 + k)).live ∧ spaceOf s o = g / 65536 then deriveOwnerKey s o else s) s
        else s
      if s.get F.KS_STATUS_RELOAD = 1 ∧ (List.range 8).all (groupLive s) then s.poke F.KS_STATUS_RELOAD 2 else s

/-- Does a copy fit the record it would restore: it is live, and no record of another generation stands in its place? -/
def copyFits (s : State) (i : Nat) (r : KeyRec) : Bool := r.live && (!(s.krec i).live || decide (r.handle = (s.krec i).handle))

/-- Restore a record from a copy (04 R107): the poison-table entry goes, the page is to be re-sealed, and an event records it. An
extended record without its body stays POISONED. `rec` says that the copy is reconciled under R104. -/
def restored (s : State) (i : Nat) (r : KeyRec) (rec : Bool) : State :=
  let t := changeRec (showPoison (setKs s { s.ks with poison := s.ks.poison.filter (fun e => e.index != i) })) i r
  let t := if r.ext ∧ (tget none t.ks.bodies i).isNone then
      bodyTry (setGranules t (idxSpace i * 16777216 + r.granule) r.granules r.handle) i else t
  if r.ext ∧ (tget none t.ks.bodies i).isNone then poisonRec t i 3
  else event (if rec then actIfPast t i else t) 1 evRestored 128 r.owner (leBytes 4 r.handle)

/-- The poisoned records of a page take their copies, under R94; all of a page that is `whole`. Records of a page poisoned whole
that no copy fits stay POISONED. -/
def restorePage (s : State) (p : Nat) (recs : List KeyRec) (whole : Bool) : State :=
  let l := s.leaf p
  let left := l.pois && (List.range 32).any (fun k =>
    (s.krec (p * 32 + k)).live && !(copyFits s (p * 32 + k) (recs.getD k KeyRec.empty)))
  let s := if whole then setLeaf s p { l with pois := left, lost := false } else s
  (List.range 32).foldl (fun (s : State) (k : Nat) =>
    let i := p * 32 + k
    let r := recs.getD k KeyRec.empty
    if copyFits s i r && (whole || s.ks.poison.any (fun e => e.index == i)) then restored (leaseTake s i r) i (leaseRestore s i r) true else s) s

/-- A page under restore (04 R107): its poisoned records are taken from the durable version. -/
def restoreFrom (s : State) (p : Nat) (x : PageSlot) : State :=
  let recs := match pageKey s p with
    | some k => unsealPage k x
    | none => []
  let s := restorePage s p recs ((s.leaf p).pois || (s.leaf p).lost)
  setKs s { s.ks with asked := sdel s.ks.asked p }

/-- The answer to an import entry (04 Table 04.12): status, and the version of bytes 56 to 63; none where the entry waits at the
head of the ring for its owner's key. -/
def importEntry (s : State) (b : Bytes) : Option (Nat × Nat × State) :=
  match slotParse s b with
  | none => some (sMalformed, 0, s)
  | some x =>
    if x.kind = 3 then
      let i := x.space * 33554432 + hIdx x.page
      let r := s.krec i
      if r.live ∧ r.handle = x.page ∧ (tget none s.ks.bodies i).isSome then some (sAlreadyDone, 0, s)
      else if r.live ∧ r.handle = x.page ∧ r.bodyTag ≠ x.tag then some (sDenied, 0, s)
      else some (sOk, 0, bodyTry (setKs s { s.ks with bodyCand := tset none s.ks.bodyCand (i * 2 + x.part) (some x) }) i)
    else
      let p := x.space * 1048576 + x.page
      let g := p / 16
      let l := s.leaf p
      let key := if x.page < 128 then some (kdf (deviceKek s) "PH64-PG00" []) else tget none s.ownKeys x.owner
      let restoring := s.ks.asked.contains p
      if s.ks.groups.contains g ∧ l.dur = x.version ∧ !l.lost ∧ !restoring ∧ !(s.ks.await.contains p) then some (sAlreadyDone, l.dur, s)
      else if x.kind = 0 ∧ key.isNone then
        (if (List.range 8).all (fun k => groupLive s (x.space * 65536 + k)) then some (sDenied, 0, s) else none)
      else if s.ks.await.contains p ∧ l.owner ≠ x.owner then some (sDenied, 0, s)
      else if x.kind = 0 ∧
          gcmTag 3 (key.getD []) (pageIv x.page x.version) (pageAad x.page x.owner x.live x.version) x.payload ≠ x.tag then
        some (sDenied, 0, s)
      else if groupLive s g ∧ x.version ≠ l.dur then some (sDenied, l.dur, s)
      else if groupLive s g ∧ s.ks.await.contains p then
        some (sOk, x.version, setKs (pageLive s p x) { (pageLive s p x).ks with await := sdel s.ks.await p })
      else if groupLive s g then some (sOk, x.version, if x.kind = 0 then restoreFrom s p x else s)
      else some (sOk, x.version, groupTry (setKs s { s.ks with cand := tset none s.ks.cand p (some x) }) g)

/-- IMPORT_ENTRY: the entry at the head of the import ring is consumed and answered (04 R103). It waits until IMP_EN is 1, the
tree is validated, and the host has placed it. -/
def execImportEntry (slot : List (BitVec 8)) (s : State) : Host.Outcome State Fault Refusal :=
  .next (if !(s.is F.KS_CTRL_IMP_EN) ∨ s.get F.KS_STATUS_RELOAD = 0 ∨ s.get F.KS_IMP_PROD = s.get F.KS_IMP_CONS then s
    else match importEntry s slot with
      | none => s
      | some (st, v, (s : State)) =>
        let cons := s.get F.KS_IMP_CONS
        let base := s.get F.KS_IMP_BASE_LO_ADDR_LO * 4096 + s.get F.KS_IMP_BASE_HI * 4294967296
        let a := base + cons % 2 ^ s.get F.KS_IMP_SIZE_LOG2_SLOTS * 4160 + 4096 + 52
        let s := { s with sent := s.sent ++ [Out.host (s.primary * 2048) a (leBytes 2 st ++ [0, 0] ++ leBytes 8 v)]
                          out := leBytes 2 st ++ leBytes 8 v }
        s.poke F.KS_IMP_CONS ((cons + 1) % 4294967296))

/-- Insert by instant, then by entry number: instant, entry, record. -/
def dueInsert (x : Nat × Nat × Nat) (l : List (Nat × Nat × Nat)) : List (Nat × Nat × Nat) := match l with
  | [] => [x]
  | y :: r => if x.1 < y.1 ∨ (x.1 = y.1 ∧ x.2.1 < y.2.1) then x :: y :: r else y :: dueInsert x r

/-- The activations whose instant has passed, in the order of their instants, then of their entries (04 R104, 10 R292, R294). -/
def actDue (s : State) : State :=
  let due := s.ks.recs.filterMap (fun e => (instantOf s e.2.focus).map (fun t => (t, e.2.focus, e.1)))
  (due.foldr dueInsert []).foldl (fun s x => actIfPast s x.2.2) s

/-- After RELOAD_END: R94 on every counted record, and the activations whose instant has passed (04 R104). -/
def reloadFinish (s : State) : State :=
  let s := s.ks.recs.foldl (fun s e => if (s.krec e.1).live then leaseTake s e.1 (s.krec e.1) else s) s
  actDue s

/-- The groups that MRAM names and that have not verified. -/
def groupsMissing (s : State) : List Nat := (s.ks.tree.filter (fun e => !(s.ks.groups.contains e.1))).map Prod.fst

/-- A failed group: its pages take flag bit 3 (04 R104). -/
def groupFail (s : State) (g : Nat) : State :=
  (List.range 16).foldl (fun s k => setLeaf s (g * 16 + k) { s.leaf (g * 16 + k) with gfail := true }) s

end Sys2Proof.Machine
end

