-- ==== Sys2Proof/Machine/Journal.lean ====
section
/-! DEFINITION. Machine/Journal.lean: queue pairs, acceptance, dispatch, completion and release (06, 14 R363 to R365). -/

namespace Sys2Proof.Machine

open Sys2Proof

/-- Event codes of 06: a doorbell refused, a re-presentation whose digest differs, a journal record lost, records dropped. -/
def evDoorbell : Nat := 0x0501
def evDigest : Nat := 0x0502
def evJrLost : Nat := 0x0503
def evJrDropped : Nat := 0x0504

/-- A queue-context write from a function that does not own the context (06 R146, 21 R496). -/
def evCtxWriter : Nat := 0x1402

def State.queue (s : State) (c : Nat) : Queue := tget Queue.zero s.jr.queues c
def setJr (s : State) (j : JrSt) : State := { s with jr := j }
def setQueue (s : State) (c : Nat) (q : Queue) : State := setJr s { s.jr with queues := tset Queue.zero s.jr.queues c q }
def modQueue (s : State) (c : Nat) (f : Queue → Queue) : State := setQueue s c (f (s.queue c))
def setOwner (s : State) (o : Nat) (x : Owner) : State := { s with own := tset Owner.absent s.own o x }
def modOwner (s : State) (o : Nat) (f : Owner → Owner) : State := setOwner s o (f (s.owner o))
def State.ctxOwner (s : State) (c : Nat) : Nat := s.get F.QP_ID_OWNER c
def State.sqSize (s : State) (c : Nat) : Nat := 2 ^ s.get F.QP_CTRL_LOG2_SQ c
def State.cqSize (s : State) (c : Nat) : Nat := 2 ^ s.get F.QP_CTRL_LOG2_CQ c

/-- The function that owns a context; none owns one that the image does not bind. -/
def State.ownsCtx (s : State) (a : Agent) (c : Nat) : Bool := match a with
  | .fn f => (s.queue c).bound && decide (fnNum f = s.ctxFn c)
  | _ => false

/-- The records of a queue, lowest ASEQ first. -/
def insAseq (e : Nat × JRec) (l : List (Nat × JRec)) : List (Nat × JRec) :=
  match l with
  | [] => [e]
  | x :: r => if e.2.aseq ≤ x.2.aseq then e :: x :: r else x :: insAseq e r
def State.ctxRecs (s : State) (c : Nat) : List (Nat × JRec) :=
  s.jr.recs.foldl (fun acc e => match e.2 with
    | some r => if r.ctx = c then insAseq (e.1, r) acc else acc
    | none => acc) []

/-! ## Owner modes -/

/-- Is the set of an owner protected by a holder, so that its modes 2 and 3 run as such (06 R154)? Owner 0 is never mirrored
(13 R331). -/
def State.protected (s : State) (o : Nat) : Bool :=
  decide (2 ≤ s.ringState) && s.hasSucc && decide (o ≠ 0) &&
    (match s.ring.taken.find? (fun t => t.owners.contains o) with
      | some t => decide (t.holder ≠ 0)
      | none => s.is F.VR_STATE_HELD)

/-- The durability mode applied to new acceptances of an owner (06 R153, R154). -/
def State.modeOf (s : State) (o : Nat) : Nat :=
  let m := (s.owner o).mode
  if 2 ≤ m ∧ !(s.protected o) then 1 else m

def State.fellBack (s : State) (o : Nat) : Bool := decide (2 ≤ (s.owner o).mode) && !(s.protected o)

/-- Is a function present: a PF, or a VF below NumVFs (14 R357)? -/
def State.fnPresent (s : State) (fn : Nat) : Bool :=
  decide (fn % 2048 = 0) || decide (fn % 2048 - 1 < (tget HPort.zero s.hports (fn / 2048)).num)

/-- Does an owner hold recovered records (06 R170)? -/
def State.recovers (s : State) (o : Nat) : Bool := s.jr.recs.any (fun e => match e.2 with
  | some r => decide (r.owner = o) && (decide (r.st = .recAccepted) || decide (r.st = .recDone))
  | none => false)

/-- Is an owner in a drain that goes on after a reset, in which only its recovered records are re-presented (14 R370)? -/
def State.redrains (s : State) (o : Nat) : Bool :=
  let x := s.owner o
  decide (x.state = oResetting) && !x.selfReset && !x.erasing && !x.squash && s.recovers o

/-- May the owner's queues be read (13 R340, R345; 14 R361, R370; 18 R451)? -/
def State.accepts (s : State) (o : Nat) : Bool :=
  let x := s.owner o
  s.rst.accOpen && !(s.fenced o) && !x.waiting &&
    (decide (x.state = oActive) || (decide (x.state = oResetting) && x.selfReset && !x.erasing) || s.redrains o || decide (x.state = oTaken))

/-- A token in the units of the buckets. -/
def tokenUnit : Nat := 1000000000

/-- Do an owner's buckets let an entry be accepted (14 R363)? -/
def Owner.funded (x : Owner) : Bool :=
  (decide (x.cmdRate = 0) || decide (tokenUnit ≤ x.cmdTok)) && (decide (x.byteRate = 0) || decide (0 < x.byteTok))

/-! ## Journal limits (06 R156, Table 06.13) -/

def jrCount (s : State) (p : JRec → Bool) : Nat := (s.jr.recs.filter (fun e => match e.2 with
  | some r => p r
  | none => false)).length
def limitTotal (s : State) : Bool := decide (1048576 ≤ s.jr.recs.length)
def limitFor (s : State) (mode : Nat) : Bool :=
  limitTotal s || ((decide (mode = 1) || decide (mode = 3)) && decide (131072 ≤ jrCount s (fun r => r.slot.isSome))) ||
    (decide (2 ≤ mode) && decide (524288 ≤ jrCount s (fun r => decide (2 ≤ r.mode))))

/-- Is an answer to record `i` not yet posted? -/
def answerOpen (s : State) (i : Nat) : Bool := s.jr.recs.any (fun e => match e.2 with
  | some r => r.answer && r.pre.isNone && decide (r.orig = i) && r.cq.isNone
  | none => false)

/-- The mode of an entry of an owner: its own, or under the durability override 3, or 1 in fallback (06 R153). -/
def State.entryMode (s : State) (o : Nat) (override : Bool) : Nat :=
  if override then (if s.protected o then 3 else 1) else s.modeOf o

/-- Does the journal limit that the head of a queue waits on still hold (06 R156)? -/
def jfullHolds (s : State) (c : Nat) : Bool := match (s.queue c).need with
  | 0 => limitTotal s
  | 1 => limitFor s (s.entryMode (s.ctxOwner c) false)
  | 2 => limitFor s (s.entryMode (s.ctxOwner c) true)
  | i + 3 => limitTotal s || answerOpen s i

/-- Show JFULL of a queue. -/
def setJfull (s : State) (c : Nat) (v : Bool) : State :=
  if v then ((if s.is F.QP_STATUS_JFULL c then s else s.raise F.QP_STATUS_JFULL_SEEN c)).poke F.QP_STATUS_JFULL 1 c
  else s.poke F.QP_STATUS_JFULL 0 c

/-- Bring QP_STATUS of a queue up to date (06 Table 06.6). -/
def showQueue (s : State) (c : Nat) : State :=
  let o := s.ctxOwner c
  let s := (s.poke F.QP_STATUS_FALLBACK (b2n (s.fellBack o)) c).poke F.QP_STATUS_MODE (s.modeOf o) c
  let s := setJfull s c (s.is F.QP_STATUS_JFULL c && jfullHolds s c)
  s.poke F.QP_STATUS_RECOVERING (b2n (decide (s.get F.QP_STATUS_RECOVER_LEFT c ≠ 0))) c

/-- Bring JFULL of every queue up to date: records became free, or an answer was posted. -/
def showQueues (s : State) : State := (s.jr.queues.map Prod.fst).foldl showQueue s

/-- Acceptance on a queue waits on a journal limit (06 R156). -/
def waitLimit (s : State) (c need : Nat) : State := setJfull (modQueue s c (fun q => { q with need := need })) c true

/-! ## Doorbells and enables (06 R147, R148) -/

def ctxDenied (s : State) : State := event s 2 evCtxWriter stewardSrc

/-- A doorbell write that breaks R148. -/
def badDoorbell (s : State) (c : Nat) : State := event (s.raise F.QP_STATUS_DB_ERR c) 3 evDoorbell stewardSrc (s.ctxOwner c) (leBytes 2 c)

/-- SQ_TAIL_DOORBELL. -/
def sqDoorbell (a : Agent) (c v : Nat) (s : State) : State :=
  if s.outOfReach a 0x400000 then s
  else if !(s.ownsCtx a c) then ctxDenied s
  else
    let n := s.sqSize c
    let ah := s.get F.QP_AH_AH c
    if n ≤ v ∨ (v + n - ah % n) % n < (s.get F.QP_SQ_TAIL_TAIL c + n - ah % n) % n then badDoorbell s c
    else s.poke F.QP_SQ_TAIL_TAIL v c
def execSqTailDoorbell (a : Agent) (c : Fin 16384) (v : BitVec 16) (s : State) : Host.Outcome State Fault Refusal :=
  .next (sqDoorbell a c.val v.toNat s)

/-- Is a tag still carried by an unreleased answer (06 R165)? -/
def tagAnswered (s : State) (owner tag i : Nat) : Bool :=
  s.jr.recs.any (fun e => match e.2 with
    | some r => r.answer && decide (r.owner = owner) && decide (r.tag = tag) && decide (r.orig = i)
    | none => false)

/-- Is the release of a record durable (06 R160)? -/
def relDurable (s : State) (r : JRec) : Bool :=
  decide (r.st = .releasing) &&
    (if r.mode = 0 then true
     else if r.mode = 1 then decide (r.aseq < (tget QDur.zero s.jr.durable r.ctx).mark)
     else if r.mode = 2 then decide (r.aseq < (s.queue r.ctx).relAck) || !(s.protected r.owner)
     else decide (r.aseq < (tget QDur.zero s.jr.durable r.ctx).mark) &&
       (decide (r.aseq < (s.queue r.ctx).relAck) || !(s.protected r.owner)))

/-- A tag that no command has. -/
def noTag : Nat := 562949953421312

/-- Forget the change that a command made under its work tag, with the tag (06 R159, R165); the focus entry it added here stands under
no tag any more. -/
def forgetTag (s : State) (owner tag : Nat) : State :=
  setJr { s with foc := { s.foc with table := tmap none (fun _ e => e.map (fun x =>
      if x.owner = owner ∧ x.tag = tag ∧ x.node = s.nodeId then { x with tag := noTag } else x)) s.foc.table } }
    { s.jr with changes := tset none s.jr.changes (tagKey owner tag) none, soft := tset none s.jr.soft (tagKey owner tag) none }

/-- Free the records of a queue whose release is durable; a record whose tag an unreleased answer carries stays. -/
def freeReleased (s : State) (c : Nat) (answers : Bool) : State :=
  (s.ctxRecs c).foldl (fun s e =>
    if e.2.answer ≠ answers ∨ !(relDurable s e.2) ∨ (!e.2.answer && tagAnswered s e.2.owner e.2.tag e.1) then s
    else
      let s := jrSet s e.1 none
      if e.2.answer then s else forgetTag s e.2.owner e.2.tag) s

/-- Does a record of the queue in RELEASING hold a CQ index? -/
def relAt (s : State) (c idx : Nat) : Bool :=
  s.jr.recs.any (fun e => match e.2 with
    | some r => decide (r.ctx = c) && decide (r.st = .releasing) && decide (r.cq = some idx)
    | none => false)

/-- Advance QP_CH_DUR up to CH, past every index whose record is FREE. -/
def durAdvance (fuel : Nat) (s : State) (c : Nat) : State :=
  match fuel with
  | 0 => s
  | n + 1 =>
    let d := s.get F.QP_CH_DUR_DUR c
    if d = s.get F.QP_CQ_HEAD_CH c ∨ relAt s c d then s
    else durAdvance n (s.poke F.QP_CH_DUR_DUR ((d + 1) % s.cqSize c) c) c

/-- Free what may be freed in a queue: answers first, then records; acceptance that waited for mode-0 records resumes (06
R155, R160, R165). -/
def releaseSettle (s : State) (c : Nat) : State :=
  let s := freeReleased (freeReleased s c true) c false
  let s := durAdvance 65537 s c
  let q := s.queue c
  let s := if q.modeWait ∧ !((s.ctxRecs c).any (fun e => decide (e.2.mode = 0))) then setQueue s c { q with modeWait := false } else s
  showQueues (showQueue s c)

/-- Release the completions from the old CH up to a new one (06 R160). -/
def releaseTo (s : State) (c v : Nat) : State :=
  let n := s.cqSize c
  let old := s.get F.QP_CQ_HEAD_CH c % n
  let hit : Option Nat → Bool := fun k => match k with
    | some i => decide ((i + n - old) % n < (v + n - old) % n)
    | none => false
  let s := (s.ctxRecs c).foldl (fun s e =>
    if e.2.st = .done ∧ hit e.2.cq then jrSet s e.1 (some { e.2 with st := .releasing }) else s) s
  releaseSettle (modQueue (s.poke F.QP_CQ_HEAD_CH v c) c (fun q => { q with relDue := true })) c

/-- CQ_HEAD_DOORBELL. -/
def cqDoorbell (a : Agent) (c v : Nat) (s : State) : State :=
  if s.outOfReach a 0x400000 then s
  else if !(s.ownsCtx a c) then ctxDenied s
  else
    let n := s.cqSize c
    let old := s.get F.QP_CQ_HEAD_CH c % n
    if n ≤ v ∨ (s.get F.QP_CQ_TAIL_TAIL c + n - old) % n < (v + n - old) % n then badDoorbell s c
    else releaseTo s c v
def execCqHeadDoorbell (a : Agent) (c : Fin 16384) (v : BitVec 16) (s : State) : Host.Outcome State Fault Refusal :=
  .next (cqDoorbell a c.val v.toNat s)

/-- The vectors of a function (21 Table 21.1). -/
def fnVectors (fn : Nat) : Nat := if fn % 2048 = 0 then 2048 else 8

/-- The fields of a QP_CTRL write other than ENABLE, as far as its locks allow (06 Table 06.4). -/
def ctrlFields (s : State) (c : Nat) (v : Word) : State :=
  let vec := bitsOf v 16 11
  let s := (s.poke F.QP_CTRL_INT_EN (bitsOf v 30 1) c).poke F.QP_CTRL_VECTOR (if vec < fnVectors (s.ctxFn c) then vec else 0) c
  let size := fun (x : Nat) => if 6 ≤ x ∧ x ≤ 16 then x else 6
  if s.is F.QP_CTRL_ENABLE c then s
  else (s.poke F.QP_CTRL_LOG2_CQ (size (bitsOf v 8 5)) c).poke F.QP_CTRL_LOG2_SQ (size (bitsOf v 0 5)) c

/-- Does a function level reset of the queue's function still wait for accepted records to be DONE (14 R358)? -/
def State.flrOpen (s : State) (c : Nat) : Bool := s.jr.recs.any (fun e => match e.2 with
  | some r => r.flr && decide (r.ctx = c)
  | none => false)

/-- A write of QP_CTRL with ENABLE = 1 (06 R147, 13 R341): a standby context ignores it until the owner is
taken over. In a function level reset the context is cleared after it (14 R358), so it leaves nothing. -/
def qpEnable (a : Agent) (c : Nat) (v : Word) (s : State) : State :=
  if s.outOfReach a 0x400000 then s
  else if !(s.ownsCtx a c) then ctxDenied s
  else if (s.owner (s.ctxOwner c)).state = oStandby ∨ s.flrOpen c then s
  else if s.is F.QP_CTRL_ENABLE c then ctrlFields s c v
  else
    let s := ctrlFields s c v
    let s := (s.poke F.QP_SQ_TAIL_TAIL 0 c).poke F.QP_AH_AH 0 c
    let s := (s.poke F.QP_CQ_HEAD_CH 0 c).poke F.QP_CQ_TAIL_TAIL 0 c
    let s := (s.poke F.QP_CH_DUR_DUR 0 c).poke F.QP_CQ_TAIL_PHASE 1 c
    let s := (s.poke F.QP_CTRL_ENABLE 1 c).poke F.QP_STATUS_RUN 1 c
    showQueue (modQueue s c (fun q => { q with readIdx := 0, reading := [] })) c
def execQpEnable (a : Agent) (c : Fin 16384) (v : Word) (s : State) : Host.Outcome State Fault Refusal := .next (qpEnable a c.val v s)

/-- Does a queue hold accepted work whose completion is not posted? -/
def unposted (s : State) (c : Nat) : Bool :=
  (s.ctxRecs c).any (fun e => e.2.cq.isNone && !(decide (e.2.st = .stamped)) && !(decide (e.2.st = .recAccepted)) &&
    !(decide (e.2.st = .recDone)))

/-- An entry read and not accepted is dropped: it was never accepted. A recovered record that it re-presented is as it was before. -/
def unread (s : State) (i : Nat) (r : JRec) : State :=
  if r.recovered then
    showQueue ((jrSet s i (some { r with st := if r.comp.isSome then .recDone else .recAccepted, again := false })).poke
      F.QP_STATUS_RECOVER_LEFT (s.get F.QP_STATUS_RECOVER_LEFT r.ctx + 1) r.ctx) r.ctx
  else jrSet s i none

/-- Every entry of a queue read and not accepted is dropped: the queue reads on at AH, and gives their ASEQs again. -/
def unreadAll (s : State) (c : Nat) : State :=
  let l := (s.queue c).reading.filterMap (fun i => (tget none s.jr.recs i).bind (fun r => if r.st = .stamped then some (i, r) else none))
  let u := l.foldl (fun (s : State) e => unread s e.1 e.2) s
  let u := modQueue u c (fun q => { q with readIdx := s.get F.QP_AH_AH c, reading := [] })
  match l.find? (fun e => !e.2.recovered) with
  | some e => modQueue (u.put64 F.QP_ASEQ_LO e.2.aseq c) c (fun q => { q with gap := e.2.gap })
  | none => u

/-- A write of QP_CTRL with ENABLE = 0 (06 R147). Entries read and not accepted are dropped: they were never accepted. -/
def qpDisable (a : Agent) (c : Nat) (v : Word) (s : State) : State :=
  if s.outOfReach a 0x400000 then s
  else if !(s.ownsCtx a c) then ctxDenied s
  else if !(s.is F.QP_CTRL_ENABLE c) then ctrlFields s c v
  else if unposted s c then s
  else
    let s := unreadAll (ctrlFields s c v) c
    let s := releaseTo s c (s.get F.QP_CQ_TAIL_TAIL c)
    ((s.poke F.QP_CTRL_ENABLE 0 c).poke F.QP_STATUS_RUN 0 c).poke F.QP_STATUS_JFULL 0 c
def execQpDisable (a : Agent) (c : Fin 16384) (v : Word) (s : State) : Host.Outcome State Fault Refusal := .next (qpDisable a c.val v s)

/-! ## Token buckets (14 R363) -/

/-- 100 ns of tokens for one owner. -/
def refill (x : Owner) : Owner :=
  { x with cmdTok := min (x.cmdDepth * tokenUnit) (x.cmdTok + x.cmdRate * 100)
           byteTok := min ((x.byteDepth * tokenUnit : Nat) : Int) (x.byteTok + ((x.byteRate * 100 : Nat) : Int)) }
def execTokenRefill (s : State) : Host.Outcome State Fault Refusal :=
  .next { s with own := tmap Owner.absent (fun _ x => if x.state = oAbsent then x else refill x) s.own }

/-! ## Reading an entry (06 R151 to R155, R161 to R165, R172; 14 R363, R364) -/

/-- The submission digest (06 Entries). -/
def subDigest (b : Bytes) : Bytes := (sha256 (sliceBytes b 0 24 ++ sliceBytes b 32 4 ++ sliceBytes b 48 16)).take 12

/-- The ARMED batch cuts, which execute at their instants: instant, batch number, scope. -/
def armedCuts (s : State) : List (Nat × Nat × Nat) := s.foc.table.filterMap (fun e => match e.2 with
  | some x => if x.st = 1 ∧ x.typ = 3 then some (x.instant, leNat (sliceBytes x.params 0 8), leNat (sliceBytes x.params 8 2)) else none
  | none => none)

/-- The batch number of work accepted at an instant: a stamp at or after a cut's instant falls under it (10 R291, R296). -/
def batchOf (s : State) (o t : Nat) : Nat :=
  (((s.foc.cuts ++ armedCuts s).filter (fun c => decide (c.1 ≤ t) && (decide (c.2.2 = o) || decide (c.2.2 = 0xFFFF)))).foldl
    (fun (acc : Nat × Nat) c => if acc.1 ≤ c.1 then (c.1, c.2.1) else acc) (0, 0)).2

/-- May AH move on a queue: its owner accepts, its function is present and not in reset, and its TDI is not in ERROR (14 R357,
R358, R361, R380)? -/
def ahMoves (s : State) (c : Nat) : Bool :=
  !(s.flrOpen c) && s.accepts (s.ctxOwner c) && s.fnPresent (s.ctxFn c) && !(s.dmaStopped (s.ctxFn c))

/-- May the head entry of a queue be read now? -/
def queueReady (s : State) (c : Nat) : Bool :=
  s.is F.QP_STATUS_RUN c && decide ((s.queue c).readIdx ≠ s.get F.QP_SQ_TAIL_TAIL c) && ahMoves s c && !(s.queue c).modeWait &&
    (s.owner (s.ctxOwner c)).funded && !(s.is F.QP_STATUS_JFULL c)

/-- The running queues, ascending. -/
def State.runQueues (s : State) : List Nat := (s.jr.queues.map Prod.fst).filter (queueReady s)

/-- The next of a rising list after `last` (a number plus 1; 0 for none), cyclically. -/
def nextCyc (l : List Nat) (last : Nat) : Option Nat := (l.find? (fun x => decide (last ≤ x))).or l.head?

/-- The queue the scheduler reads next: owners in round robin, up to weight entries a turn, one entry of each queue in
ascending order (14 R364). -/
def nextQueue (s : State) : Option Nat :=
  let qs := s.runQueues
  let of := fun (o : Nat) => qs.filter (fun c => s.ctxOwner c == o)
  let cur := s.jr.accOwner
  if of cur ≠ [] ∧ s.jr.accUsed < (s.owner cur).weight then nextCyc (of cur) (s.owner cur).accLast
  else
    let owners := (s.own.map Prod.fst).filter (fun o => decide (of o ≠ []))
    match nextCyc owners (cur + 1) with
    | some o => nextCyc (of o) (s.owner o).accLast
    | none => none

/-- The turn moves on with an entry of queue `c`. -/
def turnTaken (s : State) (c : Nat) : State :=
  let o := s.ctxOwner c
  let s := modOwner s o (fun x => { x with accLast := c + 1 })
  setJr s { s.jr with accUsed := if o = s.jr.accOwner ∧ s.jr.accUsed < (s.owner o).weight then s.jr.accUsed + 1 else 1, accOwner := o }

/-- What a classification decides (06 Table 06.12): an immediate status, where a re-presentation of record `of` differs from it the
mismatch status; an answer to record `i`; a recovered record `i`;
execution in a mode; or the queue waits, on an open answer to a record or on a release. -/
inductive Class where
  | status (st : Nat) (of : Option Nat)
  | answer (i : Nat)
  | recovered (i : Nat)
  | run (mode : Nat)
  | wait (on : Option Nat)
  deriving DecidableEq, Repr

/-- The record that a work tag names. -/
def tagRec (s : State) (o tag : Nat) : Option (Nat × JRec) :=
  s.jr.recs.findSome? (fun e => match e.2 with
    | some r => if r.owner = o ∧ r.tag = tag ∧ !r.answer ∧ tag ≠ 0 then some (e.1, r) else none
    | none => none)

/-- Classify an entry stamped `t` of queue `c` (06 Table 06.12). -/
def classify (s : State) (c t : Nat) (b : Bytes) : Class :=
  let o := s.ctxOwner c
  let tag := subField b 4 6
  let flags := byteAt b 3
  let q := s.queue c
  let mode := s.entryMode o (flags.testBit 1)
  let fresh : Class :=
    if 8 ≤ flags ∨ subField b 10 2 ≠ 0 then .status sMalformed none
    else if byteAt b 2 ≠ 1 ∧ byteAt b 2 ≠ 2 then .status sUnsupported none
    else if flags.testBit 2 ∧ q.lastAcc ≠ 0 ∧ q.lastBatch < batchOf s o t then .status sDenied none
    else if (s.owner o).state = oTaken then .status sTakenOver none
    else .run mode
  if tag = 0 then .status sMalformed none
  else match tagRec s o tag with
    | none => fresh
    | some (i, r) =>
      if r.digest ≠ subDigest b then (if r.st = .releasing then .wait none else .status sMalformed (some i))
      else if r.st = .recAccepted ∨ r.st = .recDone then .recovered i
      else if answerOpen s i then .wait (some i)
      else .answer i

/-- The status that the host sees for a submission of a version (07 R180). -/
def mapStatus (ver st : Nat) : Nat :=
  if ver ≠ 1 then st
  else if st = sKeyPoisoned ∨ st = sTakenOver then sInternal
  else if st = sKeyRetired then sKeyAbsent
  else if st = sInvariant then sLensFault
  else st

/-- A record of an entry read from queue `c`, stamped `t`. -/
def newRec (s : State) (c t mode : Nat) (b : Bytes) : JRec :=
  { st := .stamped, tag := subField b 4 6, owner := s.ctxOwner c, ctx := c, mode := mode, flags := byteAt b 3
    aseq := s.get64 F.QP_ASEQ_LO c, sec := t / 1000000000, ns := t % 1000000000, opcode := subField b 0 2
    batch := batchOf s (s.ctxOwner c) t, digest := subDigest b, gap := (s.queue c).gap, answer := false, orig := 0, slot := none
    accMram := false, compMram := false, accAck := false, compAck := false, comp := none, sub := fitBytes 64 b, result := []
    held := false, pre := none, cq := none, facet := 0, parked := false, again := false
    ahNext := ((s.queue c).readIdx + 1) % s.sqSize c, flr := false, recovered := false }

/-- The queue has read an entry: its record, the next index, the stamp, and the command token. -/
def readTaken (s : State) (c i : Nat) (r : JRec) (bytes : Nat) (fresh : Bool) : State :=
  let s := jrSet s i (some r)
  let s := modQueue s c (fun q => { q with
    readIdx := r.ahNext, reading := q.reading ++ [i]
    lastAcc := max q.lastAcc (r.sec * 1000000000 + r.ns), lastBatch := r.batch
    gap := if !fresh then q.gap else if r.mode = 0 then q.gap + 1 else 0 })
  let s := if fresh then s.put64 F.QP_ASEQ_LO (r.aseq + 1) c else s
  turnTaken (modOwner s (s.ctxOwner c) (fun x => { x with
    cmdTok := if x.cmdRate = 0 then x.cmdTok else x.cmdTok - tokenUnit
    byteTok := if x.byteRate = 0 then x.byteTok else x.byteTok - ((bytes * tokenUnit : Nat) : Int) })) c

/-! ## Acceptance (06 R151, Table 06.11, Table 06.16) -/

/-- Does the acceptance condition of a record's mode hold? -/
def accOk (s : State) (r : JRec) : Bool :=
  if r.mode ≤ 1 then r.accMram
  else if r.mode = 2 then r.accAck || (r.accMram && !(s.protected r.owner))
  else r.accMram && (r.accAck || !(s.protected r.owner))

/-- The original of an answer is DONE or beyond. -/
def origDone (s : State) (r : JRec) : Bool := match tget none s.jr.recs r.orig with
  | some x => decide (x.st = .done) || decide (x.st = .releasing)
  | none => true

/-- What an entry of queue `c` becomes at its acceptance: a given status and an answer whose original is done need no execution. -/
def accepted (s : State) (c i : Nat) (r : JRec) : State :=
  let s := match r.pre with
    | some st => jrComplete s i st 0 []
    | none => s
  let fin := r.pre.isSome || r.again || (r.answer && origDone s r)
  let s := jrMod s i (fun x => { x with st := if fin then .done else .accepted })
  let s := if r.pre.isSome ∨ r.answer then s
    else { s with foc := { s.foc with greatest := max s.foc.greatest (r.sec * 1000000000 + r.ns) } }
  s.poke F.QP_AH_AH r.ahNext c

/-- Advance AH past the entries of a queue whose condition holds, in order. -/
def acceptRun (fuel : Nat) (s : State) (c : Nat) : State :=
  match fuel with
  | 0 => s
  | n + 1 =>
    match (s.queue c).reading with
    | [] => s
    | i :: rest =>
      match tget none s.jr.recs i with
      | none => acceptRun n (modQueue s c (fun q => { q with reading := rest })) c
      | some r =>
        if accOk s r then acceptRun n (accepted (modQueue s c (fun q => { q with reading := rest })) c i r) c else s

/-- Acceptance of a queue as far as it goes. -/
def acceptQueue (s : State) (c : Nat) : State := if ahMoves s c && !(s.queue c).modeWait then acceptRun ((s.queue c).reading.length + 1) s c else s

/-- The host address of the entry a queue reads next (06 Table 06.5). -/
def State.sqEntry (s : State) (c : Nat) : Nat :=
  s.get F.QP_SQ_BASE_LO_ADDR_LO c * 4096 + s.get F.QP_SQ_BASE_HI c * 4294967296 + (s.queue c).readIdx * 64

/-- SQ_ENTRY_READ: a refused read returns zeros (15 R393) and the entry is denied. The scheduler reads, stamps and classifies the entry of a queue, when it is that queue's turn. -/
def sqRead (c : Nat) (b : Bytes) (s : State) : State :=
  if nextQueue s ≠ some c then s
  else if s.redrains (s.ctxOwner c) && (match classify s c s.now b with
      | .recovered _ => false
      | _ => true) then turnTaken s c
  else
    let t := max s.now (s.queue c).lastAcc
    let i := lowestFree (s.jr.recs.length + 1) 0 (fun k => (tget none s.jr.recs k).isSome)
    let d := dmaAccess s (s.ctxFn c) (s.sqEntry c) 64 false
    if limitTotal s then waitLimit s c 0
    else if !d.1 then readTaken d.2 c i { newRec d.2 c t 0 (List.replicate 64 0) with pre := some sDenied } 0 true
    else match classify s c t b with
      | .wait (some k) => waitLimit s c (k + 3)
      | .wait none => turnTaken s c
      | .status st none => readTaken s c i { newRec s c t 0 b with pre := some st } 0 true
      | .status st (some k) => readTaken (event s 3 evDigest stewardSrc (s.ctxOwner c) (leBytes 6 (subField b 4 6))) c i
          { newRec s c t 0 b with pre := some st, answer := true, orig := k } 0 true
      | .answer k => readTaken s c i { newRec s c t 0 b with answer := true, orig := k } 0 true
      | .recovered k =>
        match tget none s.jr.recs k with
        | none => s
        | some r =>
          let left := s.get F.QP_STATUS_RECOVER_LEFT r.ctx - 1
          let r' := { r with st := .stamped, sub := fitBytes 64 b, again := r.comp.isSome, recovered := true, accMram := true, accAck := true
                             ahNext := ((s.queue c).readIdx + 1) % s.sqSize c }
          let s := showQueue ((readTaken s c k r' 0 false).poke F.QP_STATUS_RECOVER_LEFT left r.ctx) r.ctx
          if r.ctx = c then s else acceptQueue s c
      | .run mode =>
        if limitFor s mode then waitLimit s c (if (byteAt b 3).testBit 1 then 2 else 1)
        else
          let slot := if mode = 1 ∨ mode = 3 then
              some (lowestFree (s.jr.recs.length + 1) 0 (fun k => s.jr.recs.any (fun e => (e.2.bind (fun r => r.slot)) == some k)))
            else none
          let r := { newRec s c t mode b with slot := slot }
          let s := readTaken s c i r (subField b 32 4) true
          if 2 ≤ mode then mirrorHalf s i false (accHalf r (jrAddr i) ++ r.sub ++ leBytes 2 (s.get F.QP_ID_QPN c)) else s
def execSqEntryRead (c : Fin 16384) (entry : List (BitVec 8)) (s : State) : Host.Outcome State Fault Refusal :=
  .next (sqRead c.val entry s)

/-- Acceptance of every queue of an owner as far as it goes. -/
def acceptOwner (s : State) (o : Nat) : State :=
  s.jr.queues.foldl (fun (s : State) e => if s.ctxOwner e.1 = o then acceptQueue s e.1 else s) s

/-- ACCEPTANCE_CONDITION_MET: the HBM record is written, or the MRAM acceptance half commits; not while the owner is fenced (13
R345). -/
def execAcceptanceConditionMet (i : Fin 1048576) (s : State) : Host.Outcome State Fault Refusal :=
  .next (match tget none s.jr.recs i.val with
    | some r => if r.st = .stamped ∧ !(s.fenced r.owner) then acceptQueue (jrSet s i.val (some { r with accMram := r.accMram || decide (r.mode ≠ 2) || r.slot.isSome })) r.ctx
        else s
    | none => s)

/-! ## Dispatch (06 R157, 07 R181, R184, 11 R308, 14 R365) -/

/-- Opcodes of the public-key group that run on Huxel arrays (07 Table 07.7). -/
def isPk (op : Nat) : Bool := decide (0x0701 ≤ op) && decide (op ≤ 0x0705)

/-- The public-key commands, which the limits of parked operations hold back (07 Table 07.7, 11 R308). -/
def isPkCommand (op : Nat) : Bool := isPk op || decide (op = 0x0706)

/-- Does a command go to a custody facet: the custody commands of 05 Table 05.6, and commands that carry a quorum? -/
def isCustody (op : Nat) (sub : Bytes) : Bool :=
  decide (op / 256 = 1) || decide (op = 0x0C10) || decide (op = 0x0C11) || (decide (op = 0x0B01) && decide (byteAt sub 48 = 5))

/-- Was a command accepted before the owner's reset (07 R203, 14 R368)? For a reset of owner 0 every accepted command was. -/
def beforeReset (x : Owner) (r : JRec) : Bool :=
  !x.selfReset || (if r.ctx = x.resetCtx then decide (r.aseq < x.resetAseq)
    else decide (r.sec * 1000000000 + r.ns ≤ x.resetAcc))

/-- May a record of an owner be dispatched in the owner's state? -/
def ownerDispatches (s : State) (r : JRec) : Bool :=
  let x := s.owner r.owner
  !(s.fenced r.owner) && (decide (x.state = oActive) || decide (x.state = oTaken) ||
    (decide (x.state = oResetting) && !x.squash && beforeReset x r))

/-- The parked operations of an owner. -/
def parkedOf (s : State) (o : Nat) : Nat := (s.hx.ops.filter (fun x => decide (x.owner = o))).length

/-- The record of a queue that may be dispatched next (06 R157): its earliest ACCEPTED command, but not while an earlier fence-after
entry is not posted (in a function level reset, not DONE), or a limit on parked operations holds the queue (11 R308). -/
def headReady (s : State) (c : Nat) : Option (Nat × JRec) :=
  let l := s.ctxRecs c
  match l.find? (fun e => decide (e.2.st = .accepted) && !e.2.answer && e.2.comp.isNone) with
  | none => none
  | some e =>
    let fence := l.any (fun x => decide (x.2.aseq < e.2.aseq) && x.2.flags.testBit 0 && x.2.cq.isNone &&
      !(e.2.flr && decide (x.2.st = .recDone)))
    if fence ∨ !(ownerDispatches s e.2) ∨ (s.dmaStopped (s.ctxFn c) ∧ subField e.2.sub 32 4 ≠ 0) ∨
        (isPkCommand e.2.opcode ∧ (4096 ≤ parkedOf s e.2.owner ∨ 65536 ≤ s.hx.ops.length)) then none
    else some e

/-- The heads of every queue. -/
def heads (s : State) : List (Nat × JRec) := (s.jr.queues.map Prod.fst).filterMap (headReady s)

/-- Transaction facets an owner holds. -/
def facetsHeld (s : State) (o : Nat) : Nat :=
  (s.facets.filter (fun e => decide (e.2.owner = o) && decide (s.get F.FCT_MAP_ROLE e.1 = 1) && (match e.2.work with
    | .cmd _ _ => true
    | _ => false))).length

/-- Is a facet free for work of a role? -/
def facetFree (s : State) (p role : Nat) : Bool :=
  s.is F.FCT_MAP_VALID p && decide (s.get F.FCT_MAP_STATE p = mapActive) && decide (s.get F.FCT_MAP_ROLE p = role) &&
    decide ((s.facet p).work = .none) && !(s.wear.queue.contains p) && s.domainOn p

/-- The oldest custody command by acceptance time. -/
def oldestCustody (l : List (Nat × JRec)) : Option (Nat × JRec) :=
  l.foldl (fun acc e => if !(isCustody e.2.opcode e.2.sub) then acc else match acc with
    | some b => if e.2.sec * 1000000000 + e.2.ns < b.2.sec * 1000000000 + b.2.ns then some e else acc
    | none => some e) none

/-- The deficit round robin over owners with ready records (14 R365): the record dispatched, and the state with the pointer and
the deficits moved on. -/
def drr (fuel : Nat) (s : State) (l : List (Nat × JRec)) : Option (Nat × JRec) × State :=
  match fuel with
  | 0 => (none, s)
  | n + 1 =>
    let o := s.jr.dspOwner
    let mine := l.filter (fun e => decide (e.2.owner = o))
    if mine ≠ [] ∧ 0 < (s.owner o).deficit ∧ facetsHeld s o < (s.owner o).facetCap then
      match nextCyc (mine.map (fun e => e.2.ctx)) (s.owner o).dspLast with
      | some c => (mine.find? (fun e => e.2.ctx == c), modOwner s o (fun x => { x with dspLast := c + 1 }))
      | none => (none, s)
    else
      let owners := ((s.own.map Prod.fst).filter (fun x => l.any (fun e => e.2.owner == x)))
      match nextCyc owners (o + 1) with
      | none => (none, s)
      | some x => drr n (modOwner (setJr s { s.jr with dspOwner := x }) x (fun w => { w with deficit := w.deficit + ((w.weight * 1024 : Nat) : Int) })) l

/-- Owners without a ready record have deficit 0 (14 R365). -/
def clearDeficits (s : State) (l : List (Nat × JRec)) : State :=
  { s with own := tmap Owner.absent (fun o x => if l.any (fun e => decide (e.2.owner = o)) then x else { x with deficit := 0 }) s.own }

/-- Is a command defined for its version (07 R179, R184)? -/
def opDefined (ver op : Nat) : Bool :=
  let v1 := (decide (0x0101 ≤ op) && decide (op ≤ 0x0109)) || (decide (0x0110 ≤ op) && decide (op ≤ 0x0112)) || decide (op = 0x0120) ||
    (decide (0x0210 ≤ op) && decide (op ≤ 0x0212)) || (decide (0x0220 ≤ op) && decide (op ≤ 0x0222)) || decide (op = 0x0301) ||
    decide (op = 0x0302) || (decide (0x0401 ≤ op) && decide (op ≤ 0x0405)) || (decide (0x0501 ≤ op) && decide (op ≤ 0x0503)) ||
    decide (op = 0x0510) || decide (op = 0x0511) || (decide (0x0610 ≤ op) && decide (op ≤ 0x0612)) || decide (op = 0x0701) ||
    decide (op = 0x0702) || decide (op = 0x0801) || decide (op = 0x0F00) || decide (op = 0x0F01)
  let v2 := [0x0101, 0x0102, 0x0103, 0x0104, 0x0105, 0x0106, 0x0107, 0x0108, 0x0109, 0x0110, 0x0111, 0x0112, 0x0120, 0x0130,
    0x0131, 0x0132, 0x0140, 0x0141, 0x0201, 0x0202, 0x0203, 0x0301, 0x0302, 0x0401, 0x0402, 0x0403, 0x0404, 0x0405, 0x0501,
    0x0502, 0x0503, 0x0510, 0x0511, 0x0601, 0x0602, 0x0603, 0x0604, 0x0610, 0x0611, 0x0612, 0x0701, 0x0702, 0x0703, 0x0704,
    0x0705, 0x0706, 0x0801, 0x0901, 0x0902, 0x0903, 0x0A01, 0x0A02, 0x0A03, 0x0A04, 0x0B01, 0x0B02, 0x0B03, 0x0B04, 0x0C01,
    0x0C02, 0x0C03, 0x0C04, 0x0C05, 0x0C06, 0x0C10, 0x0C11, 0x0C20, 0x0F00, 0x0F01, 0x0F02, 0x0F03, 0x0F04].contains op ||
    (decide (0x8000 ≤ op) && decide (op ≤ 0x83FF))
  if ver = 1 then v1 else if ver = 2 then v2 else false

/-- The highest command-set version common to the ring's nodes, or this node's (07 R177). -/
def State.commonVer (s : State) : Nat := if s.ringState = 0 ∨ s.ring.common = 0 then 2 else s.ring.common

/-- Is a version one that every node can execute (07 R178)? -/
def verOk (s : State) (ver : Nat) : Bool := decide (ver ≤ s.commonVer)

/-- The command context of a dispatch (03 Table 03.5). -/
def cmdContext (s : State) (r : JRec) (budget have_ : Nat) : Bytes :=
  let size := s.sqSize r.ctx
  leBytes 2 r.owner ++ leBytes 1 (s.get F.QP_ID_PORT r.ctx) ++ leBytes 1 (s.get F.QP_ID_KIND r.ctx) ++
    leBytes 2 (s.get F.QP_ID_VF r.ctx) ++ leBytes 2 (s.get F.QP_ID_QPN r.ctx) ++ leBytes 4 ((r.ahNext + size - 1) % size) ++
    leBytes 6 r.sec ++ leBytes 4 r.ns ++ leBytes 1 r.mode ++ leBytes 1 (b2n (decide (subField r.sub 32 4 = have_))) ++
    leBytes 8 r.batch ++ leBytes 4 (budget * 64) ++ leBytes 4 have_ ++ List.replicate 24 0

/-- Does an ARMED PROGRAM_SWAP of a signer's entry have an instant not after `acc` (10 R291)? -/
def swapDue (s : State) (signer id acc : Nat) : Bool := s.foc.table.any (fun e => e.2.any (fun x =>
  decide (x.typ = 5) && decide (x.st = 1) && decide (x.owner + 32768 = signer) && decide (x.instant ≤ acc) && (swapIds x.params).contains id))

/-- The entry that serves an opcode for an owner: a vendor entry, or the owner's own from 0x8000 up (03 R69). A version held
for a PROGRAM_SWAP whose instant has come serves work accepted from then on. -/
def entryFor (s : State) (o op acc : Nat) : Option Prog :=
  let signer := if 0x8000 ≤ op then 32768 + o else 0
  let mine := fun (g : Prog) => decide (g.entry.signer = signer) && decide (g.opcode = op)
  let first := s.progs.foldl (fun (b : Option Prog) e => match e.2, b with
    | some g, some x => if mine g ∧ acc < g.swapped ∧ g.swapped < x.swapped then some g else b
    | some g, none => if mine g ∧ acc < g.swapped then some g else none
    | none, _ => b) none
  let due := (s.progs.findSome? (fun e => match e.2 with
    | some g => if mine g ∧ e.1 = heldKey signer g.entry.id ∧ swapDue s signer g.entry.id acc then some g else none
    | none => none))
  (first.or due).or
  (s.progs.findSome? (fun e => match e.2 with
    | some g => if mine g ∧ e.1 < 4294967296 then some g else none
    | none => none))

/-- The operand slot a facet stages its public inputs in (11 R299, 15 R392): the lowest that no parked operation holds and no facet is
bound to. -/
def freeSlot (s : State) : Nat :=
  lowestFree (s.hx.ops.length + 73) 0 (fun k => s.hx.ops.any (fun x => decide (x.slot = k)) ||
    s.apt.slots.any (fun e => decide (e.1 < 72) && decide (e.2 = k + 1)))

/-- The command's slot is bound to its facet until it parks or completes (15 R392). -/
def bindSlot (s : State) (p op : Nat) : State :=
  let k := freeSlot s
  { s with apt := { s.apt with slots := tset 0 s.apt.slots p (if (isPk op || decide (op = 0x0101)) && decide (k < 65536) then k + 1 else 0) } }

/-- Put a command on a facet: the submission, the context and the prefetched input (03 R57, R70, R71). -/
def startCommand (s : State) (p i : Nat) (r : JRec) (input : Bytes) : State :=
  let g := entryFor s r.owner r.opcode (r.sec * 1000000000 + r.ns)
  let e := g.map (fun g => g.entry)
  let have_ := min 4096 (min (subField r.sub 32 4) input.length)
  let budget := match e with
    | some x => x.budget
    | none => 65535
  let s := s.modFacet p (fun f =>
    let f := { f with
      work := .cmd r.ctx r.aseq, owner := r.owner, entry := e, first := e, cmdout := [], lines := []
      pc := (match g with
        | some g => g.start
        | none => 0)
      loc := memWrite (memZero (memWrite (memWrite (memZero f.loc 0x20000 0x200) 0x20000 r.sub) 0x20040 (cmdContext s r budget have_))
        0x21000 0x2000) 0x21000 (input.take have_) }
    match g with
    | some g => loadWindow f g
    | none => f)
  let s := jrMod s i (fun x => { x with st := .executing, facet := p + 1, parked := false })
  let s := ((s.poke F.FCT_WORK_KIND 1 p).poke F.FCT_WORK_OWNER r.owner p).poke F.FCT_STATUS_IDLE 0 p
  showK (showEntry (bindSlot s p r.opcode) p) p

/-- Commands that wait to resume and whose owner is under its facet cap (14 R365). -/
def resumeReady (s : State) : Option (Nat × Nat) :=
  s.jr.resume.find? (fun x => decide (facetsHeld s x.1 < (s.owner x.1).facetCap))

/-- COMMAND_DISPATCH: a free facet takes the next ready record, whose input the port's DMA engine fetches (a refused fetch ends it with
S_DENIED, 15 Table 15.8). A transaction facet goes first to a command that resumes. A
command that its version does not define completes at once (07 R178, R179, R184). -/
def dispatch (p : Nat) (input : Bytes) (s : State) : State :=
  let hs := heads s
  let go := fun (s : State) (e : Nat × JRec) =>
    let d := dmaAccess s (s.ctxFn e.2.ctx) (subField e.2.sub 24 8) (min 4096 (subField e.2.sub 32 4)) false
    let s := startCommand d.2 p e.1 e.2 (if d.1 then input else [])
    let ver := byteAt e.2.sub 2
    if !(opDefined ver e.2.opcode && verOk s ver) then finishCommand s e.2.owner e.2.tag sUnsupported []
    else if d.1 then s else finishCommand s e.2.owner e.2.tag sDenied []
  if facetFree s p 2 then
    match oldestCustody hs with
    | some e => go s e
    | none => s
  else if facetFree s p 1 then
    let l := hs.filter (fun e => !(isCustody e.2.opcode e.2.sub))
    let s := clearDeficits s l
    if (resumeReady s).isSome then s
    else match drr (5000 * (s.own.length + 1)) s l with
      | (some e, s) => go s e
      | (none, s) => s
  else s
def execCommandDispatch (p : Fin 72) (input : List (BitVec 8)) (s : State) : Host.Outcome State Fault Refusal :=
  .next (dispatch p.val input s)

/-! ## Completion (06 R158, R163, R164) -/

/-- Does the completion condition of a record's mode hold? -/
def compOk (s : State) (r : JRec) : Bool :=
  if r.mode ≤ 1 then r.compMram
  else if r.mode = 2 then r.compAck || (r.compMram && !(s.protected r.owner))
  else r.compMram && (r.compAck || !(s.protected r.owner))

/-- The answers that wait on a record that is now DONE become DONE (06 R163). -/
def answersDone (s : State) (i : Nat) : State :=
  s.jr.recs.foldl (fun s e => match e.2 with
    | some r => if r.answer ∧ r.orig = i ∧ r.st = .accepted then jrSet s e.1 (some { r with st := .done }) else s
    | none => s) s

/-- A record whose completion condition holds is DONE. -/
def compSettle (s : State) (i : Nat) : State :=
  match tget none s.jr.recs i with
  | some r => if (r.st = .executing ∨ r.st = .accepted) ∧ r.comp.isSome ∧ compOk s r then
      let s := answersDone (jrSet s i (some { r with st := if r.flr then .recDone else .done, flr := false })) i
      if r.flr then s.poke F.QP_STATUS_RECOVER_LEFT (s.get F.QP_STATUS_RECOVER_LEFT r.ctx + 1) r.ctx else s
    else s
  | none => s

/-- COMPLETION_CONDITION_MET: the HBM record is updated, or the MRAM completion half commits; not while the owner is fenced (13
R345). -/
def execCompletionConditionMet (i : Fin 1048576) (s : State) : Host.Outcome State Fault Refusal :=
  .next (match tget none s.jr.recs i.val with
    | some r => if r.comp.isSome ∧ !(s.fenced r.owner) then
        compSettle (jrSet s i.val (some { r with compMram := r.compMram || decide (r.mode ≠ 2) || r.slot.isSome })) i.val
      else s
    | none => s)

/-- The digest block of an original (06 Table 06.14). -/
def digestBlock (ver : Nat) (c : Comp) : Bytes :=
  fitBytes 32 c.sha ++ leBytes 4 c.len ++ leBytes 2 (mapStatus ver c.status) ++ leBytes 6 c.sec ++ leBytes 4 c.ns

/-- What a completion carries: status, result length, DIGEST, NOWRITE, ORIG_STATUS, bytes written (06 R164). -/
structure Cqe where
  status : Nat
  len : Nat
  digest : Bool
  nowrite : Bool
  orig : Nat
  data : Bytes
  deriving DecidableEq, Repr

/-- The answer to a submission from an original's record. -/
def answerOf (sub : Bytes) (o : JRec) (c : Comp) : Cqe :=
  let ver := byteAt sub 2
  let cap := subField sub 44 4
  let os := mapStatus ver c.status % 256
  if o.held && decide (c.len ≤ cap) then ⟨sAlreadyDone, c.len, false, false, os, o.result.take c.len⟩
  else if 48 ≤ cap then ⟨sAlreadyDone, 48, true, false, os, digestBlock ver c⟩
  else ⟨sAlreadyDone, 0, false, true, os, []⟩

/-- The completion of a record. -/
def cqeOf (s : State) (r : JRec) : Option Cqe :=
  match r.comp with
  | some c => if r.again then some (answerOf r.sub r c)
      else some ⟨mapStatus (byteAt r.sub 2) c.status, c.len, false, false, 0, r.result.take (min 16 c.len)⟩
  | none => if !r.answer then none else (tget none s.jr.recs r.orig).bind (fun o => o.comp.map (answerOf r.sub o))

/-- The 32 bytes of a completion entry (06 Table 06.10). -/
def cqeBytes (r : JRec) (x : Cqe) (phase ah : Nat) : Bytes :=
  leBytes 6 r.tag ++ leBytes 2 x.status ++ leBytes 4 x.len ++
    leBytes 4 (phase * 2147483648 + b2n x.digest * 1073741824 + b2n x.nowrite * 536870912 + x.orig * 65536 + ah) ++ fitBytes 16 x.data

/-- COMPLETION_POST: the earliest unposted record of the queue, when it is DONE and the CQ has room (06 R158). An answer whose result
the aperture unit refuses is denied (15 Table 15.8). -/
def post (c : Nat) (s : State) : State :=
  match (s.ctxRecs c).find? (fun e => e.2.cq.isNone) with
  | none => s
  | some (i, r) =>
    let n := s.cqSize c
    let tail := s.get F.QP_CQ_TAIL_TAIL c
    match cqeOf s r with
    | none => s
    | some x0 =>
      if !(decide (r.st = .done)) ∨ !(s.is F.QP_CTRL_ENABLE c) ∨ (tail + 1) % n = s.get F.QP_CQ_HEAD_CH c ∨ s.fenced r.owner ∨
          s.dmaStopped (s.ctxFn c) then s
      else
        let fn := s.ctxFn c
        let a := subField r.sub 36 8
        let d := if (r.answer ∨ r.again) ∧ x0.data ≠ [] then dmaAccess s fn a x0.data.length true else (true, s)
        let x := if d.1 then x0 else ⟨sDenied, 0, false, false, 0, []⟩
        let s := if (r.answer ∨ r.again) ∧ x.data ≠ [] then { d.2 with sent := d.2.sent ++ [.host fn a x.data] } else d.2
        let base := s.get F.QP_CQ_BASE_LO_ADDR_LO c * 4096 + s.get F.QP_CQ_BASE_HI c * 4294967296
        let e := cqeBytes r x (s.get F.QP_CQ_TAIL_PHASE c) (s.get F.QP_AH_AH c)
        let s := dmaWrite s fn (base + tail * 32) e
        let s := jrSet s i (some { r with cq := some tail })
        let s := s.poke F.QP_CQ_TAIL_TAIL ((tail + 1) % n) c
        let s := if tail + 1 = n then s.poke F.QP_CQ_TAIL_PHASE (1 - s.get F.QP_CQ_TAIL_PHASE c) c else s
        let s := if r.answer then showQueues s else s
        if s.is F.QP_CTRL_INT_EN c then raiseVector s fn (s.get F.QP_CTRL_VECTOR c) else s
def execCompletionPost (c : Fin 16384) (s : State) : Host.Outcome State Fault Refusal := .next (post c.val s)

/-! ## Release (06 R160, R168) -/

/-- The release mark of a queue: every record of a lower ASEQ is released. -/
def relMark (s : State) (c : Nat) : Nat :=
  match (s.ctxRecs c).find? (fun e => !(decide (e.2.st = .releasing))) with
  | some (_, r) => r.aseq
  | none => s.get64 F.QP_ASEQ_LO c

/-- Write the queue durable entry of a queue, and stream it to the holder (06 R168, 13 Table 13.8). -/
def writeMark (s : State) (c : Nat) : State :=
  let o := s.ctxOwner c
  let m := relMark s c
  let d : QDur := ⟨s.get64 F.QP_ASEQ_LO c, m, (s.owner o).mode⟩
  let s := setJr s { s.jr with durable := tset QDur.zero s.jr.durable c d }
  let s := modQueue s c (fun q => { q with relDue := false })
  let data := leBytes 8 d.next ++ leBytes 8 m ++ leBytes 2 c ++ leBytes 1 d.mode ++ leBytes 2 (s.get F.QP_ID_QPN c) ++ leBytes 2 o
  if 2 ≤ (s.owner o).mode ∨ (s.ctxRecs c).any (fun e => decide (2 ≤ e.2.mode) && decide (e.2.st = .releasing)) then
    let s := if s.protected o then setRing s { s.ring with mwait := s.ring.mwait ++ [(s.ring.mseq, 2, c, m)] } else s
    mirrorOut s (homeOf s o) mkRelease c data
  else if o = 0 then s
  else mirrorOut s (homeOf s o) mkQueue c data

/-- RELEASE_MARK_WRITE: within 2 µs of a CH write. -/
def execReleaseMarkWrite (c : Fin 16384) (s : State) : Host.Outcome State Fault Refusal :=
  .next (if (s.queue c.val).relDue ∧ !(s.fenced (s.ctxOwner c.val)) then writeMark s c.val else s)

/-- RELEASE_DURABLE: released records whose release is durable become FREE, and QP_CH_DUR advances. -/
def execReleaseDurable (c : Fin 16384) (s : State) : Host.Outcome State Fault Refusal := .next (releaseSettle s c.val)

end Sys2Proof.Machine
end

