-- ==== Sys2Proof/Machine/Scrub.lean ====
section
/-! DEFINITION. Machine/Scrub.lean: the scrubber, uncorrectable words by region, the restore of a poisoned record, and the
end of a wipe (04 R89, R105 to R107; 06 R169). -/

namespace Sys2Proof.Machine

open Sys2Proof

/-- DESTROY_WIPE: every holder of the destroyed key has ended its work (04 R89). -/
def execDestroyWipe (space : Fin 17) (index : Fin 33554432) (s : State) : Host.Outcome State Fault Refusal :=
  .next (let i := space.val * 33554432 + index.val
    if s.ks.wiping.contains i ∧ !(keyHeld s i) then wipeRec s i else s)

/-! ## Uncorrectable words (04 R106) -/

/-- One past the HBM map of 01 Table 01.11. -/
def hbmEnd : Nat := 0xC00000000

/-- The heap map from the records' granule fields; a destroyed key keeps its granules until its wipe (04 R89). -/
def heapRebuild (s : State) : State :=
  s.ks.recs.foldl (fun (s : State) (e : Nat × KeyRec) =>
    if e.2.ext ∧ e.2.granules ≠ 0 ∧ idxSpace e.1 = 0 then setGranules s e.2.granule e.2.granules e.2.handle else s)
    (setKs s { s.ks with heap := tfilter (fun k _ => decide (16777216 ≤ k)) s.ks.heap })

/-- The answers that an original's loss leaves without one complete with S_INTERNAL (log entry 239). -/
def answersLost (s : State) (i : Nat) : State :=
  s.jr.recs.foldl (fun (s : State) e => match e.2 with
    | some r => if r.answer ∧ r.orig = i ∧ r.pre.isNone then
        jrMod (jrComplete s e.1 sInternal 0 []) e.1 (fun x => { x with orig := 4294967296, st := if x.st = .accepted then .done else x.st })
      else s
    | none => s) s

/-- A journal record lost to an uncorrectable word (06 R169). -/
def jrLost (s : State) (i : Nat) : State :=
  match tget none s.jr.recs i with
  | none => s
  | some r =>
    let note := fun (s : State) => event s 4 evJrLost stewardSrc r.owner (leBytes 6 r.tag)
    if 2 ≤ r.mode ∧ s.protected r.owner ∧ r.accAck then s
    else match r.st with
      | .accepted => compSettle (jrComplete (note (jrSet s i (some { r with sub := [] }))) i sInternal 0 []) i
      | .done | .releasing =>
        if r.slot.isNone then
          let s := note (jrSet s i none)
          if r.answer then releaseSettle s r.ctx else showQueues (answersLost (forgetTag s r.owner r.tag) i)
        else jrSet s i (some { r with held := false, result := [] })
      | _ => s

/-- A program store word: the vendor steward code, an entry of the image, which is read again, or an owner entry installed
while running, which stays withdrawn. -/
def progLost (s : State) (prog : Option (BitVec 32)) : State :=
  match prog with
  | none => critical s 2
  | some k => match tget none s.progs k.toNat with
    | some g => if g.image then s else { s with progs := tset none s.progs k.toNat none }
    | none => s

/-- An uncorrectable word of the mirror area: the page of the predecessor's copy that it hit, by the layout that the spec leaves open, is stale,
and the holder asks for it again (04 Table 04.15). -/
def mirrorStale (s : State) (a : Nat) : State :=
  let k := if a < 0xA80000000 then 0 else 1
  let h := if k = 0 then s.ring.h0 else s.ring.h1
  let p := Config.mirrorPage (a - 0x900000000)
  match h.home with
  | none => s
  | some home =>
    let g := { h with stale := sput h.stale p }
    let s := setRing s (if k = 0 then { s.ring with h0 := g } else { s.ring with h1 := g })
    if s.get F.VR_VERSION_IN_USE = 1 then s else ringSend s 0 rkRecordReq h.src (leBytes 1 (home + 1) ++ leBytes 4 (p * 32))

/-- An uncorrectable word at a device HBM address, by region (04 Table 04.15), and the stack failure of 20 Table 20.2. -/
def wordBad (a : Nat) (prog : Option (BitVec 32)) (s : State) : State :=
  let ev := fun (s : State) (sev : Nat) => event s sev evUncorrectable 129 0xFFFF (leBytes 8 a)
  let mark := fun (s : State) => { s with marked := sput s.marked a }
  let st := if a < 0x600000000 then 0 else 1
  let times := (tget [] s.hbmBad st).filter (fun t => decide (s.mtick < t + 1600)) ++ [s.mtick]
  let s := { s with hbmBad := tset [] s.hbmBad st times }
  let s := s.raise F.KS_SCRUB_STATUS_UNCORR
  let s :=
    if a < 0x100000000 then keyWordBad s (a / 128) 1 ev
    else if a < 0x300000000 then
      let g := (a - 0x100000000) / 512
      if g < 131072 then heapRebuild (ev s 3)
      else
        let h := tget 0 s.ks.heap g
        if h = 0 then ev s 2 else if (s.krec (hIdx h)).live then poisonRec (ev s 3) (hIdx h) 1 else ev s 3
    else if a < 0x304000000 then critical (ev s 4) 2 (leBytes 8 a)
    else if a < 0x314000000 then flowLost (ev s 4) ((a - 0x304000000) / 256)
    else if a < 0x340000000 then mark (ev s 2)
    else if a < 0x380000000 then
      let i := (a - 0x340000000) / 512
      if i < 1048576 then jrLost (ev s 4) i else ev s 4
    else if a < 0x3C0000000 then
      match prog with
      | none => critical (ev s 4) 2 (leBytes 8 a)
      | some k => progLost (ev s 3) (some k)
    else if a < 0x900000000 then mark (ev s 2)
    else mirrorStale (ev s 3) a
  if 64 < times.length then critical s 9 (leBytes 1 st) else s

/-- UNCORRECTABLE_WORD: any read finds the word. -/
def execUncorrectableWord (addr : Nat) (prog : Option (BitVec 32)) (s : State) : Host.Outcome State Fault Refusal :=
  if hbmEnd ≤ addr then .fault .noSuchWord else .next (wordBad addr prog s)

/-- SCRUB_WORD_READ: `bad` is 0 for a good word, 1 for one corrected, which is written back unless it was written since, 2 for an
uncorrectable one (04 R105). -/
def execScrubWordRead (addr : Nat) (bad : Fin 3) (_rewritten : Bool) (prog : Option (BitVec 32)) (s : State) :
    Host.Outcome State Fault Refusal :=
  if hbmEnd ≤ addr then .fault .noSuchWord
  else
    let s := s.poke F.KS_SCRUB_STATUS_RUNNING 1
    .next (if bad.val = 0 then s else if bad.val = 1 then s.incSat F.KS_SCRUB_STATUS_CORRECTED else wordBad addr prog s)

/-- SCRUB_PASS_END: the 4,096 mt end. A pass that has not finished is completed and LATE is set; the next starts at once. -/
def execScrubPassEnd (finished : Bool) (s : State) : Host.Outcome State Fault Refusal :=
  .next (let s := (s.incWrap F.KS_SCRUB_STATUS_PASSES).poke F.KS_SCRUB_STATUS_RUNNING 1
    if finished then s else s.raise F.KS_SCRUB_STATUS_LATE)

/-! ## The restore of a poisoned record (04 R107) -/

/-- Ask the host for a page's durable version. -/
def pageRequest (s : State) (p : Nat) : State :=
  if s.ks.asked.contains p then s
  else setKs s { s.ks with asked := sput s.ks.asked p
                           pendExp := s.ks.pendExp ++ [⟨1, p % 1048576, (s.leaf p).owner, 0, 0, pageSpace p, (s.leaf p).dur, [], []⟩] }

/-- RECORD_RESTORE: from the cache, else from the successor, else from the host. A page that is lost or poisoned whole, and a
failed group, name no cached record. -/
def recordRestore (i : Nat) (s : State) : State :=
  let p := pageOf i
  let l := s.leaf p
  let own := s.ks.poison.any (fun e => e.index == i)
  if own && cached s i then restored s i (s.krec i) false
  else if own || l.pois || l.lost || l.gfail then
    if s.isMember && s.hasSucc && decide (s.get F.VR_VERSION_IN_USE ≠ 1) then
      ringSend s 0 rkRecordReq s.succ (leBytes 1 (idxSpace i) ++ leBytes 4 (hIdx i))
    else if l.gfail then s
    else pageRequest s p
  else s

def execRecordRestore (space : Fin 17) (index : Fin 33554432) (s : State) : Host.Outcome State Fault Refusal :=
  .next (recordRestore (space.val * 33554432 + index.val) s)

/-! ## Housekeeping -/

/-- COMP_SESSION_EXPIRY: sessions close 3,600 s after they opened (05 R127). -/
def execCompSessionExpiry (s : State) : Host.Outcome State Fault Refusal :=
  .next { s with sessions := s.sessions.filter (fun x => decide (s.nowSec < x.opened + 3600)) }

end Sys2Proof.Machine
end

