-- ==== Sys2Proof/Machine/Command.lean ====
section
/-! DEFINITION. Machine/Command.lean: what the commands of the queue pairs share: the check order of 07 Table 07.2, key loads,
and how a command ends, waits or frees its facet. -/

namespace Sys2Proof

open Sys2Proof.Machine

/-! ## Fields of a command -/

def Work.o (w : Work) : Nat := w.owner.val
def Work.t (w : Work) : Nat := w.tag.toNat
def Work.len (w : Work) : Nat := w.input.length

/-- A field of the inline bytes 48 to 63, by its submission offset. -/
def Work.f (w : Work) (off n : Nat) : Nat := leNat (sliceBytes w.inl (off - 48) n)

/-- Are the inline bytes from `a` up to but not including `b` zero? -/
def Work.z (w : Work) (a b : Nat) : Bool := decide (w.f a (b - a) = 0)

/-- The handles that must be 0: `n` of the three are in use. -/
def Work.unused (w : Work) (n : Nat) : Bool :=
  (decide (1 ≤ n) || decide (w.a = 0)) && (decide (2 ≤ n) || decide (w.b = 0)) && (decide (3 ≤ n) || decide (w.c = 0))

/-- R182: lengths at most 64 MiB and disjoint ranges; and the output capacity holds `res` bytes. -/
def Work.fits (w : Work) (res : Nat) : Bool :=
  decide (w.len ≤ 67108864) && decide (w.cap.toNat ≤ 67108864) && !w.overlap && decide (res ≤ w.cap.toNat)

/-- Submission bytes 0–3, 12–23 and 48–63, which a quorum signs. -/
def Work.signed (w : Work) (op : Nat) : Bytes :=
  leBytes 2 op ++ [w.ver, w.flags] ++ leBytes 4 w.a.toNat ++ leBytes 4 w.b.toNat ++ leBytes 4 w.c.toNat ++ fitBytes 16 w.inl

/-- Is the caller the target owner of bytes 48 and 49, or owner 0 (07 R185)? -/
def Work.mayTarget (w : Work) : Bool := decide (w.o = 0) || decide (w.f 48 2 = w.o)

/-- Bytes of a creation's result (05 R125, 07 R179). -/
def Work.createLen (w : Work) : Nat := if w.ver = 1 then 8 else 16

end Sys2Proof

namespace Sys2Proof.Machine

open Sys2Proof

/-! ## How a command ends -/

/-- The command completes with a status. -/
def endWith (s : State) (w : Work) (st : Nat) (res : Bytes := []) : State := finishCustody s w.o w.t st res

/-- The command completes after a change that is durable at once: the change carries its work tag (06 R159). -/
def endChange (s : State) (w : Work) (st : Nat) (res : Bytes := []) : State := endWith (noteChange s w.o w.t st res) w st res

/-- The command stays accepted and holds no facet (04 R99, 07 R195). -/
def releaseFacet (s : State) (w : Work) : State :=
  match jrRunning s w.o w.t with
  | some (i, r) => if r.facet = 0 then s else facetEnd (jrMod s i (fun x => { x with facet := 0 })) (r.facet - 1)
  | none => s

/-- The command completes when the page that holds its change is durable. -/
def endDurable (s : State) (w : Work) (page : Nat) (res : Bytes) (wipe : Option Nat := none) : State :=
  releaseFacet (waitPage s page w.o w.t sOk res wipe) w

/-- Does the command wait already: for a page, an array, a focus entry or a flow's last frame, or an owner? -/
def waitsAlready (s : State) (w : Work) : Bool :=
  s.ks.waits.any (fun x => decide (x.owner = w.o) && decide (x.tag = w.t)) ||
    s.ks.sets.any (fun x => decide (x.owner = w.o) && decide (x.tag = w.t)) ||
    s.hx.ops.any (fun x => decide (x.owner = w.o) && decide (x.tag = w.t)) ||
    s.foc.table.any (fun e => match e.2 with
      | some x => decide (x.st = 4) && decide (x.owner = w.o) && decide (x.tag = w.t) && decide (x.node = s.nodeId)
      | none => false) ||
    s.foc.fwd.any (fun x => decide (x.owner = w.o) && decide (x.tag = w.t)) ||
    s.foc.removing.any (fun x => decide (x.2.1 = w.o) && decide (x.2.2.1 = w.t)) ||
    s.str.flows.any (fun e => match e.2 with
      | some f => f.waiters.contains (w.o, w.t)
      | none => false) ||
    s.own.any (fun e => e.2.waiters.contains (w.o, w.t))

/-! ## Custody commands in acceptance order (05 R126) -/

/-- Is it a command on keys (05 Table 05.6)? -/
def keyCommand (op : Nat) : Bool := decide (0x0101 ≤ op) && decide (op ≤ 0x0112)

/-- The handle that a creation replaces, read in the command body. -/
def replacedBy (s : State) (op o : Nat) (input : Bytes) : Nat :=
  let cls := if op = 0x0101 then 1 else 2
  let body := if op = 0x0103 ∨ byteAt (s.owner o).pol cls = 0 then input else input.drop (leNat (sliceBytes input 60 4))
  if op = 0x0101 ∨ op = 0x0102 ∨ op = 0x0103 ∨ op = 0x0112 then leNat (sliceBytes body 4 4) else 0

/-- The record indexes that handles of an owner name. -/
def namedIdx (s : State) (o : Nat) (l : List Nat) : List Nat := (l.filter (fun h => decide (h ≠ 0))).map (kidx s o)

/-- The records that an accepted command names: its handles, and what its parked operation replaces. Of a command that no facet has taken the input is not
known yet (log entry 237). -/
def recNames (s : State) (r : JRec) : List Nat :=
  let more := (s.hx.ops.find? (fun x => decide (x.owner = r.owner) && decide (x.tag = r.tag))).map (fun x => match x.judge with
    | some j => replacedBy s r.opcode r.owner j.w.input
    | none => leNat (sliceBytes x.w.input 4 4))
  namedIdx s r.owner [subField r.sub 12 4, subField r.sub 16 4, subField r.sub 20 4, more.getD 0]

/-- Was record `q` accepted before record `r`? -/
def acceptedBefore (q r : JRec) : Bool :=
  let t := fun (x : JRec) => x.sec * 1000000000 + x.ns
  decide (t q < t r) || (decide (t q = t r) && (decide (q.ctx < r.ctx) || (decide (q.ctx = r.ctx) && decide (q.aseq < r.aseq))))

/-- No command on keys that names one of the same records, accepted earlier, has still to take effect (05 R126). -/
def inTurn (s : State) (op : Nat) (w : Work) : Bool :=
  if !(keyCommand op) then true
  else match jrRunning s w.o w.t with
    | none => true
    | some (_, r) =>
      let mine := namedIdx s w.o [w.a.toNat, w.b.toNat, w.c.toNat, replacedBy s op w.o w.input]
      let due := fun (q : JRec) => decide (q.owner = w.o) && keyCommand q.opcode && !q.answer && q.comp.isNone && decide (q.st ≠ .stamped) &&
        acceptedBefore q r && (tget none s.jr.changes (tagKey q.owner q.tag)).isNone &&
        !(s.ks.waits.any (fun x => decide (x.owner = q.owner) && decide (x.tag = q.tag)))
      s.jr.recs.all (fun e => e.2.all (fun q => !(due q && (recNames s q).any (fun i => mine.contains i))))

/-- Run a command: a change recorded under its work tag stands (06 R159); one that waits, or whose turn has not come, is left waiting, without a facet (04 R99); check 1 of 07 Table
07.2; then its own meaning. -/
def command (op : Nat) (w : Work) (s : State) (body : State → State) : State :=
  match s.changeOf w.o w.t with
  | some (st, res) => if waitsAlready s w then releaseFacet s w else endWith s w st res
  | none =>
    if waitsAlready s w then releaseFacet s w
    else if !(inTurn s op w) then s
    else if !(opDefined w.ver.toNat op) || !(verOk s w.ver.toNat) then endWith s w sUnsupported
    else body s

/-- A list of checks in order: the first that fails gives the status. -/
def firstFail (l : List (Bool × Nat)) : Option Nat := (l.find? (fun x => !x.1)).map Prod.snd

/-- Checks that pass before the rest runs. -/
def withChecks (s : State) (w : Work) (l : List (Bool × Nat)) (k : State → State) : State :=
  match firstFail l with
  | some st => endWith s w st
  | none => k s

/-! ## Key loads (02 Table 02.5, 07 R181 check 6) -/

/-- The load is counted at the facet that runs the command, and its miss of the clear-record cache (02 R34; 21 Table 21.6). -/
def countLoad (s : State) (w : Work) (h : Nat) : State :=
  match jrRunning s w.o w.t with
  | some (_, r) =>
    if r.facet = 0 then s
    else
      let t := s.incWrap F.FCT_LDK (r.facet - 1)
      if cached s (kidx s w.o h) then t else t.incWrap F.FCT_LDK_MISS (r.facet - 1)
  | none => s

/-- Load the key of a handle under a use code, one use of a COUNTED key with it; then the algorithm must fit. A load that waits
for a use leaves the command waiting in the state `base` in which it began (04 R91, R93; log entry 224). `inner` is the inner world, in which
owner 0's keys can be loaded. -/
def withKey (s : State) (w : Work) (h : Word) (use : Nat) (fits : Nat → Bool) (k : KeyRec → State → State)
    (inner : Bool := false) (base : Option State := none) : State :=
  let at_ := base.getD s
  let s := pipeIn s (kidx s w.o h.toNat)
  let c := keyCheck s w.o inner w.acc h.toNat use
  let s := countLoad s w h.toNat
  if c.1 ≠ sOk then endWith s w c.1
  else
    let i := if c.2.owner = w.o then kidx s w.o h.toNat else hIdx h.toNat
    match consume s (.cmd w.o w.t) i with
    | none => loadWait at_ (.cmd w.o w.t) i
    | some (s : State) => if fits c.2.alg then k c.2 s else endWith s w sKeyUse

/-! ## Creations (05 R123 to R125, 07 R179) -/

/-- The result of a creation. -/
def createResult (w : Work) (r : KeyRec) : Bytes :=
  if w.ver = 1 then leBytes 4 r.handle ++ fitBytes 3 r.kcv ++ leBytes 1 r.state
  else leBytes 4 r.handle ++ leBytes 1 r.state ++ leBytes 1 r.kcvMethod ++ fitBytes 5 r.kcv ++ List.replicate 5 0

/-- Create a record for a command, which completes when the page is durable. -/
def createFor (s : State) (w : Work) (k : NewKey) (more : Bytes := []) : State :=
  match createRec s k with
  | none => endWith s w sQuota
  | some (i, (s : State)) => endDurable s w (pageOf i) (createResult w (s.krec i) ++ more)

end Sys2Proof.Machine
end

