-- ==== Sys2Proof/Machine/Park.lean ====
section
/-! DEFINITION. Machine/Park.lean: operand slots and the parking of a command for the Huxel arrays (07 R195; 11 R299, R306, R308). -/

namespace Sys2Proof.Machine

open Sys2Proof

def setHx (s : State) (h : HxSt) : State := { s with hx := h }

/-- Is at least one array online (11 R306)? -/
def arraysOnline (s : State) : Bool := (List.range 8).any (fun a => !(s.is F.HX_ASTAT_OFFLINE a))

/-- What an operation is: 0 private or sign, 1 public or verify, 2 agreement, 3 decapsulation, 4 encapsulation, 5 key generation. -/
def hxKind (op : Nat) : Nat := match op with
  | 0x0701 => 0
  | 0x0702 => 1
  | 0x0703 => 2
  | 0x0704 => 3
  | 0x0705 => 4
  | _ => 5

/-! ## Operand slots (11 R299) -/

/-- The message or digest that goes to the array (11: the facet hashes; hash code 0 and pure pass the input). -/
def toSign (hash : Nat) (m : Bytes) : Bytes := match hash with
  | 1 => sha256 m
  | 2 => sha384 m
  | 3 => sha512 m
  | _ => m

/-- The public inputs of an operation, in the order of its input, with the message as it goes to the array: context, key and signature before it;
the peer's key or the ciphertext of an agreement. -/
def HxOp.public (x : HxOp) : Bytes :=
  let w := x.w
  let pre := w.f 52 1 + (if hxKind x.opcode = 1 then (if w.a = 0 then w.f 60 2 else 0) + w.f 56 4 else 0)
  match hxKind x.opcode with
  | 0 => w.input.take pre ++ toSign (w.f 48 1) (w.input.drop pre)
  | 1 => w.input.take pre ++ toSign (w.f 48 1) (w.input.drop pre)
  | 2 => (w.input.drop 32).take (w.f 48 2)
  | 3 => (w.input.drop 32).take (kemCtLen x.alg)
  | 4 => (w.input.drop 32).take (pubLen x.alg 0)
  | _ => []

/-- The operand slot's address in the device's address space, and its bytes. -/
def slotAddr (slot : Nat) : Nat := 0x13C0000000 + slot * 0x4000

/-- Stage bytes at the start of a slot (log entry 225). -/
def slotPut (s : State) (slot : Nat) (b : Bytes) : State := { s with gmem := memWrite s.gmem (slotAddr slot) (b.take 0x4000) }

/-- What the array reads of an operation's public inputs: the slot's bytes, and past 16 KiB those that reach it by no slot. -/
def slotInput (s : State) (x : HxOp) : Bytes :=
  let b := x.public
  memRead s.gmem (slotAddr x.slot) (min b.length 0x4000) ++ b.drop 0x4000

/-! ## Parking (07 R195, 11 R299, R308) -/

/-- Bring HX_PARKED and DEV_WEAR up to date. -/
def showParked (s : State) : State :=
  let n := s.hx.ops.length
  let full := decide (65536 ≤ n)
  let s := s.poke F.HX_PARKED_PARKED n
  let s := if full && !(s.is F.HX_PARKED_FULL) then s.raise F.HX_PARKED_FULL_SEEN else s
  s.poke F.HX_PARKED_FULL (b2n full)

/-- The operand slot of a command that parks: the one its facet is bound to, else the lowest free. -/
def parkSlot (s : State) (w : Work) : Nat :=
  let k := match jrRunning s w.o w.t with
    | some (_, r) => if r.facet = 0 then 0 else tget 0 s.apt.slots (r.facet - 1)
    | none => 0
  if k = 0 then freeSlot s else k - 1

/-- An operation joins the queue, with its public inputs in its slot. -/
def stage (s : State) (x : HxOp) : State := slotPut (setHx s { s.hx with ops := s.hx.ops ++ [x] }) x.slot x.public

/-- A command whose operations have joined the queue: its record is parked and its facet free (07 R195). -/
def parked (s : State) (w : Work) : State :=
  let s := match jrRunning s w.o w.t with
    | some (i, _) => jrMod s i (fun r => { r with parked := true })
    | none => s
  let s := if parkedOf s w.o = 4096 then s.raise F.HX_PARKED_OWNER_FULL_SEEN else s
  releaseFacet (showParked s) w

/-- Park a command: its operation takes an operand slot and joins the queue; its facet is freed (07 R195). While every
array is offline it completes at the park with S_INTERNAL (11 R306). -/
def park (s : State) (w : Work) (op alg len : Nat) (final : Bool) : State :=
  if !(arraysOnline s) then endWith s w sInternal
  else if 65536 ≤ s.hx.ops.length ∨ 4096 ≤ parkedOf s w.o then s
  else parked (stage s ⟨w.o, w.t, op, w, alg, len, 0, 0, parkSlot s w, false, none, false, final, [], [], none⟩) w

end Sys2Proof.Machine
end

