-- ==== Sys2Proof/Machine/Quorum.lean ====
section
/-! DEFINITION. Machine/Quorum.lean: quorums of custody commands (05 R116 to R121). -/

namespace Sys2Proof.Machine

open Sys2Proof

/-! ## Quorum (05 R116 to R121) -/

/-- The ACTIVE custodians of an owner whose mask includes a class. -/
def Owner.active (x : Owner) (cls : Nat) : Nat :=
  (x.custodians.filter (fun e => match e.2 with
    | some c => c.mask.testBit cls
    | none => false)).length

/-- A signature entry of a quorum block: slot, algorithm, signature. -/
def quorumEntries (fuel : Nat) (b : Bytes) : Option (List (Nat × Nat × Bytes)) :=
  match fuel with
  | 0 => if b.isEmpty then some [] else none
  | n + 1 =>
    let len := leNat (sliceBytes b 2 2)
    let size := (len + 11) / 8 * 8
    if b.length < size then none
    else if ((b.take size).drop (4 + len)).any (fun x => decide (x ≠ 0)) then none
    else (quorumEntries n (b.drop size)).map (fun l => (byteAt b 0, byteAt b 1, (b.take (4 + len)).drop 4) :: l)

/-- The public components of a custodian's credential, and its algorithm; none where the record is not there. -/
def credential (s : State) (o : Nat) (c : Custodian) : Option (Nat × Bytes) :=
  let f := keyFind s o false c.handle
  if f.1 ≠ sOk then none
  else (tget none s.ks.bodies (kidx s o c.handle)).map (fun b => (f.2.alg, b.pub))

/-- The command of a quorum waits for its signatures: no status of 07 Table 07.11. -/
def sWait : Nat := 0x10000

/-- A signature to verify: the custodian slot (8 for a credential that CUST_ENROL enrols), algorithm, public key, signature. -/
structure QSig where
  slot : Nat
  alg : Nat
  pub : Bytes
  sig : Bytes
def credentialSlot : Nat := 8

/-- What the arrays found of a signature of a command. -/
def State.verdict (s : State) (o t slot : Nat) : Option Nat :=
  (s.hx.verdicts.find? (fun v => decide (v.1 = o) && decide (v.2.1 = t) && decide (v.2.2.1 = slot))).map (fun v => v.2.2.2)

/-- The first signature of a command that did not verify: its slot and outcome. -/
def firstBad (s : State) (w : Work) (slots : List Nat) : Option (Nat × Nat) :=
  slots.findSome? (fun k => match s.verdict w.o w.t k with
    | some st => if st = sOk then none else some (k, st)
    | none => none)

/-- The VERIFY that checks a signature over M on an array: hash code 2 for P-384, 4 for ML-DSA, an empty context, the key in the input (05 R120,
R121). -/
def judgeWork (w : Work) (q : QSig) (m : Bytes) : Work :=
  { w with
    a := 0, b := 0, c := 0, input := q.pub ++ q.sig ++ m
    inl := [if q.alg = 0x22 then 2 else 4, 0, 0, 0, 0, 0, BitVec.ofNat 8 q.alg, 0] ++ leBytes 4 q.sig.length ++ leBytes 2 q.pub.length ++ [0, 0] }

/-- Park a custody command for its signatures (05 R121; log entry 236). -/
def parkJudges (s : State) (w : Work) (op : Nat) (body m : Bytes) (l : List QSig) : State :=
  if !(arraysOnline s) then endWith s w sInternal
  else if 65536 < s.hx.ops.length + l.length ∨ 4096 < parkedOf s w.o + l.length then s
  else parked (l.foldl (fun (s : State) q =>
    stage s ⟨w.o, w.t, 0x0702, judgeWork w q m, q.alg, 0, 0, 0, freeSlot s, false, none, false, false, [], [], some ⟨q.slot, op, w, body⟩⟩) s) w

/-- What a quorum check yields: a status or the command body and M; the state, with the challenge reserved; the signatures to verify. -/
structure QRes where
  st : Nat
  body : Bytes
  m : Bytes
  s : State
  sigs : List QSig := []

/-- The quorum of a command of class `cls` whose target is owner `o` (05 Table 05.5). Check 5 runs on the arrays: the command waits for them, and
goes on with their verdicts. Where the target's threshold of the class is
0 the input is the body (05 R116). -/
def quorum (s : State) (w : Work) (op cls o : Nat) : QRes :=
  let x := s.owner o
  if byteAt x.pol cls = 0 then ⟨sOk, w.input, [], s, []⟩
  else
    let b := w.input
    let h := b.take 64
    let n := fun (off k : Nat) => leNat (sliceBytes h off k)
    let k := byteAt h 6
    let qlen := n 60 4
    let sigO := n 8 2
    let entries := if qlen < 64 then none else quorumEntries k ((b.take qlen).drop 64)
    let body := b.drop qlen
    let slots := (entries.getD []).map (fun e => e.1)
    let m := ascii "PH64-QUORUM-1" ++ (h.take 6 ++ [0] ++ (h.take 60).drop 7 ++ [0, 0, 0, 0]) ++ w.signed op ++ sha384 body
    let ok1 := decide (64 ≤ b.length) && decide (n 0 4 = 0x51554F52) && decide (byteAt h 4 = 1) && decide (byteAt h 5 = cls) &&
      decide (1 ≤ k) && decide (k ≤ 8) && decide (byteAt h 7 = 0) && decide (n 10 2 = op) && decide (n 54 6 = w.t) &&
      decide (qlen % 8 = 0) && decide (qlen ≤ b.length) && decide (qlen + n 12 4 = b.length) && entries.isSome &&
      decide (slots.eraseDups.length = slots.length) && (decide (op ≠ 0x0111) || decide (k = 1))
    let deny := fun (s : State) (slot : Nat) => (⟨sDenied, [], [], event s 5 evQuorum stewardSrc sigO (leBytes 1 slot), []⟩ : QRes)
    if !ok1 then ⟨sMalformed, [], [], s, []⟩
    else if slots.all (fun k => (s.verdict w.o w.t k).isSome) then
      match firstBad s w slots with
      | some (k, st) => if st = sVerifyFail then deny s k else ⟨st, [], [], s, []⟩
      | none => ⟨sOk, body, m, s, []⟩
    else
      let y := s.owner sigO
      let key := tagKey w.o w.t
      let ch := y.challenges.find? (fun c => decide (c.val = sliceBytes h 16 32) && decide (c.exp = n 48 6) &&
        decide (s.nowSec < c.exp) && (c.tag.isNone || c.tag == some key))
      match ch with
      | none => ⟨sDenied, [], [], s, []⟩
      | some c =>
        let s := setCustody s sigO { y with challenges := y.challenges.map (fun d => if d = c then { d with tag := some key } else d) }
        let first := slots.headD 0
        let opened := decide (sigO = o) || (decide (sigO = 0) && (decide (op = 0x0140) ||
          (decide (op = 0x0130) && decide (x.custodians = []))))
        if !opened then deny s first
        else
          let bad := (entries.getD []).find? (fun e => match tget none y.custodians e.1 with
            | some d => !(d.mask.testBit cls) || !((credential s sigO d).any (fun q => q.1 == e.2.1))
            | none => true)
          match bad with
          | some e => deny s e.1
          | none =>
            if k < byteAt y.pol cls ∧ op ≠ 0x0111 then deny s first
            else
              let sigs := (entries.getD []).map (fun e =>
                let c := ((tget none y.custodians e.1).bind (credential s sigO)).getD (0, [])
                (⟨e.1, c.1, c.2, e.2.2⟩ : QSig))
              match sigs.find? (fun q => !(verifyInputOk q.alg q.pub q.sig)) with
              | some q => deny s q.slot
              | none => ⟨sWait, body, m, s, sigs⟩

/-- A command of a quorum class: its body, M, and the state after the quorum checks. -/
def withQuorum (s : State) (w : Work) (op cls o : Nat) (k : Bytes → Bytes → State → State) : State :=
  let q := quorum s w op cls o
  if q.st = sWait then parkJudges q.s w op q.body q.m q.sigs
  else if q.st ≠ sOk then endWith q.s w q.st
  else k q.body q.m q.s

/-- A credential that a command enrols signs M as the quorum does (05 R114): the command waits for its verdict and goes on where it verifies. -/
def withCredential (s : State) (w : Work) (op : Nat) (body m : Bytes) (q : QSig) (k : State → State) : State :=
  if !(verifyInputOk q.alg q.pub q.sig) then endWith s w sDenied
  else match s.verdict w.o w.t q.slot with
    | none => parkJudges s w op body m [q]
    | some st => if st = sOk then k s else endWith s w (if st = sVerifyFail then sDenied else st)

end Sys2Proof.Machine
end

