-- ==== Sys2Proof/Machine/Focus.lean ====
section
/-! DEFINITION. Machine/Focus.lean: Prolith time, the discipline of the clock, and the focus table with its actions (10; 07 R200,
R201). -/

namespace Sys2Proof.Machine

open Sys2Proof

/-- Events of 10: a register write that is refused, a clock behind the floor, an action refused. -/
def evFocWriter : Nat := 0x0801
def evBehind : Nat := 0x0802
def evRefused : Nat := 0x0803

def setFoc (s : State) (f : FocSt) : State := { s with foc := f }
/-- A management tick in nanoseconds (01 R13). -/
def mtNs : Nat := 625000

/-- Set Prolith time. -/
def setNow (s : State) (t : Nat) : State :=
  let sec := t / secNs
  ((s.poke F.FOC_NOW_NS_NS (t % secNs)).poke F.FOC_NOW_SLO (sec % 4294967296)).poke F.FOC_NOW_SHI_SEC_HI (sec / 4294967296 % 65536)

/-- BEHIND is live: disciplined, LOCKED, and 1 s or more below the floor (10 R283). -/
def behindUpdate (s : State) : State :=
  let b := decide (s.get F.FOC_TCFG_SRC ≠ 0) && decide (s.get F.FOC_TSTAT_STATE = 2) && decide (s.now + secNs ≤ s.foc.floor)
  if b = s.is F.FOC_TSTAT_BEHIND then s
  else
    let s := s.put F.FOC_TSTAT_BEHIND (b2n b)
    if b then event s 4 evBehind 133 else s

/-- Prolith time has reached an instant: it never goes back (10 R281). -/
def timeAt (s : State) (t : Nat) : State := if s.foc.runs ∧ s.now < t then behindUpdate (setNow s t) else s

/-! ## The source of ring time (10 R285) -/

/-- The members of the node's ring, itself with them; the node alone outside one. -/
def State.members (s : State) : List Nat :=
  if s.ringState = 0 then [s.nodeId]
  else (List.range 16).filter (fun n => (s.get F.VR_MEMBERS_MEMBERS).testBit n || decide (n = s.nodeId))
def State.alone (s : State) : Bool := s.members.all (fun n => n == s.nodeId)

/-- The node is the source of its time: it is alone or the ring's time source. -/
def State.timeSource (s : State) : Bool := s.alone || s.is F.FOC_TSTAT_RING_SRC

/-- The source that the last time blocks name: node, discipline state, hops, priority. -/
def sourceInfo (s : State) : Option (Nat × Nat × Nat × Nat) := (tget none s.foc.src 1).or (tget none s.foc.src 0)
def sourceNode (s : State) : Nat := match sourceInfo s with
  | some x => x.1
  | none => 255

/-- The rank of a discipline state in the election. -/
def timeRank (d : Nat) : Nat := match d with
  | 2 => 0
  | 3 => 1
  | 1 => 2
  | _ => 3

/-- Is (a, b, c) before (x, y, z)? -/
def before3 (a b c x y z : Nat) : Bool :=
  decide (a < x) || (decide (a = x) && (decide (b < y) || (decide (b = y) && decide (c < z))))

/-- Show a discipline state. -/
def showDisc (s : State) (v : Nat) : State :=
  if s.get F.FOC_TSTAT_STATE = v then s else behindUpdate ((s.put F.FOC_TSTAT_STATE v).raise F.FOC_TSTAT_STATE_CHG)

/-! ## The focus table (10 R287 to R290, R527) -/

/-- Entry states (10 Table 10.10). -/
def fArmed : Nat := 1
def fDone : Nat := 2
def fRefused : Nat := 3
def fAdding : Nat := 4

def State.fentry (s : State) (e : Nat) : Option FEntry := tget none s.foc.table e

/-- Write an entry, and count those that are not FREE. -/
def setEntry (s : State) (e : Nat) (x : Option FEntry) : State :=
  let s := setFoc s { s.foc with table := tset none s.foc.table e x }
  s.poke F.FOC_TSTAT_ENTRIES s.foc.table.length

/-- The result of an addition. -/
def entryResult (e : Nat) : Bytes := leBytes 2 e ++ [0, 0]

/-- Send a FOCUS frame: what it does, the entry's number and contents. -/
def focusSend (s : State) (dst what e : Nat) (x : Option FEntry) : State :=
  ringSend s 0 rkFocus dst (leBytes 1 what ++ leBytes 2 e ++ (match x with
    | some x => entryBytes x ++ leBytes 6 x.tag
    | none => []))

/-- The key that a KEY_ACTIVATE entry names, if it is there, PENDING and of the entry's owner. -/
def entryKey (s : State) (x : FEntry) : Option Nat :=
  let h := leNat (sliceBytes x.params 0 4)
  let i := kidx s x.owner h
  let r := s.krec i
  if r.state = kPending ∧ r.handle = h ∧ r.owner = x.owner then some i else none

/-- An entry is ARMED on this node; a tag of 2^48 or more is that of an image's focus default, which no command added: the command that added it here completes, KEY_SCHEDULE once its page is durable too. -/
def entryArmed (s : State) (e : Nat) : State :=
  match s.fentry e with
  | some x =>
    if x.st ≠ fAdding then s
    else
      let s := setEntry s e (some { x with st := fArmed })
      if x.node ≠ s.nodeId ∨ 281474976710656 ≤ x.tag then s
      else if x.typ = 1 then settleWaits s
      else finishCustody (noteChange s x.owner x.tag sOk (entryResult e)) x.owner x.tag sOk (entryResult e)
  | none => s

/-- The source sees whether every node holds an entry. -/
def entryCheck (s : State) (e : Nat) : State :=
  match s.fentry e with
  | some x =>
    if x.st = fAdding ∧ s.timeSource ∧ s.members.all (fun n => x.holders.contains n) then
      let s := if s.alone then s else focusSend s 255 3 e none
      entryArmed s e
    else s
  | none => s

/-- An entry with its number reaches this node. For KEY_SCHEDULE here, the record takes the number, and the command waits for
its page (05 R136). -/
def entryPlace (s : State) (e : Nat) (x : FEntry) : State :=
  let s := setEntry s e (some { x with st := fAdding, outcome := 0, holders := [s.nodeId] })
  let s := setFoc s { s.foc with fwd := s.foc.fwd.filter (fun y => !(decide (y.owner = x.owner) && decide (y.tag = x.tag))) }
  let s := if x.typ = 1 ∧ x.node = s.nodeId then
      match entryKey s x with
      | some i =>
        let s := changeRec s i { s.krec i with focus := e }
        setKs s { s.ks with waits := s.ks.waits ++ [⟨pageOf i, none, none, x.owner, x.tag, sOk, entryResult e, none, some e⟩] }
      | none => s
    else s
  entryCheck s e

/-- Add an entry: the source assigns the lowest FREE number and copies it; another node forwards it, once it knows the source (10 R290).
None where the table is full. -/
def focusAdd (s : State) (x : FEntry) : Option State :=
  if 4096 ≤ s.foc.table.length then none
  else if s.timeSource then
    let e := lowestFree (s.foc.table.length + 1) 0 (fun k => (s.fentry k).isSome)
    some (entryPlace (if s.alone then s else focusSend s 255 1 e (some x)) e x)
  else
    let s := setFoc s { s.foc with fwd := s.foc.fwd ++ [x] }
    some (if (sourceInfo s).isSome then focusSend s (sourceNode s) 0 0 (some x) else s)

/-- An addition finds the table full: its command completes with S_QUOTA on the node where it was added (07 R201, 05 R136). -/
def addFull (s : State) (x : FEntry) : State :=
  if x.node ≠ s.nodeId then focusSend s x.node 7 0 (some x)
  else
    let s := setFoc s { s.foc with fwd := s.foc.fwd.filter (fun y => !(decide (y.owner = x.owner) && decide (y.tag = x.tag))) }
    if 281474976710656 ≤ x.tag then s else finishCustody s x.owner x.tag sQuota []

/-- The additions in transit go to a new source, or are numbered where this node is the source (10 R290). -/
def fwdAgain (s : State) : State :=
  s.foc.fwd.foldl (fun s x =>
    if s.timeSource then (focusAdd s x).getD (addFull s x)
    else if (sourceInfo s).isSome then focusSend s (sourceNode s) 0 0 (some x) else s) s

/-- An ADDING entry becomes FREE; where this node added it, its command does not wait for it any more and the record loses the number. -/
def entryTake (s : State) (e : Nat) (x : FEntry) : State :=
  let s := setEntry s e none
  if x.node ≠ s.nodeId ∨ x.typ ≠ 1 then s
  else
    let s := setKs s { s.ks with waits := s.ks.waits.filter (fun w => w.entry != some e) }
    match entryKey s x with
    | some i => changeRec s i { s.krec i with focus := 0xFFFF }
    | none => s

/-- An ADDING entry is dropped: the command that added it here completes with S_DENIED. -/
def entryDrop (s : State) (e : Nat) : State :=
  match s.fentry e with
  | some x =>
    if x.st ≠ fAdding then setEntry s e none
    else
      let s := entryTake s e x
      if x.node ≠ s.nodeId ∨ 281474976710656 ≤ x.tag then s else finishCustody s x.owner x.tag sDenied []
  | none => s

/-- An ADDING entry that a reset of another node freed: the node that added it adds it anew (10 R527). -/
def entryAgain (s : State) (e : Nat) : State :=
  match s.fentry e with
  | some x =>
    if x.st ≠ fAdding then s
    else
      let s := entryTake s e x
      if x.node ≠ s.nodeId then s
      else
        let y := { x with holders := [] }
        (focusAdd s y).getD (addFull s y)
  | none => s

/-- A node has reset or left: the ADDING entries that it added, numbered or holds become FREE on every node (10 R527). A lost
source is forgotten. -/
def nodeLost (s : State) (n : Nat) : State :=
  let src := decide (sourceNode s = n)
  let mine := s.timeSource && !s.alone
  let hit := (s.foc.table.filter (fun e => e.2.any (fun x => decide (x.st = fAdding) && (src || decide (x.node = n) || x.holders.contains n)))).map Prod.fst
  let s := if src then setFoc s { s.foc with src := [], ringRun := 0 } else s
  hit.foldl (fun s e => entryAgain (if mine then focusSend s 255 9 e none else s) e) s

/-- FOCUS_ADDING_TIMEOUT: an entry that not every node holds 1 mt before its instant (10 R289). -/
def addingTimeout (e : Nat) (s : State) : State :=
  match s.fentry e with
  | some x =>
    if x.st = fAdding ∧ x.instant ≤ s.now + mtNs then
      entryDrop (if s.timeSource ∧ !s.alone then focusSend s 255 4 e none else s) e
    else s
  | none => s
def execFocusAddingTimeout (e : Fin 4096) (s : State) : Host.Outcome State Fault Refusal := .next (addingTimeout e s)

/-- Does a KEY_ACTIVATE entry's change of its key, or of the predecessor that the key now retires, wait to be durable? -/
def entryPinned (s : State) (x : FEntry) : Bool :=
  let h := leNat (sliceBytes x.params 0 4)
  decide (x.typ = 1) && s.ks.cache.any (fun e => e.2.any (fun c => c.pinned) &&
    (decide (e.1 = kidx s x.owner h) || (decide ((s.krec e.1).linked = h) && decide ((s.krec e.1).owner = x.owner))))

/-- FOCUS_ENTRY_FREE: 1,600 mt after the instant, with the action's effects durable. -/
def entryFree (e : Nat) (s : State) : State :=
  match s.fentry e with
  | some x =>
    if (x.st = fDone ∨ x.st = fRefused) ∧ x.instant + 1600 * mtNs ≤ s.now ∧ !(entryPinned s x) then setEntry s e none else s
  | none => s
def execFocusEntryFree (e : Fin 4096) (s : State) : Host.Outcome State Fault Refusal := .next (entryFree e s)

/-- Remove an entry on every node: with a command, once every node has acknowledged (07 R201). -/
def entryRemove (s : State) (e : Nat) : State :=
  let s := setEntry s e none
  if s.alone then s else focusSend s 255 4 e none

/-- The content of a FOCUS frame, as `focusSend` gives it. -/
def focusBytes (m : FocusMsg) : Bytes :=
  let arg := fun (x : FocusArg) => entryBytes ⟨x.typ.val, x.st.val, x.owner.val, x.instant, x.node.val, 0, x.params, x.tag.toNat, []⟩ ++ leBytes 6 x.tag.toNat
  match m with
  | .add x => [0, 0, 0] ++ arg x
  | .copy e x => [1] ++ leBytes 2 e.val ++ arg x
  | .held e n => [2] ++ leBytes 2 e.val ++ leBytes 1 n.val
  | .armed e => [3] ++ leBytes 2 e.val
  | .remove e => [4] ++ leBytes 2 e.val
  | .removed e n => [5] ++ leBytes 2 e.val ++ leBytes 1 n.val
  | .move e t => [6] ++ leBytes 2 e.val ++ leBytes 8 t
  | .full x => [7, 0, 0] ++ arg x
  | .table n => [8] ++ leBytes 2 n
  | .again e => [9] ++ leBytes 2 e.val

/-- A node that joins is sent every entry, then their number (10 R290). -/
def copyTable (s : State) (dst : Nat) : State :=
  let s := s.foc.table.foldl (fun s e => match e.2 with
    | some x => focusSend s dst 1 e.1 (some x)
    | none => s) s
  focusSend s dst 8 s.foc.table.length none

/-- An entry of the ring's table reaches a node that joins: its own outcome of an action it has executed stands, and one that it still
has to execute stays ARMED (10 R287, R294). -/
def entryCopied (s : State) (e : Nat) (x : FEntry) : State :=
  let same := (s.fentry e).filter (fun y => decide (y.owner = x.owner) && decide (y.tag = x.tag) && decide (y.st ≠ fAdding))
  setEntry s e (some (same.getD { x with outcome := 0 }))

/-- FOCUS: an entry is added, copied, held, armed, removed, moved or freed; an addition finds the table full; a table has been copied
(10 R289, R290, R527). -/
def focusMsg (m : FocusMsg) (s : State) : State :=
  let entry := fun (x : FocusArg) => (⟨x.typ.val, x.st.val, x.owner.val, x.instant, x.node.val, 0, x.params, x.tag.toNat, []⟩ : FEntry)
  match m with
  | .add x =>
    let y := entry x
    let known := s.foc.table.any (fun e => match e.2 with
      | some z => decide (z.owner = y.owner) && decide (z.tag = y.tag)
      | none => false)
    if !s.timeSource then focusSend s (sourceNode s) 0 0 (some y)
    else if known then s
    else (focusAdd s y).getD (addFull s y)
  | .copy e x =>
    let s := if s.foc.tableIn then s else setFoc s { s.foc with copied := sput s.foc.copied e.val }
    if s.timeSource then s
    else if x.st.val = fAdding then focusSend (entryPlace s e (entry x)) (sourceNode s) 2 e none
    else entryCopied s e (entry x)
  | .held e node =>
    match s.fentry e with
    | some x => entryCheck (setEntry s e (some { x with holders := sput x.holders node.val })) e
    | none => s
  | .armed e => entryArmed s e
  | .remove e => focusSend (entryDrop s e) 255 5 e none
  | .removed e node =>
    match s.foc.removing.find? (fun r => decide (r.1 = e.val)) with
    | none => s
    | some r =>
      let left := r.2.2.2.erase node.val
      let rest := s.foc.removing.filter (fun y => y != r)
      if left = [] then
        finishCustody (noteChange (setFoc s { s.foc with removing := rest }) r.2.1 r.2.2.1 sOk []) r.2.1 r.2.2.1 sOk []
      else setFoc s { s.foc with removing := rest ++ [(r.1, r.2.1, r.2.2.1, left)] }
  | .move e t => match s.fentry e with
    | some x => if x.st = fArmed ∨ x.st = fAdding then setEntry s e (some { x with instant := t }) else s
    | none => s
  | .full x => addFull s (entry x)
  | .table _ =>
    if s.foc.tableIn then s
    else
      let gone := (s.foc.table.filter (fun y => !(s.foc.copied.contains y.1))).map Prod.fst
      gone.foldl (fun s k => setEntry s k none) (setFoc s { s.foc with tableIn := true, copied := [] })
  | .again e => entryAgain s e
def execFocus (h : RHead) (m : FocusMsg) (s : State) : Host.Outcome State Fault Refusal :=
  .next (ringTake s h rkFocus (focusBytes m) (focusMsg m))

/-! ## Discipline (10 R277 to R283, R285) -/

/-- The offset register: signed nanoseconds, saturating (10 Table 10.7). -/
def setOffset (s : State) (off : Int) : State :=
  s.poke F.FOC_OFFSET ((BitVec.ofInt 32 (max (-2147483648) (min 2147483647 off))).toNat)

/-- The node becomes the ring's time source: it reports its own state, and numbers the additions that it had forwarded. -/
def becomeSource (s : State) : State :=
  fwdAgain (showDisc (setFoc (s.poke F.FOC_TSTAT_RING_SRC 1) { s.foc with src := [], ringRun := 0 }) s.foc.own)

/-- The election as this node sees it: does it rank before the source that the time blocks name? -/
def elect (s : State) : State :=
  match sourceInfo s with
  | some x => if s.ringState ≠ 0 ∧ !(s.is F.FOC_TSTAT_RING_SRC) ∧
      before3 (timeRank s.foc.own) (s.get F.FOC_TCFG_PRIORITY) s.nodeId (timeRank x.2.1) x.2.2.2 x.1 then becomeSource s else s
  | none => s

/-- The node's own discipline state changes: the election is repeated. A node that takes time from a ring does not report it. -/
def setOwn (s : State) (v : Nat) : State :=
  let s := setFoc s { s.foc with own := v, run := 0 }
  elect (if s.timeSource then showDisc s v else s)

/-- A valid time sample with its offset, Prolith time minus source time (10 R280, R281): the node that is its own source of time steps
forward, or slews the offset off. -/
def sampleOff (s : State) (off : Int) : State :=
  let mine := s.timeSource
  let step := mine && decide (s.foc.own = 1) && decide (off < -1000)
  let s := if mine then setFoc (setOffset s off) { s.foc with freq := Config.freqEstimate s.foc.freq off, slew := if step then 0 else off } else s
  let s := if step then timeAt s (s.now + off.natAbs) else s
  match s.foc.own with
  | 1 =>
    let n := if -100 ≤ off ∧ off ≤ 100 then s.foc.run + 1 else 0
    if 16 ≤ n then setOwn s 2 else setFoc s { s.foc with run := n }
  | 2 =>
    let n := if off < -1000 ∨ 1000 < off then s.foc.run + 1 else 0
    if 16 ≤ n then setOwn s 1 else setFoc s { s.foc with run := n }
  | 3 => setOwn s 1
  | _ => s

/-- A sample taken at Prolith time `at_`, when the source's time was `src`. -/
def sample (s : State) (at_ src : Nat) : State := sampleOff (timeAt s at_) ((at_ : Int) - (src : Int))

/-- What one management tick adds to Prolith time: 625 µs; in HOLDOVER at the last frequency estimate; else less what slewing takes
off, at most 62 ns, within 100 ppm (10 R281). -/
def slewStep (s : State) : Int := max (-62) (min 62 s.foc.slew)
def tickNs (s : State) : Nat :=
  if s.foc.own = 3 ∧ s.timeSource then ((mtNs : Int) + s.foc.freq).toNat else ((mtNs : Int) - slewStep s).toNat
def timeTick (s : State) : State :=
  timeAt (setFoc s { s.foc with slew := s.foc.slew - slewStep s }) (s.now + tickNs s)

/-! ### PTP (10 R278) -/

/-- Times of PTP are kept in 2^-16 ns, as correction fields give them; a stamp at the PCS counts 0.625 ns. -/
def ptpNs : Nat := 65536
def ptpStamp : Nat := 40960

/-- Is a list of numbers before another, field by field? -/
def lexBefore (a b : List Nat) : Bool := match a, b with
  | x :: p, y :: q => decide (x < y) || (decide (x = y) && lexBefore p q)
  | [], _ :: _ => true
  | _, _ => false

/-- The best master by the data sets of the Announce messages, then by port identity. -/
def bestMaster (l : List (Nat × List Nat)) : Option Nat :=
  (l.foldl (fun (acc : Option (Nat × List Nat)) m => match acc with
    | some b => if lexBefore (m.2 ++ [m.1]) (b.2 ++ [b.1]) then some m else some b
    | none => some m) none).map Prod.fst

/-- A Delay_Req message: domain and sequence number. -/
def delayReq (domain seq : Nat) : Bytes :=
  [0x01, 0x12, 0, 44] ++ beBytes 1 domain ++ List.replicate 15 0 ++ fitBytes 8 Config.ptpIdentity ++ beBytes 2 1 ++ beBytes 2 seq ++
    [1, 0x7F] ++ List.replicate 10 0

def setPtp (s : State) (p : PtpSt) : State := setFoc s { s.foc with ptp := p }

/-- A Sync and its origin time are known: `t2` is when it arrived and `t1` when it left. The delay is measured. -/
def synced (s : State) (domain t2 : Nat) (t1 : Int) : State :=
  let p := s.foc.ptp
  let s := setPtp s { p with sync := none, req := some (p.next, (s.now * ptpNs : Nat), (t2 : Int) - t1), next := (p.next + 1) % 65536 }
  { s with sent := s.sent ++ [.frame (s.get F.FOC_TCFG_PTP_PORT) (s.get F.FOC_TCFG_PTP_SUB)
      (Config.ptpHeader (s.get F.FOC_TCFG_PTP_TRANSPORT) ++ delayReq domain p.next)] }

/-- A message of the best master; Announce messages of any. -/
def ptpMsg (src : Nat) (m : PtpMsg) (s : State) : State :=
  let p := s.foc.ptp
  let best := decide (bestMaster p.masters = some src)
  let domain := s.get F.FOC_TCFG_DOMAIN
  match m with
  | .announce rank => setPtp s { p with masters := p.masters.filter (fun x => decide (x.1 ≠ src)) ++ [(src, rank)] }
  | .sync seq two stamp origin corr =>
    if !best then s
    else
      let t2 := stamp * ptpStamp
      let s := timeAt s (t2 / ptpNs)
      if two then setPtp s { p with sync := some (seq.toNat, t2, corr) } else synced s domain t2 ((origin * ptpNs : Nat) + corr)
  | .followUp seq origin corr =>
    match p.sync with
    | some (n, t2, c) => if best ∧ n = seq.toNat then synced s domain t2 ((origin * ptpNs : Nat) + c + corr) else s
    | none => s
  | .delayResp seq received corr =>
    match p.req with
    | some (n, t3, there) =>
      if best ∧ n = seq.toNat then
        sampleOff (setPtp s { p with req := none }) ((there - ((received * ptpNs : Nat) - corr - (t3 : Int))) / (2 * (ptpNs : Int)))
      else s
    | none => s

/-- PTP_MESSAGE: a message for the port's own clock (10 R278). -/
def execPtpMessage (port : Fin 16) (sub : Fin 4) (transport : Fin 3) (domain : BitVec 7) (src : Nat) (m : PtpMsg) (s : State) :
    Host.Outcome State Fault Refusal :=
  .next (if s.get F.FOC_TCFG_SRC = 1 ∧ s.get F.FOC_TCFG_PTP_PORT = port.val ∧ s.get F.FOC_TCFG_PTP_SUB = sub.val ∧
      s.get F.FOC_TCFG_PTP_TRANSPORT = transport.val ∧ s.get F.FOC_TCFG_DOMAIN = domain.toNat then ptpMsg src m s else s)

/-! ### PPS and time of day (10 R279, R284) -/

/-- An edge that a valid time-of-day message announced is a sample of source 2 (10 R277, R279). The edge keeps its time through a step. -/
def ppsEdge (stamp : Nat) (s : State) : State :=
  let t := s.foc.tod
  let v := timeAt (setFoc s { s.foc with tod := none, edge := stamp }) stamp
  if s.get F.FOC_TCFG_SRC ≠ 2 then v
  else match t with
    | some sec =>
      let u := sample v stamp (sec * secNs)
      setFoc u { u.foc with edge := stamp + (u.now - v.now) }
    | none => v
/-- PPS_EDGE. -/
def execPpsEdge (stamp : Nat) (s : State) : Host.Outcome State Fault Refusal :=
  .next (ppsEdge stamp s)

/-- The time-of-day message's fields and CRC-16/CCITT (10 R279). -/
def todOk (b : Bytes) : Bool :=
  decide (b.length = 16) && decide (b.take 3 = [0xA5, 0x5A, 0x01]) && decide (byteAt b 3 = 1) &&
    decide (sliceBytes b 10 4 = [0, 0, 0, 0]) && decide (beNat (sliceBytes b 14 2) = checkValue 3 none (b.take 14))

/-- TOD_MESSAGE: complete at `stamp`, 100 to 900 ms after an edge. -/
def execTodMessage (stamp : Nat) (octets : List (BitVec 8)) (s : State) : Host.Outcome State Fault Refusal :=
  .next (if todOk octets ∧ s.foc.edge + 100000000 ≤ stamp ∧ stamp ≤ s.foc.edge + 900000000 then
      setFoc s { s.foc with tod := some (beNat (sliceBytes octets 4 6)) }
    else setFoc (s.raise F.FOC_TSTAT_TOD_ERR) { s.foc with tod := none })

/-- SAMPLE_TIMEOUT: no valid sample for 4 s; a master that gave none is forgotten. -/
def execSampleTimeout (s : State) : Host.Outcome State Fault Refusal :=
  .next (if s.foc.own = 1 ∨ s.foc.own = 2 then setOwn (setPtp s PtpSt.zero) 3 else s)

/-- The level of PPS_OUT: active through 100 ms from each whole second, while it is enabled (10 R284). -/
def State.ppsOut (s : State) : Bool :=
  if s.is F.FOC_TCFG_PPS_OUT_EN ∧ s.now < s.foc.ppsUntil then !(s.is F.FOC_TCFG_PPS_POL) else s.is F.FOC_TCFG_PPS_POL

/-- Prolith time reaches its next whole second, and PPS_OUT takes its active level. -/
def ppsPulse (s : State) : State :=
  let t := ceilDiv s.now secNs * secNs
  let s := timeAt s t
  let s := setFoc s { s.foc with ppsUntil := t + 100000000 }
  { s with sent := s.sent ++ [.pps s.ppsOut] }

/-- PPS_OUT_PULSE. -/
def execPpsOutPulse (s : State) : Host.Outcome State Fault Refusal :=
  .next (if s.is F.FOC_TCFG_PPS_OUT_EN ∧ s.foc.runs then ppsPulse s else s)

/-- TIME_FLOOR_WRITE: the greatest acceptance time goes to MRAM (10 R283). -/
def floorWrite (s : State) : State := behindUpdate (setFoc s { s.foc with floor := max s.foc.floor s.foc.greatest })
def execTimeFloorWrite (s : State) : Host.Outcome State Fault Refusal := .next (floorWrite s)

/-- No ARMED action's instant has passed (10 R294). -/
def noneDue (s : State) : Bool := s.foc.table.all (fun e => match e.2 with
  | some x => decide (x.st ≠ 1) || decide (s.now < x.instant)
  | none => true)

/-- Acceptance opens once step 7 has run, Prolith time is past the floor and no focus action is due (10 R283, R294; 18 R451). -/
def openAcceptance (s : State) : State :=
  if s.get F.DEV_START_STAGE = 8 ∧ s.foc.runs ∧ s.foc.floor < s.now ∧ s.rst.level = 0 ∧ s.lc.alarms = [] ∧ !s.rst.pfail ∧ noneDue s then
    { s with rst := { s.rst with accOpen := true } }
  else s
def execTimeFloorPassed (s : State) : Host.Outcome State Fault Refusal := .next (openAcceptance s)

/-- TIME_SOURCE_WRITE: a write of FOC_TCFG by the primary PF (10 R276, R277, R280). -/
def timeSourceWrite (a : Agent) (v : Word) (s : State) : State :=
  if s.outOfReach a 0x80000 then s
  else if !(s.isPrimary a) then event s 2 evFocWriter stewardSrc
  else
    let src := if bitsOf v 30 2 = 3 then 0 else bitsOf v 30 2
    let s := (((s.poke F.FOC_TCFG_SRC src).poke F.FOC_TCFG_PTP_PORT (bitsOf v 26 4)).poke F.FOC_TCFG_PTP_SUB (bitsOf v 24 2)).poke
      F.FOC_TCFG_PTP_TRANSPORT (if bitsOf v 22 2 = 3 then 0 else bitsOf v 22 2)
    let s := (((s.poke F.FOC_TCFG_DOMAIN (bitsOf v 15 7)).poke F.FOC_TCFG_PPS_OUT_EN (bitsOf v 14 1)).poke F.FOC_TCFG_PPS_POL
      (bitsOf v 13 1)).poke F.FOC_TCFG_PRIORITY (bitsOf v 8 4)
    behindUpdate (if src = 0 then (if s.timeSource ∧ s.foc.own ≠ 0 then setOwn s 0 else s)
      else if s.foc.own = 0 then setOwn s 1
      else elect s)
def execTimeSourceWrite (a : Agent) (v : Word) (s : State) : Host.Outcome State Fault Refusal := .next (timeSourceWrite a v s)

/-! ## Actions (10 R291 to R296) -/

/-- Is action `a` before `b`: by instant, then type, then number (10 R292, R294)? -/
def actBefore (a b : Nat × FEntry) : Bool :=
  decide (a.2.instant < b.2.instant) || (decide (a.2.instant = b.2.instant) &&
    (decide (a.2.typ < b.2.typ) || (decide (a.2.typ = b.2.typ) && decide (a.1 < b.1))))

/-- The ARMED action that is to execute first. -/
def firstAction (s : State) : Option Nat :=
  (s.foc.table.foldl (fun (acc : Option (Nat × FEntry)) e => match e.2 with
    | some x => if x.st ≠ fArmed then acc else match acc with
        | some b => if actBefore (e.1, x) b then some (e.1, x) else acc
        | none => some (e.1, x)
    | none => acc) none).map Prod.fst

/-- An instant arrives: the action executes at it, when it is the first of the table and Prolith time is past the floor; `act`
gives the outcome. A refused action is recorded (10 R293). -/
def arrive (typ e : Nat) (s : State) (act : FEntry → State → Nat × State) : State :=
  match s.fentry e with
  | some x =>
    if x.st ≠ fArmed ∨ x.typ ≠ typ ∨ firstAction s ≠ some e ∨ !s.foc.runs ∨ max s.now x.instant ≤ s.foc.floor then s
    else
      let s := timeAt s x.instant
      let r := act x s
      let s := setEntry r.2 e (some { x with st := if r.1 = 3 then fRefused else fDone, outcome := r.1 })
      if r.1 = 3 then event s 3 evRefused 133 x.owner (leBytes 2 e) else s
  | none => s

/-- Is an owner served by another node, so that its keys are not on this one (13 R340)? -/
def servedElsewhere (s : State) (o : Nat) : Bool := decide (o ≠ 0) && decide (spaceOf s o = 0) && decide ((s.owner o).home ≠ s.nodeId)

/-- A KEY_ACTIVATE takes effect: loads of work accepted before the instant still see the old states (05 R137). A node that does
not serve the owner has no such key: the action is passed over there. -/
def keyAct (x : FEntry) (s : State) : Nat × State :=
  let s := noteAct s x.owner (leNat (sliceBytes x.params 0 4)) x.instant
  match entryKey s x with
  | some i => (1, activate s i x.instant)
  | none => (if servedElsewhere s x.owner then 1 else 3, s)
/-- FOCUS_KEY_ACTIVATE. -/
def execFocusKeyActivate (e : Fin 4096) (s : State) : Host.Outcome State Fault Refusal := .next (arrive 1 e s keyAct)

/-- EPOCH_SWITCH: the installed flows of the range (09 R265, R266; 10 R293). One that is withdrawn is passed over. -/
def execEpochSwitch (e : Fin 4096) (s : State) : Host.Outcome State Fault Refusal :=
  .next (arrive 2 e s (fun x s =>
    let n := fun (o k : Nat) => leNat (sliceBytes x.params o k)
    let r := s.str.flows.foldl (fun (acc : Bool × State) q => match q.2 with
      | some f =>
        if q.1 < n 0 4 ∨ n 0 4 + n 4 4 ≤ q.1 ∨ !((n 16 1).testBit (1 - f.dir)) ∨ f.withdrawn then acc
        else if f.owner ≠ x.owner then (true, acc.2)
        else
          let d := flowSwitch acc.2 q.1 (n 8 4) x.instant (n 12 4 * 1000)
          (acc.1 || !d.1, d.2)
      | none => acc) (false, s)
    (if r.1 then 2 else 1, r.2)))

/-- BATCH_CUT: acceptances take the new number (10 R296). -/
def execBatchCut (e : Fin 4096) (s : State) : Host.Outcome State Fault Refusal :=
  .next (arrive 3 e s (fun x s =>
    (1, setFoc s { s.foc with cuts := s.foc.cuts ++ [(x.instant, leNat (sliceBytes x.params 0 8), leNat (sliceBytes x.params 8 2))] })))

/-- The role a physical facet has or is draining to. -/
def roleOf (s : State) (p : Nat) : Nat :=
  if (s.facet p).nextRole = 0 then s.get F.FCT_MAP_ROLE p else (s.facet p).nextRole - 1

/-- Physical facets that carry a logical one. -/
def validFacets (s : State) : List Nat := (List.range 72).filter (fun p => s.is F.FCT_MAP_VALID p)

/-- Custody facets left when the logical facets that satisfy `hit` take a role (01 R16). -/
def custodyAfter (s : State) (hit : Nat → Bool) (role : Nat) : Nat :=
  ((validFacets s).filter (fun p => (if hit (s.get F.FCT_MAP_LOGICAL p) then role else roleOf s p) == 2)).length

/-- The logical facets that satisfy `hit` start draining to a role. -/
def setRoles (s : State) (hit : Nat → Bool) (role : Nat) : State :=
  (validFacets s).foldl (fun s p => if hit (s.get F.FCT_MAP_LOGICAL p) then startRole s p role else s) s

/-- ROLE_CHANGE. -/
def execRoleChange (e : Fin 4096) (s : State) : Host.Outcome State Fault Refusal :=
  .next (arrive 4 e s (fun x s =>
    let hit := fun (n : Nat) => (leNat (sliceBytes x.params 0 8)).testBit n
    let role := byteAt x.params 8
    if custodyAfter s hit role < 2 then (3, s) else (1, setRoles s hit role)))

def setProg (s : State) (k : Nat) (g : Option Prog) : State := { s with progs := tset none s.progs k g }

/-- A held version takes the place of the current one, which stays for commands accepted earlier. -/
def swapIn (s : State) (signer id instant : Nat) : State :=
  let s := match tget none s.progs (progKey signer id) with
    | some g => setProg s (oldPlace s signer id) (some { g with swapped := instant })
    | none => s
  setProg (setProg s (progKey signer id) (tget none s.progs (heldKey signer id))) (heldKey signer id) none

/-- PROGRAM_SWAP: a replaced version goes with the last command accepted before the instant. -/
def execProgramSwap (e : Fin 4096) (s : State) : Host.Outcome State Fault Refusal :=
  .next (arrive 5 e s (fun x s =>
    let sg := 32768 + x.owner
    let ids := swapIds x.params
    if ids.any (fun id => (tget none s.progs (heldKey sg id)).isNone) then (3, s)
    else (1, progSettle (ids.foldl (fun s id => swapIn s sg id x.instant) s))))

/-- Give an owner new budgets; a bucket above its new depth is cut to it (14 Table 14.4). -/
def cutBuckets (x : Owner) : Owner :=
  { x with cmdTok := min x.cmdTok (x.cmdDepth * tokenUnit), byteTok := min x.byteTok ((x.byteDepth * tokenUnit : Nat) : Int) }

/-- The fields a RATE_CHANGE selects. -/
def rateFields (p : Bytes) (x : Owner) : Owner :=
  let n := fun (o k : Nat) => leNat (sliceBytes p o k)
  let m := n 2 1
  cutBuckets { x with
    cmdRate := if m.testBit 0 then n 4 4 else x.cmdRate
    byteRate := if m.testBit 1 then n 8 8 else x.byteRate
    cmdDepth := if m.testBit 2 then n 16 4 else x.cmdDepth
    byteDepth := if m.testBit 3 then n 20 8 else x.byteDepth
    weight := if m.testBit 4 then n 28 1 else x.weight }

/-- Write an owner-table entry into MRAM and stream it to the holder (13 Table 13.8). -/
def writeOwner (s : State) (o : Nat) (x : Owner) : State :=
  let s := setOwner s o x
  if o = 0 then s else mirrorOut s (homeOf s o) mkOwner o (ownerEntry o x)

/-- RATE_CHANGE. -/
def execRateChange (e : Fin 4096) (s : State) : Host.Outcome State Fault Refusal :=
  .next (arrive 6 e s (fun x s =>
    let o := leNat (sliceBytes x.params 0 2)
    if (s.owner o).state = oAbsent then (3, s) else (1, writeOwner s o (rateFields x.params (s.owner o)))))

/-! ## The focus and time commands (07 R200, R201) -/

/-- Are the bytes from `a` up to `b` of a parameter block zero? -/
def zeroAt (p : Bytes) (a b : Nat) : Bool := ((p.take b).drop a).all (fun x => decide (x = 0))

/-- The parameters of a type are in range, and every other byte is 0 (10 R288). -/
def paramsOk (s : State) (o typ : Nat) (p : Bytes) : Bool :=
  let n := fun (a k : Nat) => leNat (sliceBytes p a k)
  decide (p.length = 48) && (match typ with
    | 2 => decide (n 0 4 < 1048576) && decide (1 ≤ n 4 4) && decide (n 0 4 + n 4 4 ≤ 1048576) && decide (1 ≤ n 12 4) &&
        decide (n 12 4 ≤ 10000000) && decide (1 ≤ n 16 1) && decide (n 16 1 ≤ 3) && zeroAt p 17 48
    | 3 => (decide (n 8 2 < 4096) || decide (n 8 2 = 0xFFFF)) && zeroAt p 10 48
    | 4 => decide (n 0 8 ≠ 0) && decide (n 8 1 ≤ 2) && zeroAt p 9 48
    | 5 => decide (1 ≤ n 0 1) && decide (n 0 1 ≤ 16) && zeroAt p 1 2 && zeroAt p (2 + 2 * n 0 1) 48 &&
        (swapIds p).all (fun id => (tget none s.progs (heldKey (32768 + o) id)).isSome)
    | 6 =>
      let m := n 2 1
      let f := fun (bit : Nat) (ok zero : Bool) => if m.testBit bit then ok else zero
      decide (n 0 2 < 4096) && decide (m < 32) && zeroAt p 3 4 && f 0 (decide (n 4 4 ≤ 400000000)) (zeroAt p 4 8) &&
        f 1 (decide (n 8 8 ≤ 10000000000000)) (zeroAt p 8 16) && f 2 (decide (1 ≤ n 16 4) && decide (n 16 4 ≤ 16777216)) (zeroAt p 16 20) &&
        f 3 (decide (65536 ≤ n 20 8) && decide (n 20 8 ≤ 1099511627776)) (zeroAt p 20 28) && f 4 (decide (1 ≤ n 28 1)) (zeroAt p 28 29) &&
        zeroAt p 29 48
    | _ => false)

/-- Does a batch number keep the order of the cuts of the same or wider scope (10 R296)? -/
def cutOk (s : State) (t num scope : Nat) : Bool :=
  let wide := fun (x : Nat) => decide (x = scope) || decide (x = 0xFFFF)
  let fit := fun (t' num' : Nat) => (!(decide (t' < t)) || decide (num' < num)) && (!(decide (t < t')) || decide (num < num'))
  s.foc.cuts.all (fun c => !(wide c.2.2) || fit c.1 c.2.1) &&
    s.foc.table.all (fun e => match e.2 with
      | some x => !(decide (x.typ = 3) && decide (x.st = fArmed) && wide (leNat (sliceBytes x.params 8 2))) ||
          fit x.instant (leNat (sliceBytes x.params 0 8))
      | none => true)

/-- The flows that an EPOCH_SWITCH names on this node are all the submitter's. -/
def flowsOwned (s : State) (o : Nat) (p : Bytes) : Bool :=
  s.str.flows.all (fun q => match q.2 with
    | some f => decide (q.1 < leNat (sliceBytes p 0 4)) || decide (leNat (sliceBytes p 0 4) + leNat (sliceBytes p 4 4) ≤ q.1) ||
        decide (f.owner = o)
    | none => true)

/-- FOCUS_ADD. -/
def focusAddCmd (w : Work) (s : State) : State :=
  command 0x0B01 w s (fun s =>
    let typ := w.f 48 1
    let go := fun (body : Bytes) (_m : Bytes) (s : State) =>
      let t := w.f 52 6 * secNs + w.f 58 4
      withChecks s w [
        (decide (2 ≤ typ) && decide (typ ≤ 6), sDenied),
        (decide (typ = 2) || decide (typ = 5) || decide (w.o = 0), sDenied),
        (decide (typ ≠ 2) || flowsOwned s w.o body, sDenied),
        (w.unused 0 && w.z 49 52 && w.z 62 64 && decide (w.f 58 4 < secNs) && w.fits 4 && paramsOk s w.o typ body, sMalformed),
        (decide (s.now + 2 * mtNs ≤ t), sDenied),
        (decide (typ ≠ 3) || cutOk s t (leNat (sliceBytes body 0 8)) (leNat (sliceBytes body 8 2)), sDenied)] (fun s =>
        match focusAdd (releaseFacet s w) ⟨typ, fAdding, w.o, t, s.nodeId, 0, body, w.t, []⟩ with
        | some s => s
        | none => endWith s w sQuota)
    if typ = 5 then withQuorum s w 0x0B01 7 w.o go else go w.input [] s)
def execFocusAdd (w : Work) (s : State) : Host.Outcome State Fault Refusal := .next (focusAddCmd w s)

/-- FOCUS_CANCEL. -/
def focusCancelCmd (w : Work) (s : State) : State :=
  command 0x0B02 w s (fun s =>
    let e := w.f 48 2
    withChecks s w [(w.unused 0 && decide (e < 4096) && w.z 50 64 && decide (w.len = 0) && w.fits 0, sMalformed)] (fun s =>
      match s.fentry e with
      | some x =>
        if x.st ≠ fArmed ∨ x.typ = 1 ∨ !(decide (w.o = 0) || decide (x.owner = w.o)) ∨ x.instant < s.now + 2 * mtNs then
          endWith s w sDenied
        else
          let s := entryRemove s e
          if s.alone then endChange s w sOk
          else releaseFacet (setFoc s { s.foc with removing := s.foc.removing ++ [(e, w.o, w.t, s.members.erase s.nodeId)] }) w
      | none => endWith s w sDenied))
def execFocusCancel (w : Work) (s : State) : Host.Outcome State Fault Refusal := .next (focusCancelCmd w s)

/-- TIME_READ: the source, the discipline state and the last offset. -/
def execTimeRead (w : Work) (s : State) : Host.Outcome State Fault Refusal :=
  .next (command 0x0B03 w s (fun s =>
    withChecks s w [(w.unused 0 && w.z 48 64 && decide (w.len = 0) && w.fits 16, sMalformed)] (fun s =>
      endWith s w sOk (leBytes 6 s.nowSec ++ leBytes 4 s.nowNs ++ leBytes 1 (s.get F.FOC_TCFG_SRC) ++
        leBytes 1 (s.get F.FOC_TSTAT_STATE) ++ leBytes 4 (s.get F.FOC_OFFSET)))))

/-- FOCUS_READ: owner 0 reads any entry, a FREE one as zeros. -/
def execFocusRead (w : Work) (s : State) : Host.Outcome State Fault Refusal :=
  .next (command 0x0B04 w s (fun s =>
    withChecks s w [(w.unused 0 && decide (w.f 48 2 < 4096) && w.z 50 64 && decide (w.len = 0) && w.fits 64, sMalformed)] (fun s =>
      match s.fentry (w.f 48 2) with
      | some x => if w.o = 0 ∨ x.owner = w.o then endWith s w sOk (entryBytes x) else endWith s w sDenied
      | none => if w.o = 0 then endWith s w sOk (List.replicate 64 0) else endWith s w sDenied)))

end Sys2Proof.Machine
end

