-- ==== Sys2Proof/Machine/Huxel.lean ====
section
/-! DEFINITION. Machine/Huxel.lean: the eight Huxel arrays: parked operations, units and their times, the deficit arbiter, invariant
failures and offline arrays (11). -/

namespace Sys2Proof.Machine

open Sys2Proof

/-- Events of 11: a write that is refused, an operation that found no result, a seed spent, a failed invariant, an array offline
after failures, an array offline on request. -/
def evHxLimit : Nat := 0x0901
def evHxSeed : Nat := 0x0902
def evHxInv : Nat := 0x0903
def evHxOff : Nat := 0x0904
def evHxWriter : Nat := 0x0905
def evHxReq : Nat := 0x1403



/-! ## Units (11 R301 to R304) -/

/-- The time of a unit in the standard clock mode, in nanoseconds (11 Table 11.3). -/
def unitNs (kind alg len : Nat) (final : Bool) : Nat :=
  let m := len % 65536
  let cube := fun (us : Nat) => us * 1000 * m ^ 3 / 2048 ^ 3
  let pick := fun (base a b c : Nat) => if alg = base then a else if alg = base + 1 then b else c
  if isRsa alg then
    match kind with
    | 0 => cube 60
    | 1 => 240 * (len / 65536) * m ^ 2 / 2048 ^ 2
    | _ => if final then cube 50 else cube 10
  else if isNist alg then
    match kind with
    | 0 => pick 0x21 15000 40000 95000
    | 1 => pick 0x21 26000 70000 165000
    | 2 => pick 0x21 12000 33000 80000
    | _ => pick 0x21 13000 35000 85000
  else if isXdh alg then (if alg = 0x24 then 9000 else 30000)
  else if isEd alg then
    match kind with
    | 0 => (if alg = 0x25 then 10000 else 34000) + 500 * ceilDiv len 1024
    | 1 => if alg = 0x25 then 20000 else 66000
    | _ => if alg = 0x25 then 8000 else 28000
  else if isKem alg then
    match kind with
    | 4 => pick 0x30 5000 7000 10000
    | 3 => pick 0x30 6000 8000 12000
    | _ => pick 0x30 4000 6000 9000
  else
    match kind with
    | 0 => if final then pick 0x38 10000 15000 22000 else pick 0x38 6500 8800 12500
    | 1 => pick 0x38 10000 15000 22000
    | _ => pick 0x38 12000 18000 26000

/-- The family a unit counts under (21 Table 21.9 HX_ACNT). -/
def hxFamily (kind alg : Nat) : Nat :=
  if isRsa alg then (if kind = 0 then 0 else if kind = 1 then 1 else 2)
  else if isNist alg then (if kind ≤ 1 then 3 else 4)
  else if isXdh alg || isEd alg then 5
  else if isKem alg then 6 else 7

/-- Does a unit draw entropy (11 R304)? -/
def hxDraws (x : HxOp) : Bool :=
  let det := (x.w.f 53 1).testBit 0
  match hxKind x.opcode with
  | 0 => !(isDsa x.alg && (det || x.final))
  | 1 => false
  | 2 => true
  | 3 => false
  | _ => true

/-- The entropy requests of a unit that draws; a signature alone has a deterministic bit (11 R304). -/
def unitRequests (x : HxOp) : Nat :=
  1 + Config.unitDraws (hxKind x.opcode) x.alg x.len (decide (hxKind x.opcode = 0) && (x.w.f 53 1).testBit 0) % 256

/-- Does a unit need the private key of handle A (07 R193)? -/
def hxSecret (x : HxOp) : Bool := decide (hxKind x.opcode = 0) || decide (hxKind x.opcode = 2) || decide (hxKind x.opcode = 3)

/-- Is `y` the operation `x`: of one command, and where it judges a quorum the same signature? -/
def HxOp.same (x y : HxOp) : Bool :=
  decide (y.owner = x.owner) && decide (y.tag = x.tag) && decide (y.judge.map (fun j => j.slot) = x.judge.map (fun j => j.slot))

/-- Change an operation. -/
def modOp (s : State) (x : HxOp) (f : HxOp → HxOp) : State :=
  setHx s { s.hx with ops := s.hx.ops.map (fun y => if x.same y then f y else y) }

/-- An operation runs no further: its command resumes with a status, once all its operations have ended. -/
def hxResult (s : State) (x : HxOp) (st : Nat) : State :=
  let s := modOp s x (fun y => { y with result := some st, array := 0 })
  if s.hx.ops.any (fun y => decide (y.owner = x.owner) && decide (y.tag = x.tag) && y.result.isNone) then s
  else { s with jr := { s.jr with resume := s.jr.resume ++ [(x.owner, x.tag)] } }

/-- Operations that wait for an array. -/
def HxOp.waits (x : HxOp) : Bool := decide (x.array = 0) && x.result.isNone

/-! ## The deficit arbiter (11 R309) -/

/-- The time of an operation's next unit, in the clock mode in force. -/
def opNs (s : State) (x : HxOp) : Nat :=
  let t := unitNs (hxKind x.opcode) x.alg x.len x.final
  if s.get F.CLK_STATUS_MODE = 2 then t * 4 / 3 else t

/-- Is an owner eligible: it has a waiting unit and runs fewer units than its cap? -/
def hxEligible (s : State) (o : Nat) : Bool :=
  s.hx.ops.any (fun x => x.waits && decide (x.owner = o)) &&
    decide ((s.hx.ops.filter (fun x => decide (x.array ≠ 0) && decide (x.owner = o))).length < (s.owner o).hxCap)

/-- The arbiter's choice: the operation whose unit is dispatched, and the state with the pointer and the deficits moved on. -/
def hxArbiter (fuel : Nat) (s : State) : Option HxOp × State :=
  match fuel with
  | 0 => (none, s)
  | n + 1 =>
    let o := s.hx.ptr
    let next := fun (s : State) =>
      let l := (s.own.map Prod.fst).filter (hxEligible s)
      match nextCyc l (o + 1) with
      | some q => some (setHx s { s.hx with ptr := q, grown := false })
      | none => none
    if !(hxEligible s o) then
      match next s with
      | some s => hxArbiter n s
      | none => (none, s)
    else
      let s := if s.hx.grown then s
        else setHx (modOwner s o (fun x => { x with hxDeficit := x.hxDeficit + ((x.weight * s.get F.HX_CFG_QUANTUM * 1000 : Nat) : Int) }))
          { s.hx with grown := true }
      match s.hx.ops.find? (fun x => x.waits && decide (x.owner = o)) with
      | none => (none, s)
      | some x =>
        let t := ((opNs s x : Nat) : Int)
        if t ≤ (s.owner o).hxDeficit then (some x, modOwner s o (fun y => { y with hxDeficit := y.hxDeficit - t }))
        else match next s with
          | some s => hxArbiter n s
          | none => (none, s)

/-- Owners without a waiting unit have deficit 0. -/
def hxClear (s : State) : State :=
  { s with own := tmap Owner.absent (fun o x =>
      if s.hx.ops.any (fun y => y.waits && decide (y.owner = o)) then x else { x with hxDeficit := 0 }) s.own }

/-- After a dispatch: deficits without a waiting unit return to 0, and a pointer whose owner is no longer eligible moves on. -/
def hxSettle (s : State) : State :=
  let s := hxClear s
  if hxEligible s s.hx.ptr then s
  else match nextCyc ((s.own.map Prod.fst).filter (hxEligible s)) (s.hx.ptr + 1) with
    | some q => setHx s { s.hx with ptr := q, grown := false }
    | none => s

/-- Deliver the secret operand: the checks of 02 Table 02.5 at every delivery, and the one use of the command at the first (11 R297, R302); a later
delivery takes no use, so a key the first exhausted is still delivered. None where the load waits for a use. -/
def hxDeliver (s : State) (x : HxOp) : Option (Nat × State) :=
  let h := x.w.a.toNat
  if !(hxSecret x) then some (sOk, s)
  else
    let s := pipeIn s (kidx s x.owner h)
    let c := keyCheck s x.owner false x.w.acc h (if hxKind x.opcode = 0 then 8 else 12)
    if x.used then some (if c.1 = sKeyExhausted then sOk else c.1, s)
    else if c.1 ≠ sOk then some (c.1, s)
    else match consume s (.cmd x.owner x.tag) (kidx s x.owner h) with
      | some (s : State) => some (sOk, modOp s x (fun y => { y with used := true }))
      | none => none

/-- Words of an operation's slot that are marked uncorrectable (04 Table 04.15). -/
def slotWord (x : HxOp) (a : Nat) : Bool := decide (0x3C0000000 + x.slot * 0x4000 ≤ a) && decide (a < 0x3C0000000 + (x.slot + 1) * 0x4000)

/-- The access of an array to an operand slot, the one bound to it, at unit 6 (15 R392). -/
def slotAccess (s : State) (a slot : Nat) (write : Bool) : Bool × State :=
  let t := { s with apt := { s.apt with slots := tset 0 s.apt.slots (0x090 + a) (slot + 1) } }
  let c := aptCheck t 6 (0x3C0000000 + slot * 0x4000) 0x4000 (0x090 + a) true write
  if c.1 then (true, s) else (false, { c.2 with apt := { c.2.apt with slots := tset 0 c.2.apt.slots (0x090 + a) 0 } })

/-- The arbiter's chosen unit does not start: its time goes back to its owner's deficit (11 R309). -/
def unitWithheld (s : State) (x : HxOp) : State :=
  hxSettle (modOwner s x.owner (fun y => { y with hxDeficit := y.hxDeficit + ((opNs s x : Nat) : Int) }))

/-- HUXEL_UNIT_DISPATCH: a free array takes the next unit; where the aperture unit refuses its slot the unit is withheld and the
command is denied (15 Table 15.8). -/
def unitDispatch (a : Nat) (s : State) : State :=
  if s.is F.HX_ASTAT_BUSY a ∨ s.is F.HX_ASTAT_OFFLINE a ∨ s.hx.zeroing.contains a ∨ !(s.domainOn (72 + a)) then s
  else
    match hxArbiter (1400 * (s.own.length + 1)) (hxClear s) with
    | (none, s) => s
    | (some x, s) =>
      if s.marked.any (slotWord x) then
        unitWithheld (hxResult { s with marked := s.marked.filter (fun m => !(slotWord x m)) } x sInternal) x
      else if hxDraws x ∧ s.rngStopped then unitWithheld (hxResult s x sEntropy) x
      else match hxDeliver s x with
        | none => unitWithheld (loadWait s (.cmd x.owner x.tag) (kidx s x.owner x.w.a.toNat)) x
        | some (st, (s : State)) =>
          if st ≠ sOk then unitWithheld (hxResult s x st) x
          else
            let c := slotAccess s a x.slot false
            if !c.1 then unitWithheld (hxResult c.2 x sDenied) x
            else
            let c := (c.1, if hxDraws x then c.2.poke F.HX_AENT (c.2.get F.HX_AENT a + unitRequests x) a else c.2)
            let s := modOp c.2 x (fun y => { y with array := a + 1 })
            let s := { s with apt := { s.apt with slots := tset 0 s.apt.slots (0x090 + a) (x.slot + 1) } }
            hxSettle (((s.poke F.HX_ASTAT_BUSY 1 a).poke F.HX_ASTAT_OWNER x.owner a).poke F.HX_ASTAT_ALG x.alg a)
def execHuxelUnitDispatch (a : Fin 8) (s : State) : Host.Outcome State Fault Refusal := .next (unitDispatch a.val s)

/-! ## What a unit computes -/

/-- The clear body of the record of handle A. -/
def opBody (s : State) (x : HxOp) : Body := (tget none s.ks.bodies (kidx s x.owner x.w.a.toNat)).getD ⟨[], []⟩

/-- The inline bytes 48 to 53 of a signature. -/
def sigInl (w : Work) : Bytes := sliceBytes w.inl 0 6

/-- The RSA modulus length of public components, and the bits of the exponent above it. -/
def rsaLen (pub : Bytes) : Nat :=
  let nl := pub.length - 4
  nl * 8 + 65536 * bitLen 33 (beNat (pub.drop nl))

/-- The results of an operation's last unit on what its slot holds, and the state with the free values drawn. -/
def hxCompute (s : State) (x : HxOp) : Bytes × Bytes × State :=
  let w := x.w
  let b := opBody s x
  let i := slotInput s x
  let ctx := i.take (w.f 52 1)
  let m := i.drop (w.f 52 1)
  match hxKind x.opcode with
  | 0 =>
    let r := s.free
    let rnd := if (w.f 53 1).testBit 0 then 0 else r.1
    (fitBytes (signLen x.alg (x.len % 65536)) (Config.pkSign x.alg b.priv (sigInl w) ctx m rnd), [], r.2)
  | 1 =>
    let n := if w.a = 0 then w.f 60 2 else 0
    let pub := if w.a = 0 then m.take n else b.pub
    let sig := (m.drop n).take (w.f 56 4)
    ([BitVec.ofNat 8 (b2n (Config.pkVerify x.alg pub (sigInl w) ctx sig (m.drop (n + w.f 56 4))))], [], s)
  | 2 => (Config.pkAgree x.alg b.priv i, [], s)
  | 3 => (Config.kemDecap x.alg b.priv i, [], s)
  | 4 =>
    let r := s.free
    let k := Config.kemEncap x.alg i r.1
    (k.1, fitBytes (kemCtLen x.alg) k.2, r.2)
  | _ =>
    let r := s.free
    let k := Config.pkKeygen x.alg (w.f 48 2) (w.f 50 4) r.1
    (fitBytes (privLen x.alg (w.f 48 2)) k.1, fitBytes (pubLen x.alg (w.f 48 2)) k.2, r.2)

/-- The public part of an operation's results, which its array writes into the slot (11 R298, R299). -/
def hxPublic (x : HxOp) (r : Bytes × Bytes × State) : Bytes := match hxKind x.opcode with
  | 0 => r.1
  | 1 => r.1
  | 4 => r.2.1
  | 5 => r.2.1
  | _ => []

/-! ## Unit ends (11 R302, R303, R305, R306) -/

/-- An array goes offline; when it was the last, every waiting operation ends with S_INTERNAL (11 R306). -/
def arrayOffline (s : State) (a : Nat) : State :=
  let s := setDomain (s.put F.HX_ASTAT_OFFLINE 1 a) (72 + a) false
  let s := s.poke F.DEV_WEAR_HX_OFFLINE ((List.range 8).filter (fun n => s.is F.HX_ASTAT_OFFLINE n)).length
  if arraysOnline s then s else (s.hx.ops.filter (fun x => x.waits)).foldl (fun s x => hxResult s x sInternal) s

/-- A failed invariant (11 R305, R306). -/
def invariantFails (s : State) (a : Nat) (x : HxOp) : State :=
  let s := event s 5 evHxInv (72 + a) x.owner (leBytes 1 a ++ leBytes 2 x.owner ++ leBytes 1 x.alg)
  let s := ((mismatch s).incSat F.HX_AINV_COUNT a).raise F.HX_ASTAT_INV_SEEN a
  let l := ((tget [] s.hx.fails a).filter (fun t => decide (s.mtick < t + 1600))) ++ [s.mtick]
  let s := setHx s { s.hx with fails := tset [] s.hx.fails a l }
  let s := hxResult s x sInvariant
  if 4 ≤ l.length ∧ !(s.is F.HX_ASTAT_OFFLINE a) then event (arrayOffline s a) 4 evHxOff (72 + a) 0xFFFF (leBytes 1 a) else s

/-- The operation goes back to the queue, behind its owner's other waiting units; with no array online it runs no further. -/
def requeue (s : State) (x : HxOp) (final : Bool) : State :=
  if !(arraysOnline s) then hxResult s x sInternal
  else setHx s { s.hx with ops := s.hx.ops.filter (fun y => !(x.same y)) ++
    [{ x with array := 0, units := x.units + 1, final := final }] }

/-- Does an operation take several units: ML-DSA attempts, RSA prime candidates? -/
def HxOp.multi (x : HxOp) : Bool := (decide (hxKind x.opcode = 0) && isDsa x.alg) || (decide (hxKind x.opcode = 5) && isRsa x.alg)

/-- The array's write of a public result to the slot of operation `x`, where its unit has one (11 R298, R299). -/
def unitWrite (s : State) (a : Nat) (x : HxOp) : Bool × State :=
  let k := hxKind x.opcode
  if k = 2 ∨ k = 3 ∨ x.squash ∨ (x.multi ∧ !x.final) then (true, s) else slotAccess s a x.slot true

/-- What follows a released unit: the result, another attempt or candidate, or the limit of R302. -/
def unitReleased (s : State) (a : Nat) (x : HxOp) (passed : Bool) : State :=
  if x.squash then hxResult s x sSquashed
  else if x.multi && !x.final then
    let limit := if hxKind x.opcode = 0 then 1000 else 20000
    if passed then requeue s x true
    else if limit ≤ x.units + 1 then hxResult (event s 3 evHxLimit (72 + a) x.owner (leBytes 1 x.alg)) x sInternal
    else requeue s x false
  else
    let r := hxCompute s x
    hxResult (modOp (slotPut r.2.2 x.slot (hxPublic x r)) x (fun y => { y with out := r.1, out2 := r.2.1, units := y.units + 1 })) x sOk

/-- The unit of operation `x` on array `a` has ended: it is counted, its result's outcome stands in HX_ALAST, and the array is
free of it and zeroes itself (11 R297; 21 Table 21.9). -/
def unitCounted (s : State) (a : Nat) (x : HxOp) (released : Bool) : State :=
  let r := s.free
  let cyc := unitNs (hxKind x.opcode) x.alg x.len x.final * 4 / 5
  let s := ((r.2.add64 F.HX_AUNITS_LO 1 a).add64 F.HX_ABUSY_LO cyc a).incWrap F.HX_ACNT a (hxFamily (hxKind x.opcode) x.alg)
  let s := s.poke F.HX_ADMA (s.get F.HX_ADMA a + r.1 % 512) a
  let s := ((s.poke F.HX_ALAST_OUTCOME (if released then 1 else 2) a).poke F.HX_ALAST_OWNER x.owner a).poke F.HX_ALAST_ALG x.alg a
  let s := ((s.poke F.HX_ASTAT_BUSY 0 a).poke F.HX_ASTAT_OWNER 0 a).poke F.HX_ASTAT_ALG 0 a
  { s with
    apt := { s.apt with slots := tset 0 s.apt.slots (0x090 + a) 0 }
    hx := { s.hx with zeroing := sput s.hx.zeroing a } }

/-- An array with OFFLINE_REQ set goes offline between units; the bit stays set until an S-reset (00 R4, 21 R504). -/
def offlineDue (s : State) (a : Nat) : State :=
  if s.is F.HX_ACTRL_OFFLINE_REQ a ∧ !(s.is F.HX_ASTAT_OFFLINE a) then event (arrayOffline s a) 2 evHxReq (72 + a) 0xFFFF (leBytes 1 a)
  else s

/-- HUXEL_UNIT_END: `passed` is the outcome of an attempt or the end of the prime search. -/
def unitEnd (a : Nat) (invOk seedOk passed : Bool) (s : State) : State :=
  match s.hx.ops.find? (fun x => decide (x.array = a + 1)) with
  | none => s
  | some x =>
    let c := if invOk && seedOk then unitWrite s a x else (true, s)
    let s := unitCounted c.2 a x (invOk && seedOk && c.1)
    let s := offlineDue s a
    if !invOk then invariantFails s a x
    else if !seedOk then
      hxResult (event (s.incWrap F.HX_ASAMP a) 3 evHxSeed (72 + a) x.owner (leBytes 1 x.alg)) x sInternal
    else if !c.1 then hxResult s x sDenied
    else unitReleased s a x passed
def execHuxelUnitEnd (a : Fin 8) (invariantOk seedOk passed : Bool) (s : State) : Host.Outcome State Fault Refusal :=
  .next (unitEnd a.val invariantOk seedOk passed s)

/-- HUXEL_ZEROING_END: 64 fabric cycles after a unit (11 R297). -/
def execHuxelZeroingEnd (a : Fin 8) (s : State) : Host.Outcome State Fault Refusal :=
  .next (setHx s { s.hx with zeroing := sdel s.hx.zeroing a.val })

/-- HX_OFFLINE_REQ sets the request; an idle array goes offline at once, a busy one after its unit (21 R504). -/
def offlineReq (a : Agent) (n : Nat) (s : State) : State :=
  if s.outOfReach a 0x60000 then s
  else if !(s.isPrimary a) then event s 2 evHxWriter stewardSrc
  else
    let s := s.poke F.HX_ACTRL_OFFLINE_REQ 1 n
    if s.is F.HX_ASTAT_BUSY n then s else offlineDue s n
def execHxOfflineReq (a : Agent) (n : Fin 8) (s : State) : Host.Outcome State Fault Refusal := .next (offlineReq a n.val s)

/-- An operation is gone: its slot is zeroed and free (11 R299). -/
def opDone (s : State) (x : HxOp) : State :=
  let s := { s with gmem := memZero s.gmem (slotAddr x.slot) 0x4000 }
  showParked (setHx s { s.hx with ops := s.hx.ops.filter (fun y => !(x.same y)) })

/-- A C-reset stops every array; the operations are discarded with their results (11 R311). -/
def hxCReset (s : State) : State :=
  let s := (List.range 8).foldl (fun s a =>
    if s.hx.ops.any (fun x => decide (x.array = a + 1)) then
      (s.incWrap F.HX_AABORT a).poke F.HX_ALAST_OUTCOME 3 a else s) s
  showParked { setHx s { s.hx with ops := [], zeroing := [], verdicts := [] } with jr := { s.jr with resume := [] } }

end Sys2Proof.Machine
end

