-- ==== Sys2Proof/Machine/KeyBlock.lean ====
section
/-! DEFINITION. Machine/KeyBlock.lean: ANSI X9.143 key blocks as 05 R130 to R133 take and write them. The block's own layout is
the standard's; log entry 7. -/

namespace Sys2Proof.Machine

open Sys2Proof

/-! ## Hexadecimal and decimal text -/

def hexVal (c : Byte) : Option Nat :=
  let n := c.toNat
  if 48 ≤ n ∧ n ≤ 57 then some (n - 48) else if 65 ≤ n ∧ n ≤ 70 then some (n - 55) else none

/-- The number that hexadecimal digits write, and the bytes that an even number of them write. -/
def hexNat (l : Bytes) : Option Nat :=
  l.foldl (fun acc c => acc.bind (fun a => (hexVal c).map (fun v => a * 16 + v))) (some 0)
def hexBytes (l : Bytes) : Option Bytes :=
  if l.length % 2 = 0 then (hexNat l).map (fun v => beBytes (l.length / 2) v) else none
def decNat (l : Bytes) : Option Nat :=
  l.foldl (fun acc c => acc.bind (fun a => if 48 ≤ c.toNat ∧ c.toNat ≤ 57 then some (a * 10 + (c.toNat - 48)) else none)) (some 0)

def hexDigit (n : Nat) : Byte := BitVec.ofNat 8 (if n % 16 < 10 then 48 + n % 16 else 55 + n % 16)
def toHex (l : Bytes) : Bytes := l.flatMap (fun b => [hexDigit (b.toNat / 16), hexDigit b.toNat])
def toDec (n v : Nat) : Bytes := (List.range n).reverse.map (fun k => BitVec.ofNat 8 (48 + v / 10 ^ k % 10))

/-! ## Reading a block (05 Table 05.10 checks 1 and 2) -/

/-- A key block: version ID, key usage, algorithm letter, mode of use, key version number, exportability, optional blocks,
the text the authenticator covers, the enciphered key data and the authenticator. -/
structure KBlock where
  ver : Nat
  usage : Bytes
  letter : Nat
  mode : Nat
  kver : Bytes
  exp : Nat
  opts : List (Bytes × Bytes)
  head : Bytes
  data : Bytes
  mac : Bytes

/-- Block and authenticator lengths of a version: D takes AES, B and C take TDES. -/
def kbUnit (ver : Nat) : Nat := if ver = 0x44 then 16 else 8
def kbMacLen (ver : Nat) : Nat := if ver = 0x44 then 16 else if ver = 0x42 then 8 else 4
def kbKnown (ver : Nat) : Bool := decide (ver = 0x44) || decide (ver = 0x42) || decide (ver = 0x43)

/-- `n` optional blocks and what follows them. -/
def kbOpts (n : Nat) (b : Bytes) : Option (List (Bytes × Bytes) × Bytes) :=
  match n with
  | 0 => some ([], b)
  | k + 1 =>
    match hexNat (sliceBytes b 2 2) with
    | none => none
    | some short =>
      let ll := if short = 0 then (hexNat (sliceBytes b 4 2)).getD 0 else 0
      let size := if short = 0 then (hexNat (sliceBytes b 6 ll)).getD 0 else short
      let hd := if short = 0 then 6 + ll else 4
      if size < hd ∨ b.length < size ∨ (short = 0 ∧ ll = 0) then none
      else (kbOpts k (b.drop size)).map (fun r => ((b.take 2, (b.take size).drop hd) :: r.1, r.2))

/-- The block that ASCII text holds; none where check 1 fails. -/
def keyBlock (b : Bytes) : Option KBlock :=
  let ver := byteAt b 0
  match decNat (sliceBytes b 1 4), decNat (sliceBytes b 12 2) with
  | some n, some cnt =>
    if b.length < 16 ∨ n ≠ b.length ∨ (b.take 16).any (fun c => c.toNat < 0x20 || 0x7E < c.toNat) then none
    else match kbOpts cnt (b.drop 16) with
      | none => none
      | some (opts, rest) =>
        let head := b.take (b.length - rest.length)
        let x : KBlock := ⟨ver, sliceBytes b 5 2, byteAt b 7, byteAt b 8, sliceBytes b 9 2, byteAt b 11, opts, head, [], []⟩
        if !(kbKnown ver) then some x
        else
          let ml := kbMacLen ver * 2
          let body := rest.take (rest.length - ml)
          match hexBytes body, hexBytes (rest.drop (rest.length - ml)) with
          | some d, some m =>
            if rest.length < ml + 2 * kbUnit ver ∨ d.length % kbUnit ver ≠ 0 ∨ head.length % kbUnit ver ≠ 0 then none
            else some { x with data := d, mac := m }
          | _, _ => none
  | _, _ => none

/-- The usages of 05 Table 05.9. -/
def kbUsages : List Bytes :=
  ["B0", "B1", "E0", "E1", "E2", "E5", "E6", "C0", "V0", "V1", "V2", "D0", "K0", "K1", "M0", "M1", "M3", "M6", "M7", "P0"].map ascii

/-- Items that R130 does not support. -/
def kbUnsupported (x : KBlock) : Bool :=
  !(kbKnown x.ver) || !([0x41, 0x54, 0x48].contains x.letter) || !(kbUsages.contains x.usage) || decide (byteAt x.kver 0 = 0x63)

/-- Do a usage, a mode and an algorithm letter permit a use code (05 Table 05.9)? -/
def kbPermits (usage : Bytes) (mode letter use : Nat) : Bool :=
  let isIn := fun (l : List String) => (l.map ascii).contains usage
  let m := fun (t : String) => (ascii t).contains (BitVec.ofNat 8 mode)
  let ta := decide (letter = 0x54) || decide (letter = 0x41)
  let mac := fun (_ : Unit) => (decide (use = 6) && m "CG") || (decide (use = 7) && m "CV")
  if isIn ["B0", "B1", "E0", "E1", "E2", "E5", "E6"] then ta && m "X" && decide (use = 5)
  else if isIn ["C0", "V0", "V1", "V2"] then ta && m "CGVN" && decide (use = 13)
  else if isIn ["D0"] then ta && ((decide (use = 1) && m "EBN") || (decide (use = 2) && m "DBN"))
  else if isIn ["K0", "K1"] then ta && ((decide (use = 3) && m "EBN") || (decide (use = 4) && m "DBN"))
  else if isIn ["M0", "M1", "M3"] then decide (letter = 0x54) && mac ()
  else if isIn ["M6"] then decide (letter = 0x41) && mac ()
  else if isIn ["M7"] then decide (letter = 0x48) && mac ()
  else if isIn ["P0"] then ta && ((decide (use = 10) && m "EB") || (decide (use = 11) && m "DB"))
  else false

/-! ## Protection -/

def isAesAlg (a : Nat) : Bool := decide (1 ≤ a) && decide (a ≤ 3)
def isTdesAlg (a : Nat) : Bool := decide (a = 4) || decide (a = 5)

/-- Does a KBPK's algorithm fit a version ID? -/
def kbpkFits (ver alg : Nat) : Bool := if ver = 0x44 then isAesAlg alg else isTdesAlg alg

/-- A derived key of versions B and D: usage 0 encipherment, 1 authentication. -/
def kbDerive (alg : Nat) (key : Bytes) (usage : Nat) : Bytes :=
  let code := match alg with
    | 4 => 0
    | 5 => 1
    | _ => alg + 1
  let n := algKeyLen alg
  ((List.range (ceilDiv n (algBlock alg))).flatMap (fun i =>
    cmac alg key (beBytes 1 (i + 1) ++ beBytes 2 usage ++ [0] ++ beBytes 2 code ++ beBytes 2 (n * 8)))).take n

/-- The keys of a version: encipherment and authentication. Version C takes variants. -/
def kbKeys (ver alg : Nat) (key : Bytes) : Bytes × Bytes :=
  if ver = 0x43 then (key.map (fun b => b ^^^ 0x45), key.map (fun b => b ^^^ 0x4D))
  else (kbDerive alg key 0, kbDerive alg key 1)

/-- The clear key data of a block whose authenticator verifies. -/
def kbOpen (x : KBlock) (alg : Nat) (key : Bytes) : Option Bytes :=
  let k := kbKeys x.ver alg key
  if x.ver = 0x43 then
    if (cbcMac alg k.2 (x.head ++ x.data)).take 4 = x.mac then some (cbcDec alg k.1 (x.head.take 8) x.data) else none
  else
    let p := cbcDec alg k.1 x.mac x.data
    if cmac alg k.2 (x.head ++ p) = x.mac then some p else none

/-- The key that clear key data carries: a length in bits and the key. -/
def kbKey (p : Bytes) : Option Bytes :=
  let bits := beNat (p.take 2)
  if bits % 8 = 0 ∧ 2 + bits / 8 ≤ p.length then some ((p.drop 2).take (bits / 8)) else none

/-- The algorithm that a letter and a key length give. -/
def kbAlg (letter len : Nat) : Nat :=
  if letter = 0x41 then (if len = 16 then 1 else if len = 24 then 2 else if len = 32 then 3 else 0)
  else if letter = 0x54 then (if len = 16 then 4 else if len = 24 then 5 else 0)
  else if letter = 0x48 ∧ 1 ≤ len ∧ len ≤ 32 then 7 else 0

/-- Security strength in bits (05 Table 05.10 check 5). -/
def strength (alg len : Nat) : Nat :=
  if alg = 4 then 80 else if alg = 5 then 112 else if alg = 7 then min (8 * len) 256 else 8 * len

/-- The text of a KP block: method and KCV. -/
def kpText (method : Nat) (kcv : Bytes) : Bytes := toHex ([BitVec.ofNat 8 method] ++ kcv)

/-! ## Writing a block (05 R133) -/

/-- Usage and mode that export writes for a use code, and the algorithm letter. -/
def kbExportUse (use alg : Nat) : String × String :=
  match use with
  | 5 => ("B0", "X")
  | 13 => ("C0", "C")
  | 1 => ("D0", "E")
  | 2 => ("D0", "D")
  | 3 => ("K0", "E")
  | 4 => ("K0", "D")
  | 10 => ("P0", "E")
  | 11 => ("P0", "D")
  | u => (if alg = 7 then "M7" else if isAesAlg alg then "M6" else "M3", if u = 6 then "G" else "V")
def kbLetter (alg : Nat) : String := if alg = 7 then "H" else if isAesAlg alg then "A" else "T"

/-- Length of the PB block: the least of 4 or more that makes the optional blocks whole. -/
def pbLen (unit kp : Nat) : Nat := 4 + (unit - (kp + 4) % unit) % unit

/-- Characters of the whole block for a subject. -/
def kbLen (ver : Nat) (r : KeyRec) : Nat :=
  let u := kbUnit ver
  let kp := 4 + 2 * (1 + r.kcv.length)
  16 + kp + pbLen u kp + 2 * (ceilDiv (2 + r.klen) u * u) + 2 * kbMacLen ver

/-- Version D under an AES KBPK, version B under a TDES KBPK. -/
def kbVersion (alg : Nat) : Nat := if isAesAlg alg then 0x44 else 0x42

/-- The key block of a subject under a KBPK; `pad` pads the key data. -/
def kbBuild (r : KeyRec) (alg : Nat) (key : Bytes) (exportable : Bool) (pad : Bytes) : Bytes :=
  let ver := kbVersion alg
  let u := kbUnit ver
  let kp := ascii "KP" ++ toHex [BitVec.ofNat 8 (4 + 2 * (1 + r.kcv.length))] ++ kpText r.kcvMethod r.kcv
  let pb := pbLen u kp.length
  let um := kbExportUse r.use r.alg
  let head := [BitVec.ofNat 8 ver] ++ toDec 4 (kbLen ver r) ++ ascii um.1 ++ ascii (kbLetter r.alg) ++ ascii um.2 ++ ascii "00" ++
    ascii (if exportable then "E" else "N") ++ ascii "0200" ++ kp ++ ascii "PB" ++ toHex [BitVec.ofNat 8 pb] ++ List.replicate (pb - 4) 0x30
  let p := fitBytes (ceilDiv (2 + r.klen) u * u) (beBytes 2 (r.klen * 8) ++ r.material ++ pad)
  let k := kbKeys ver alg key
  let mac := cmac alg k.2 (head ++ p)
  head ++ toHex (cbcEnc alg k.1 mac p) ++ toHex mac

end Sys2Proof.Machine
end

