-- ==== Sys2Proof/Machine/Custody.lean ====
section
/-! DEFINITION. Machine/Custody.lean: the custody commands (05 R112 to R141, 07 R185), but for the erases. -/

namespace Sys2Proof.Machine

open Sys2Proof

/-! ## Creating keys (05 R123 to R125) -/

/-- KEY_GENERATE: the inline bytes. -/
def generateInl (w : Work) (alg : Nat) : Bool :=
  if alg = 0x20 then decide (2048 ≤ w.f 48 2) && decide (w.f 48 2 ≤ 8192) && decide (w.f 48 2 % 1024 = 0) &&
    decide (w.f 50 4 % 2 = 1) && decide (65537 ≤ w.f 50 4) && w.z 54 64
  else if alg = 7 then decide (1 ≤ w.f 48 1) && decide (w.f 48 1 ≤ 32) && w.z 49 64
  else w.z 48 64

/-- What the key of a KEY_GENERATE takes of the heap, and the check of its creation. -/
def generateBody (w : Work) (a : Attr) : Nat := if isExtAlg a.alg then heapBytes (privLen a.alg (w.f 48 2) + pubLen a.alg (w.f 48 2)) else 0

def keyGenerate (w : Work) (s : State) : State :=
  command 0x0101 w s (fun s => withQuorum s w 0x0101 1 w.o (fun body _ s =>
    let a := attrOf body
    let cc := creationCheck s w.o a (generateBody w a)
    withChecks s w [(decide (32 ≤ body.length), sMalformed), (decide (cc = sOk), cc),
      (w.unused 0 && generateInl w a.alg && decide (body.length = 32) && w.fits w.createLen, sMalformed)] (fun s =>
      if isExtAlg a.alg then park s { w with input := body } 0x0101 a.alg (w.f 48 2) false
      else if s.rngStopped then endWith s w sEntropy
      else
        let d := drawBytes s (if a.alg = 7 then w.f 48 1 else algKeyLen a.alg)
        createFor d.2 w (newKeyOf w.o a 0 d.1 none))))

/-- KEY_GENERATE. -/
def execKeyGenerate (w : Work) (s : State) : Host.Outcome State Fault Refusal := .next (keyGenerate w s)

/-! ## Import and export of key blocks (05 R130 to R134) -/

/-- Record the IDs of optional blocks that are not interpreted. -/
def skippedOpts (s : State) (o : Nat) (x : KBlock) : State :=
  (x.opts.filter (fun e => !((["KP", "PB", "TS", "KS", "HM"].map ascii).contains e.1))).foldl
    (fun s e => event s 1 evOptBlock stewardSrc o e.1) s

/-- The checks of 05 Table 05.10 from 3 on, and the creation. -/
def importBlock (s : State) (w : Work) (a : Attr) (x : KBlock) : State :=
  withKey (skippedOpts s w.o x) w w.a 4 (kbpkFits x.ver) (fun k s =>
    match kbOpen x k.alg k.material with
    | none => endWith (event s 5 evBlockAuth stewardSrc w.o (leBytes 4 k.handle)) w sDenied
    | some p =>
      match kbKey p with
      | none => endWith s w sKeyUse
      | some m =>
        let kp := x.opts.find? (fun e => e.1 == ascii "KP")
        withChecks s w [
          (kbPermits x.usage x.mode x.letter a.use && decide (kbAlg x.letter m.length = a.alg) && decide (a.alg ≠ 0) &&
            (decide (x.exp = 0x45) || !(a.flags.testBit 0)) && decide (strength a.alg m.length ≤ strength k.alg k.klen), sKeyUse),
          (kp.all (fun e => e.2 == kpText (kcvMethodOf a.alg) (kcvOf a.alg m [])), sVerifyFail)] (fun s =>
          createFor s w (newKeyOf w.o a 2 m none))) true

/-- The two imports after their quorum. -/
def importKey (s : State) (w : Work) (body : Bytes) (working : Bool) : State :=
  let a := attrOf body
  let cc := creationCheck s w.o a
  withChecks s w [(decide (32 ≤ body.length), sMalformed), (decide (cc = sOk), cc),
    (!working || decide (a.replaced = 0), sMalformed),
    (!working || !([3, 4, 5].contains a.use), sDenied),
    (w.unused 1 && w.z 48 64 && w.fits w.createLen, sMalformed)] (fun s =>
    match keyBlock (body.drop 32) with
    | none => endWith s w sMalformed
    | some x => if kbUnsupported x then endWith s w sUnsupported else importBlock s w a x)

/-- KEY_IMPORT. -/
def keyImport (w : Work) (s : State) : State :=
  command 0x0102 w s (fun s => withQuorum s w 0x0102 2 w.o (fun body _ s => importKey s w body false))
def execKeyImport (w : Work) (s : State) : Host.Outcome State Fault Refusal := .next (keyImport w s)

/-- KEY_IMPORT_WORKING. -/
def execKeyImportWorking (w : Work) (s : State) : Host.Outcome State Fault Refusal :=
  .next (command 0x0103 w s (fun s => importKey s w w.input true))

/-- KEY_EXPORT: the subject is read through the subject lane and gives up no use. -/
def keyExport (w : Work) (s : State) : State :=
  command 0x0104 w s (fun s => withQuorum s w 0x0104 4 w.o (fun body _ s =>
    let f := keyFind s w.o false w.a.toNat
    let k := keyFind s w.o true w.b.toNat
    let len := if f.1 = sOk ∧ k.1 = sOk then kbLen (kbVersion k.2.alg) f.2 else 0
    withChecks s w [(w.unused 2 && decide (w.f 48 1 < 2) && w.z 49 64 && decide (body = []) && w.fits len, sMalformed),
      (decide (f.1 = sOk), f.1),
      (f.2.exportable && !([14, 8, 9, 12].contains f.2.use), sKeyUse),
      (decide (f.2.alg ≠ 6), sUnsupported)] (fun s =>
      withKey s w w.b 3 (fun alg => isAesAlg alg || isTdesAlg alg) (fun k s =>
        if strength k.alg k.klen < strength f.2.alg f.2.klen then endWith s w sKeyUse
        else
          let d := drawBytes s 32
          endWith d.2 w sOk (kbBuild f.2 k.alg k.material (decide (w.f 48 1 = 1)) d.1)) true)))

/-- KEY_EXPORT. -/
def execKeyExport (w : Work) (s : State) : Host.Outcome State Fault Refusal := .next (keyExport w s)

/-! ## Activation, cancellation and limits (05 R135 to R141) -/

/-- Does an expected KCV match a record (05 R135)? -/
def kcvMatches (s : State) (i : Nat) (r : KeyRec) (e : Bytes) : Bool :=
  if r.ext then decide (sha256 ((tget none s.ks.bodies i).getD ⟨[], []⟩).pub = e)
  else if r.kcvMethod = 0 then decide (e.take 3 = r.kcv.take 3)
  else decide (e.take 5 = r.kcv.take 5)

/-- The input of KEY_ACTIVATE and KEY_SCHEDULE at check 5. -/
def kcvInput (e : Bytes) : Bool := decide (e.length = 32) || (decide (e.length = 8) && decide (e.drop 5 = [0, 0, 0]))

/-- Does the input's length fit the record's kind? -/
def kcvFits (r : KeyRec) (e : Bytes) : Bool := decide (e.length = if r.ext then 32 else 8)

/-- KEY_ACTIVATE: the pages are re-sealed at once (05 R135). -/
def keyActivate (w : Work) (s : State) : State :=
  command 0x0105 w s (fun s => withQuorum s w 0x0105 3 w.o (fun body _ s =>
    let f := keyFind s w.o false w.a.toNat
    let i := kidx s w.o w.a.toNat
    withChecks s w [(w.unused 1 && w.z 48 64 && kcvInput body && w.fits 0, sMalformed),
      (decide (f.1 = sOk), f.1), (kcvFits f.2 body, sMalformed),
      (decide (f.2.state = kPending) && !f.2.focusBound, sDenied)] (fun s =>
      if !(kcvMatches s i f.2 body) then endWith (event s 3 evKcvMismatch stewardSrc w.o (leBytes 4 f.2.handle)) w sVerifyFail
      else
        let q := pageOf (kidx s w.o f.2.linked)
        let s := endDurable (activate s i s.now) w (pageOf i) []
        let s := resealPage s (pageOf i)
        if s.ks.toSeal.contains q then resealPage s q else s)))

/-- KEY_ACTIVATE. -/
def execKeyActivate (w : Work) (s : State) : Host.Outcome State Fault Refusal := .next (keyActivate w s)

/-- The instant of an armed key's entry. -/
def armedAt (s : State) (r : KeyRec) : Option Nat := if r.state = kPending ∧ r.focus ≠ 0xFFFF then instantOf s r.focus else none

/-- The entry that KEY_SCHEDULE armed under this work tag before a reset (10 R527). -/
def scheduled (s : State) (w : Work) : Option Nat := (s.foc.table.find? (fun e => match e.2 with
  | some x => decide (x.typ = 1) && decide (x.st ≠ fAdding) && decide (x.owner = w.o) && decide (x.tag = w.t)
  | none => false)).map Prod.fst

/-- KEY_SCHEDULE executed again: it completes with its entry's number, once a PENDING record that had lost the number has it. -/
def scheduleAgain (s : State) (w : Work) (e : Nat) : State :=
  let r := (keyFind s w.o false w.a.toNat).2
  let i := kidx s w.o w.a.toNat
  if r.handle = w.a.toNat ∧ r.state = kPending ∧ r.focus ≠ e then
    let s := changeRec s i { r with focus := e }
    releaseFacet (setKs s { s.ks with waits := s.ks.waits ++ [⟨pageOf i, none, none, w.o, w.t, sOk, entryResult e, none, some e⟩] }) w
  else endChange s w sOk (entryResult e)

/-- KEY_SCHEDULE: arm a FOCUS_BOUND key, or move the instant of one that is armed. -/
def keySchedule (w : Work) (s : State) : State :=
  command 0x0106 w s (fun s => match scheduled s w with
  | some e => scheduleAgain s w e
  | none => withQuorum s w 0x0106 3 w.o (fun body _ s =>
    let f := keyFind s w.o false w.a.toNat
    let i := kidx s w.o w.a.toNat
    let t := w.f 48 6 * secNs + w.f 54 4
    withChecks s w [
      (w.unused 1 && w.z 58 64 && decide (w.f 54 4 < secNs) && kcvInput body && w.fits 4, sMalformed),
      (decide (f.1 = sOk), f.1), (kcvFits f.2 body, sMalformed),
      (decide (f.2.state = kPending) && f.2.focusBound && decide (s.now + 2 * mtNs ≤ t), sDenied),
      ((armedAt s f.2).all (fun u => decide (s.now + 2 * mtNs ≤ u)), sDenied),
      (kcvMatches s i f.2 body, sVerifyFail)] (fun s =>
      match armedAt s f.2, s.fentry f.2.focus with
      | some _, some x =>
        let s := setEntry s f.2.focus (some { x with instant := t })
        let s := if s.alone then s else focusSend s 255 6 f.2.focus (some { x with instant := t })
        endChange s w sOk (entryResult f.2.focus)
      | _, _ =>
        match focusAdd (releaseFacet s w) ⟨1, fAdding, w.o, t, s.nodeId, 0, leBytes 4 f.2.handle ++ List.replicate 44 0, w.t, []⟩ with
        | some s => s
        | none => endWith s w sQuota)))

/-- KEY_SCHEDULE. -/
def execKeySchedule (w : Work) (s : State) : Host.Outcome State Fault Refusal := .next (keySchedule w s)

/-- Is an armed key too close to its instant to be cancelled (05 R138)? -/
def tooClose (s : State) (r : KeyRec) : Bool := (armedAt s r).any (fun u => decide (u < s.now + 2 * mtNs))

/-- Destroy a record under a command: its focus entry goes, and the command completes when the wiped page is durable (04 R89). -/
def destroyFor (s : State) (w : Work) (i : Nat) : State :=
  let r := s.krec i
  let s := if (armedAt s r).isSome then entryRemove s r.focus else s
  endDurable (destroyRec s i) w (pageOf i) [] (some i)

/-- KEY_CANCEL. -/
def keyCancel (w : Work) (s : State) : State :=
  command 0x0107 w s (fun s => withQuorum s w 0x0107 3 w.o (fun body _ s =>
    let f := keyFind s w.o false w.a.toNat
    withChecks s w [(w.unused 1 && w.z 48 64 && decide (body = []) && w.fits 0, sMalformed),
      (decide (f.1 = sOk), f.1), (decide (f.2.state = kPending) && !(tooClose s f.2), sDenied)] (fun s =>
      destroyFor s w (kidx s w.o w.a.toNat))))
def execKeyCancel (w : Work) (s : State) : Host.Outcome State Fault Refusal := .next (keyCancel w s)

/-- KEY_SET_LIMIT: a limit that the uses have reached makes the key EXHAUSTED (05 R141). -/
def keySetLimit (w : Work) (s : State) : State :=
  command 0x0108 w s (fun s => withQuorum s w 0x0108 3 w.o (fun body _ s =>
    let f := keyFind s w.o false w.a.toNat
    let i := kidx s w.o w.a.toNat
    let n := w.f 48 8
    withChecks s w [(w.unused 1 && w.z 56 64 && decide (body = []) && w.fits 0, sMalformed),
      (decide (f.1 = sOk), f.1),
      (f.2.counted && decide (n ≤ f.2.limit) && decide (f.2.hw ≤ n), sDenied)] (fun s =>
      let r := { f.2 with limit := n }
      let s := if r.uses = n ∧ r.state = kActive then
          event (changeRec s i { r with state := kExhausted }) 2 evExhausted 128 r.owner (leBytes 4 r.handle ++ leBytes 8 0)
        else changeRec s i r
      endDurable s w (pageOf i) [])))

/-- KEY_SET_LIMIT. -/
def execKeySetLimit (w : Work) (s : State) : Host.Outcome State Fault Refusal := .next (keySetLimit w s)

/-- A record named for destruction: one that is POISONED can be destroyed, one on a lost page or in a failed group cannot. -/
def destroyFind (s : State) (o h : Nat) : Nat × KeyRec :=
  let f := keyFind s o false h
  let l := s.leaf (pageOf (kidx s o h))
  if f.1 = sKeyPoisoned ∧ !l.lost ∧ !l.gfail ∧ f.2.handle = h ∧ f.2.owner = o then (sOk, f.2) else f

/-- Does a custodian slot name the record, or is one about to (05 R112)? -/
def namedCustodian (s : State) (o h : Nat) : Bool :=
  (s.owner o).custodians.any (fun e => e.2.any (fun c => decide (c.handle = h))) ||
    s.ks.waits.any (fun x => x.cust.any (fun c => decide (c.1 = o) && c.2.2.any (fun d => decide (d.handle = h))))

/-- KEY_DESTROY. -/
def keyDestroy (w : Work) (s : State) : State :=
  command 0x0109 w s (fun s => withQuorum s w 0x0109 5 w.o (fun body _ s =>
    let f := destroyFind s w.o w.a.toNat
    withChecks s w [(w.unused 1 && w.z 48 64 && decide (body = []) && w.fits 0, sMalformed),
      (decide (f.1 = sOk), f.1), (!(namedCustodian s w.o w.a.toNat) && !(tooClose s f.2), sDenied)] (fun s =>
      destroyFor s w (kidx s w.o w.a.toNat))))
def execKeyDestroy (w : Work) (s : State) : Host.Outcome State Fault Refusal := .next (keyDestroy w s)

/-! ## Components (05 R127 to R129) -/

/-- An open session of an owner. -/
def State.session (s : State) (o : Nat) (id : Bytes) : Option Session :=
  s.sessions.find? (fun x => decide (x.id = id) && decide (x.owner = o) && decide (s.nowSec < x.opened + 3600))

def closeSession (s : State) (id : Bytes) : State := { s with sessions := s.sessions.filter (fun x => decide (x.id ≠ id)) }

/-- COMP_OPEN. -/
def compOpen (w : Work) (s : State) : State :=
  command 0x0110 w s (fun s =>
    let alg := w.f 48 1
    let n := w.f 49 1
    withChecks s w [(w.unused 0 && decide (1 ≤ alg) && decide (alg ≤ 7) && decide (2 ≤ n) && decide (n ≤ 5) && w.z 50 64 &&
        decide (w.len = 0) && w.fits 1192, sMalformed),
      (decide ((s.sessions.filter (fun x => decide (s.nowSec < x.opened + 3600))).length < 64), sQuota),
      (!s.rngStopped, sEntropy)] (fun s =>
      let id := drawBytes s 8
      let r := id.2.free
      let k := Config.pkKeygen 0x31 0 0 r.1
      let ek := fitBytes 1184 k.2
      endWith { r.2 with sessions := r.2.sessions ++ [⟨id.1, w.o, alg, n, s.nowSec, fitBytes 2400 k.1, []⟩] } w sOk (id.1 ++ ek)))

/-- COMP_OPEN. -/
def execCompOpen (w : Work) (s : State) : Host.Outcome State Fault Refusal := .next (compOpen w s)

/-- Bytes of a component of an algorithm; those of an HMAC secret are set by the first one. -/
def compLenOk (x : Session) (n : Nat) : Bool :=
  if x.alg = 7 then decide (1 ≤ n) && decide (n ≤ 32) && x.parts.all (fun p => decide (p.2.2.length = n))
  else decide (n = algKeyLen x.alg)

/-- COMP_ADD: the component arrives under the session's ML-KEM key. -/
def compAdd (w : Work) (s : State) : State :=
  command 0x0111 w s (fun s => withQuorum s w 0x0111 2 w.o (fun body _ s =>
    let id := body.take 8
    let num := byteAt body 8
    let slot := byteAt w.input 64
    let x := (s.session w.o id).getD ⟨[], 0, 0, 0, 0, [], []⟩
    let ct := (body.drop 1104).take (body.length - 1120)
    let key := kdf (Config.kemDecap 0x31 x.dk ((body.drop 16).take 1088)) "PH64-COMP" (id ++ leBytes 1 num ++ leBytes 1 slot)
    let iv := id ++ beBytes 4 num
    let aad := id ++ leBytes 1 num ++ leBytes 1 x.alg
    let part := gcmCrypt 3 key iv ct
    withChecks s w [
      (w.unused 0 && w.z 48 64 && w.fits 8 && decide (1121 ≤ body.length) && decide (leNat (sliceBytes body 9 7) = 0), sMalformed),
      ((s.session w.o id).isSome, sKeyAbsent),
      (decide (1 ≤ num) && decide (num ≤ x.n) && compLenOk x (body.length - 1120), sMalformed),
      (x.parts.all (fun p => decide (p.1 ≠ num) && decide (p.2.1 ≠ slot)), sDenied),
      (decide (gcmTag 3 key iv aad ct = body.drop (body.length - 16)), sDenied)] (fun s =>
      let s := { s with sessions := s.sessions.map (fun y => if y.id = id then { y with parts := y.parts ++ [(num, slot, part)] } else y) }
      endWith s w sOk (leBytes 1 (kcvMethodOf x.alg) ++ fitBytes 5 (kcvOf x.alg part []) ++ [0, 0]))))

/-- COMP_ADD. -/
def execCompAdd (w : Work) (s : State) : Host.Outcome State Fault Refusal := .next (compAdd w s)

/-- A byte with odd parity in its bit 0. -/
def oddParity (b : Byte) : Byte :=
  let ones := ((List.range 7).filter (fun k => b.toNat.testBit (k + 1))).length
  BitVec.ofNat 8 (b.toNat / 2 * 2 + (1 - ones % 2))

/-- The key that components make, and whether check 2 of R129 passes. -/
def combined (x : Session) : Bytes × Bool :=
  let m := (x.parts.map (fun p => p.2.2)).foldl (fun a b => if a = [] then b else xorBytes a b) []
  let m := if isTdesAlg x.alg then m.map oddParity else m
  let nz := m.any (fun b => decide (b ≠ 0))
  let p := fun (k : Nat) => sliceBytes m (8 * k) 8
  (m, nz && (decide (x.alg ≠ 4) || decide (p 0 ≠ p 1)) &&
    (decide (x.alg ≠ 5) || (decide (p 0 ≠ p 1) && decide (p 1 ≠ p 2) && decide (p 0 ≠ p 2))))

/-- COMP_COMBINE. -/
def compCombine (w : Work) (s : State) : State :=
  command 0x0112 w s (fun s => withQuorum s w 0x0112 2 w.o (fun body _ s =>
    let a := attrOf body
    let cc := creationCheck s w.o a
    let id := sliceBytes body 32 8
    withChecks s w [(decide (32 ≤ body.length), sMalformed), (decide (cc = sOk), cc),
      (w.unused 0 && w.z 48 64 && decide (body.length = 48) && decide (body.drop 45 = [0, 0, 0]) && w.fits w.createLen, sMalformed),
      ((s.session w.o id).isSome, sKeyAbsent)] (fun s =>
      match s.session w.o id with
      | none => endWith s w sKeyAbsent
      | some x =>
        let m := combined x
        let kcv := kcvOf a.alg m.1 []
        if a.alg ≠ x.alg then endWith s w sKeyUse
        else if x.parts.length ≠ x.n ∨ !m.2 then endWith (closeSession s id) w sDenied
        else if sliceBytes body 40 kcv.length ≠ kcv then endWith (closeSession s id) w sVerifyFail
        else createFor (closeSession s id) w (newKeyOf w.o a 1 m.1 none))))

/-- COMP_COMBINE. -/
def execCompCombine (w : Work) (s : State) : Host.Outcome State Fault Refusal := .next (compCombine w s)

/-! ## Quorums and custodians (05 R112 to R119) -/

/-- QUORUM_OPEN. -/
def quorumOpen (w : Work) (s : State) : State :=
  command 0x0120 w s (fun s =>
    withChecks s w [(w.unused 0 && decide (1 ≤ w.f 48 4) && decide (w.f 48 4 ≤ 3600) && w.z 52 64 && decide (w.len = 0) && w.fits 40,
      sMalformed)] (fun s =>
      let x := s.owner w.o
      let x := { x with challenges := x.challenges.filter (fun c => decide (s.nowSec < c.exp)) }
      let s := setCustody s w.o x
      if 16 ≤ x.challenges.length then endWith s w sQuota
      else if s.rngStopped then endWith s w sEntropy
      else
        let d := drawBytes s 32
        let c : Challenge := ⟨d.1, s.nowSec + w.f 48 4, none⟩
        endChange (setCustody d.2 w.o { x with challenges := x.challenges ++ [c] }) w sOk (c.val ++ leBytes 6 c.exp ++ [0, 0])))

/-- QUORUM_OPEN. -/
def execQuorumOpen (w : Work) (s : State) : Host.Outcome State Fault Refusal := .next (quorumOpen w s)

/-- A command completes with a page, and a custodian slot changes with it. -/
def endCust (s : State) (w : Work) (page : Nat) (res : Bytes) (wipe : Option Nat) (c : Nat × Nat × Option Custodian) : State :=
  releaseFacet (setKs s { s.ks with waits := s.ks.waits ++ [⟨page, wipe, none, w.o, w.t, sOk, res, some c, none⟩] }) w

/-- A slot's entry, and whether a change of it waits to become durable. -/
def slotEntry (s : State) (o k : Nat) : Option Custodian := tget none (s.owner o).custodians k
def slotWaits (s : State) (o k : Nat) : Bool := s.ks.waits.any (fun x => x.cust.any (fun c => decide (c.1 = o) && decide (c.2.1 = k)))

/-- A length with its padding to a multiple of 8. -/
def pad8 (n : Nat) : Nat := (n + 7) / 8 * 8

/-- A credential's public key: its length, and the validation of 11 R307. -/
def credentialOk (alg : Nat) (pub : Bytes) : Bool :=
  (decide (alg = 0x39) || decide (alg = 0x3A) || decide (alg = 0x22)) && decide (pub.length = pubLen alg 0) &&
    (decide (alg ≠ 0x22) || ecPointOk alg pub)

/-- CUST_ENROL: the new credential signs what the quorum signs. -/
def custEnrol (w : Work) (s : State) : State :=
  command 0x0130 w s (fun s => withQuorum s w 0x0130 6 (w.f 48 2) (fun body m s =>
    let o := w.f 48 2
    let k := w.f 50 1
    let mask := w.f 52 2
    let alg := byteAt body 0
    let pl := leNat (sliceBytes body 2 2)
    let sl := leNat (sliceBytes body 4 2)
    let pub := (body.drop 8).take pl
    let sig := (body.drop (8 + pad8 pl)).take sl
    let zero := fun (l : Bytes) => l.all (fun b => decide (b = 0))
    withChecks s w [(w.mayTarget, sDenied), (quotaOk s o (heapBytes pl), sQuota),
      (w.unused 0 && decide (o < 4096) && decide (k < 8) && w.z 51 52 && decide (mask % 2 = 0) && decide (mask < 512) && w.z 54 64 &&
        w.fits 8 && decide (body.length = 8 + pad8 pl + pad8 sl) && decide (byteAt body 1 = 0) && zero (sliceBytes body 6 2) &&
        zero ((body.drop (8 + pl)).take (pad8 pl - pl)) && zero (body.drop (8 + pad8 pl + sl)) && credentialOk alg pub, sMalformed),
      ((slotEntry s o k).isNone && !(slotWaits s o k), sDenied),
      (decide (sl = signLen alg 0), sDenied)] (fun s => withCredential s w 0x0130 body m ⟨credentialSlot, alg, pub, sig⟩ (fun s =>
      match createRec s ⟨o, 9, 0, alg, 0, 0, 0, 0, List.replicate 8 0, [], some ⟨[], pub⟩⟩ with
      | none => endWith s w sQuota
      | some (i, (s : State)) =>
        endCust s w (pageOf i) (leBytes 4 (s.krec i).handle ++ leBytes 1 k ++ [0, 0, 0]) none
          (o, k, some ⟨(s.krec i).handle, mask, s.nowSec⟩)))))

/-- CUST_ENROL. -/
def execCustEnrol (w : Work) (s : State) : Host.Outcome State Fault Refusal := .next (custEnrol w s)

/-- An owner without the custodians whose removal waits for its page. -/
def withoutRemoved (s : State) (o : Nat) (x : Owner) : Owner :=
  { x with custodians := tmap none (fun k c => if s.ks.waits.any (fun y => y.cust == some (o, k, none)) then none else c) x.custodians }

/-- Would every class have its threshold of ACTIVE custodians (05 R115)? -/
def thresholdsMet (s : State) (o : Nat) (x : Owner) : Bool :=
  (List.range 8).all (fun c => decide (byteAt x.pol (c + 1) ≤ (withoutRemoved s o x).active (c + 1)))

/-- CUST_REMOVE: the credential's record is destroyed, and the slot empties when its page is durable. -/
def custRemove (w : Work) (s : State) : State :=
  command 0x0131 w s (fun s => withQuorum s w 0x0131 6 (w.f 48 2) (fun body _ s =>
    let o := w.f 48 2
    let k := w.f 50 1
    let x := s.owner o
    let rest := { x with custodians := tset none x.custodians k none }
    withChecks s w [(w.mayTarget, sDenied),
      (w.unused 0 && decide (o < 4096) && decide (k < 8) && w.z 51 64 && decide (body = []) && w.fits 0, sMalformed),
      ((slotEntry s o k).isSome && !(slotWaits s o k) && thresholdsMet s o rest, sDenied)] (fun s =>
      let h := ((slotEntry s o k).getD ⟨0, 0, 0⟩).handle
      let i := kidx s o h
      if (destroyFind s o h).1 ≠ sOk then endChange (setCustody s o rest) w sOk
      else endCust (destroyRec s i) w (pageOf i) [] (some i) (o, k, none))))

/-- CUST_REMOVE. -/
def execCustRemove (w : Work) (s : State) : Host.Outcome State Fault Refusal := .next (custRemove w s)

/-- QUORUM_POLICY. -/
def quorumPolicy (w : Work) (s : State) : State :=
  command 0x0132 w s (fun s => withQuorum s w 0x0132 6 (w.f 48 2) (fun body _ s =>
    let o := w.f 48 2
    let x := { s.owner o with policy := body }
    withChecks s w [(w.mayTarget, sDenied),
      (w.unused 0 && decide (o < 4096) && w.z 50 64 && w.fits 0 && decide (body.length = 16) && decide (byteAt body 0 = 0) &&
        (body.drop 9).all (fun b => decide (b = 0)), sMalformed),
      ((List.range 8).all (fun c => decide (policyFloor.getD (c + 1) 0 ≤ byteAt body (c + 1)) && decide (byteAt body (c + 1) ≤ 8)) &&
        thresholdsMet s o x, sDenied)] (fun s => endChange (setCustody s o x) w sOk)))

/-- QUORUM_POLICY. -/
def execQuorumPolicy (w : Work) (s : State) : Host.Outcome State Fault Refusal := .next (quorumPolicy w s)

end Sys2Proof.Machine
end

