-- ==== Sys2Proof/Machine/Pk.lean ====
section
/-! DEFINITION. Machine/Pk.lean: the public-key commands (07 R193 to R196, R526) and the end of a parked command (07 R195). -/

namespace Sys2Proof.Machine

open Sys2Proof

/-! ## SIGN and VERIFY -/

/-- Inline bytes 48 to 53 in their own ranges. -/
def sigRange (w : Work) : Bool :=
  decide (w.f 48 1 ≤ 4) && decide (w.f 49 1 ≤ 1) && decide (w.f 50 2 ≤ 64) && decide (w.f 53 1 ≤ 1)

/-- Do they fit an algorithm (07 R526)? -/
def sigFit (w : Work) (alg : Nat) : Bool :=
  (isRsa alg || isNist alg || isEd alg || isDsa alg) &&
  ((isEd alg || isDsa alg) == decide (w.f 48 1 = 4)) &&
  (decide (w.f 49 1 = 0) || isRsa alg) && (decide (w.f 50 2 = 0) || (isRsa alg && decide (w.f 49 1 = 1))) &&
  (decide (w.f 52 1 = 0) || isDsa alg || decide (alg = 0x27)) && (decide (w.f 53 1 = 0) || isNist alg || isDsa alg)

/-- A digest has the length of a hash. -/
def digestOk (w : Work) (n : Nat) : Bool := decide (w.f 48 1 ≠ 0) || decide (n = 32) || decide (n = 48) || decide (n = 64)

/-- The clear body of the record a handle names. -/
def pkBody (s : State) (w : Work) : Body := (tget none s.ks.bodies (kidx s w.o w.a.toNat)).getD ⟨[], []⟩

/-- The length parameter of an operation: RSA modulus and exponent bits, EdDSA message bytes. -/
def pkLen (alg : Nat) (pub : Bytes) (msg : Nat) : Nat := if isRsa alg then rsaLen pub else if isEd alg then msg else 0

/-- SIGN: the key's use is consumed at its delivery to an array (11 R302). -/
def signCmd (w : Work) (s : State) : State :=
  command 0x0701 w s (fun s =>
    let k := keyCheck s w.o false w.acc w.a.toNat 8
    let f := keyFind s w.o false w.a.toNat
    let n := w.len - w.f 52 1
    let l := pkLen f.2.alg (pkBody s w).pub n
    withChecks s w [
      (w.unused 1 && sigRange w && w.z 54 64 && decide (w.f 52 1 ≤ w.len) && decide (n ≤ 4194304) && digestOk w n &&
        w.fits (if f.1 = sOk ∧ sigFit w f.2.alg then signLen f.2.alg (l % 65536) else 0), sMalformed),
      (decide (k.1 = sOk), k.1), (sigFit w k.2.alg, sKeyUse)] (fun s => park s w 0x0701 k.2.alg l false))

/-- SIGN. -/
def execSign (w : Work) (s : State) : Host.Outcome State Fault Refusal := .next (signCmd w s)

/-- The parts of VERIFY's input go to an array once they are valid (07 R194). -/
def verifyPark (s : State) (w : Work) (alg : Nat) (pub : Bytes) : State :=
  let i := w.input.drop (w.f 52 1 + w.f 60 2)
  if !(verifyInputOk alg pub (i.take (w.f 56 4))) then endWith s w sVerifyFail
  else park s w 0x0702 alg (pkLen alg pub (i.length - w.f 56 4)) false

/-- VERIFY, under a key of the owner or a public key of the input. -/
def verifyCmd (w : Work) (s : State) : State :=
  command 0x0702 w s (fun s =>
    let pre := w.f 52 1 + w.f 60 2 + w.f 56 4
    let own := decide (w.a ≠ 0)
    let k := keyCheck s w.o false w.acc w.a.toNat 9
    withChecks s w [
      (w.unused 1 && sigRange w && w.z 55 56 && w.z 62 64 && decide (pre ≤ w.len) && digestOk w (w.len - pre) && w.fits 0 &&
        (if own then w.z 54 55 && w.z 60 62 else sigFit w (w.f 54 1)), sMalformed),
      (!own || decide (k.1 = sOk), k.1), (!own || sigFit w k.2.alg, sKeyUse)] (fun s =>
      if own then withKey s w w.a 9 (sigFit w) (fun k s => verifyPark s w k.alg (pkBody s w).pub)
      else verifyPark s w (w.f 54 1) ((w.input.drop (w.f 52 1)).take (w.f 60 2))))

/-- VERIFY. -/
def execVerify (w : Work) (s : State) : Host.Outcome State Fault Refusal := .next (verifyCmd w s)

/-! ## Agreement and encapsulation (07 R196) -/

/-- The attribute block of a working key from an agreement: checks 4 and the command's own. -/
def agreeAttr (s : State) (w : Work) : List (Bool × Nat) :=
  let a := attrOf w.input
  let cc := creationCheck s w.o a
  [(decide (32 ≤ w.len), sMalformed), (decide (cc = sOk), cc), (decide (a.replaced = 0) && !(isExtAlg a.alg), sMalformed),
    (!([3, 4, 5].contains a.use), sDenied)]

/-- KEY_AGREE. -/
def agreeCmd (w : Work) (s : State) : State :=
  command 0x0703 w s (fun s =>
    let k := keyCheck s w.o false w.acc w.a.toNat 12
    let pl := w.f 48 2
    withChecks s w (agreeAttr s w ++ [
      (w.unused 1 && w.z 50 52 && decide (w.f 52 2 ≤ 1024) && w.z 54 64 && decide (w.len = 32 + pl + w.f 52 2) && w.fits w.createLen,
        sMalformed),
      (decide (k.1 = sOk), k.1), (isNist k.2.alg || isXdh k.2.alg, sKeyUse),
      (peerOk k.2.alg ((w.input.drop 32).take pl), sMalformed)]) (fun s => park s w 0x0703 k.2.alg 0 false))
def execKeyAgree (w : Work) (s : State) : Host.Outcome State Fault Refusal := .next (agreeCmd w s)

/-- KEM_DECAPSULATE. -/
def decapCmd (w : Work) (s : State) : State :=
  command 0x0704 w s (fun s =>
    let k := keyCheck s w.o false w.acc w.a.toNat 12
    withChecks s w (agreeAttr s w ++ [
      (w.unused 1 && w.z 48 52 && decide (w.f 52 2 ≤ 1024) && w.z 54 64 && decide (32 + w.f 52 2 ≤ w.len) && w.fits w.createLen, sMalformed),
      (decide (k.1 = sOk), k.1), (isKem k.2.alg, sKeyUse),
      (decide (w.len = 32 + kemCtLen k.2.alg + w.f 52 2), sMalformed)]) (fun s => park s w 0x0704 k.2.alg 0 false))
def execKemDecapsulate (w : Work) (s : State) : Host.Outcome State Fault Refusal := .next (decapCmd w s)

/-- KEM_ENCAPSULATE. -/
def encapCmd (w : Work) (s : State) : State :=
  command 0x0705 w s (fun s =>
    let alg := w.f 48 1
    withChecks s w (agreeAttr s w ++ [
      (w.unused 0 && isKem alg && w.z 49 52 && decide (w.f 52 2 ≤ 1024) && w.z 54 64 && w.fits (w.createLen + kemCtLen alg) &&
        decide (w.len = 32 + pubLen alg 0 + w.f 52 2) && kemKeyOk alg ((w.input.drop 32).take (pubLen alg 0)), sMalformed)]) (fun s =>
      park s w 0x0705 alg 0 false))
def execKemEncapsulate (w : Work) (s : State) : Host.Outcome State Fault Refusal := .next (encapCmd w s)

/-- PUBKEY_EXPORT. -/
def pubkeyExport (w : Work) (s : State) : State :=
  command 0x0706 w s (fun s =>
    let f := keyFind s w.o false w.a.toNat
    let pub := (pkBody s w).pub
    withChecks s w [(w.unused 1 && w.z 48 64 && decide (w.len = 0) && w.fits (if f.1 = sOk then pub.length else 0), sMalformed),
      (decide (f.1 = sOk), f.1), (f.2.ext, sKeyUse)] (fun s => endWith s w sOk pub))
def execPubkeyExport (w : Work) (s : State) : Host.Outcome State Fault Refusal := .next (pubkeyExport w s)

/-! ## The end of a parked command (07 R195) -/

/-- A command that resumes completes, or creates its record. -/
def resumeEnd (s : State) (x : HxOp) (st : Nat) : State :=
  let w := x.w
  let a := attrOf w.input
  let create := fun (s : State) (m : Bytes) (body : Option Body) (more : Bytes) =>
    let cc := creationCheck s w.o a (if 5 ≤ hxKind x.opcode then generateBody w a else 0)
    if cc ≠ sOk then endWith s w cc else createFor s w (newKeyOf w.o a 0 m body) more
  let working := fun (l : String) (ctx more : Bytes) =>
    let r := s.free
    let n := if a.alg = 7 then 1 + r.1 % 32 else algKeyLen a.alg
    create r.2 ((kdf x.out l ctx).take n) none more
  let ctx := w.input.drop (w.len - w.f 52 2)
  if st ≠ sOk then endWith s w st
  else match hxKind x.opcode with
    | 0 => endWith s w sOk x.out
    | 1 => endWith s w (if x.out = [1] then sOk else sVerifyFail)
    | 2 => working "PH64-AGREE" ctx []
    | 3 => working "PH64-KEM" ctx []
    | 4 => working "PH64-KEM" ctx x.out2
    | _ => create s [] (some ⟨x.out, x.out2⟩) []

end Sys2Proof.Machine
end

