-- ==== Sys2Proof/Machine/Symmetric.lean ====
section
/-! DEFINITION. Machine/Symmetric.lean: the symmetric, MAC and derived-key commands, RANDOM and the queries (07 R176 to R179,
R186 to R192, R197, R204, 08 R231, R232). -/

namespace Sys2Proof.Machine

open Sys2Proof

/-! ## Padding (08 R231) -/

/-- ISO/IEC 9797-1 padding methods 1 and 2; 0 is none. -/
def isoPad (method bl : Nat) (d : Bytes) : Bytes :=
  let d := if method = 2 then d ++ [0x80] else d
  if method = 0 then d else d ++ List.replicate ((bl - d.length % bl) % bl) 0

/-! ## ENCIPHER and DECIPHER (07 R186 to R189) -/

/-- A data command: mode, padding, tag length, data-unit length, its pieces, and whether bytes 48 to 63 and the lengths
are well formed apart from what the key's algorithm decides. -/
structure Sym where
  enc : Bool
  v1 : Bool
  mode : Nat
  pad : Nat
  tagLen : Nat
  unit : Nat
  iv : Bytes
  aad : Bytes
  data : Bytes
  tag : Bytes
  ok : Bool

/-- The version 2 form: the input is the IV, the AAD, the data and for GCM DECIPHER the tag. -/
def symV2 (w : Work) (enc : Bool) (input : Bytes) : Sym :=
  let m := w.f 48 1
  let pad := w.f 49 1
  let tl := w.f 50 1
  let il := w.f 51 1
  let al := w.f 52 4
  let u := w.f 56 4
  let tin := if m = 3 ∧ !enc then tl else 0
  let rest := input.drop (il + al)
  ⟨enc, false, m, pad, tl, u, input.take il, (input.drop il).take al, rest.take (rest.length - tin), rest.drop (rest.length - tin),
    decide (m ≤ 4) && (decide (pad = 0) || (decide (pad = 1) && enc && decide (m ≤ 1))) &&
      (if m = 3 then decide (12 ≤ tl) && decide (tl ≤ 16) else decide (tl = 0)) &&
      (match m with
        | 0 => decide (il = 0)
        | 3 => decide (il = 12)
        | 4 => decide (il = 16)
        | _ => decide (il = 8) || decide (il = 16)) &&
      (decide (m = 3) || decide (al = 0)) &&
      (if m = 4 then decide (16 ≤ u) && decide (u ≤ 16777216) && decide (u % 16 = 0) else decide (u = 0)) &&
      w.z 60 64 && decide (il + al + tin ≤ input.length)⟩

/-- The version 1 form (07 Table 07.1): the IV stands in the inline bytes. -/
def symV1 (w : Work) (enc : Bool) (mode : Nat) : Sym :=
  ⟨enc, true, mode, 0, 0, 0, fitBytes 16 w.inl, [], w.input, [], decide (mode ≠ 0) || w.z 48 64⟩

/-- The algorithms a mode takes. -/
def Sym.fit (x : Sym) (alg : Nat) : Bool := match x.mode with
  | 3 => isAesAlg alg || decide (alg = 6)
  | 4 => decide (alg = 1) || decide (alg = 3)
  | _ => decide (1 ≤ alg) && decide (alg ≤ 6)

/-- The data limit of a mode and direction (07 Table 07.5). -/
def symLimit (mode : Nat) (enc : Bool) (alg : Nat) : Nat :=
  if mode = 1 ∧ enc then (if isTdesAlg alg then 262144 else if alg = 6 then 1048576 else 2097152)
  else if mode = 3 ∧ !enc then 33554432
  else if isTdesAlg alg then 33554432 else 67108864

/-- What the algorithm decides: the IV, whole blocks or data units, and the limit. -/
def Sym.dataOk (x : Sym) (alg : Nat) : Bool :=
  let bl := algBlock alg
  let n := x.data.length
  decide (n ≤ symLimit x.mode x.enc alg) &&
  (if x.mode = 1 ∨ x.mode = 2 then (if x.v1 then (x.iv.drop bl).all (fun b => decide (b = 0)) else decide (x.iv.length = bl)) else true) &&
  (if x.mode ≤ 1 ∧ x.pad = 0 then decide (n % bl = 0) else if x.mode = 4 then decide (n % x.unit = 0) else true)

/-- Bytes of the result. -/
def Sym.resLen (x : Sym) (alg : Nat) : Nat :=
  let bl := algBlock alg
  if x.pad = 1 then (x.data.length / bl + 1) * bl else x.data.length + (if x.enc then x.tagLen else 0)

/-- The result; none where a GCM tag does not verify. -/
def Sym.run (x : Sym) (alg : Nat) (k1 k2 : Bytes) : Option Bytes :=
  let d := isoPad (if x.pad = 1 then 2 else 0) (algBlock alg) x.data
  let iv := x.iv.take (algBlock alg)
  match x.mode with
  | 0 => some (if x.enc then ecbEnc alg k1 d else ecbDec alg k1 d)
  | 1 => some (if x.enc then cbcEnc alg k1 iv d else cbcDec alg k1 iv d)
  | 2 => some (ctrCrypt alg k1 iv d)
  | 3 =>
    if x.enc then
      let c := gcmCrypt alg k1 x.iv d
      some (c ++ (gcmTag alg k1 x.iv x.aad c).take x.tagLen)
    else if (gcmTag alg k1 x.iv x.aad d).take x.tagLen = x.tag then some (gcmCrypt alg k1 x.iv d) else none
  | _ =>
    let us := pieces x.unit d
    some ((us.zip (List.range us.length)).flatMap (fun e => xtsCrypt x.enc alg k1 k2 (leBytes 16 (leNat x.iv + e.2)) e.1))

/-- The end of a data command. -/
def symEnd (s : State) (w : Work) (r : Option Bytes) : State := match r with
  | some d => endWith s w sOk d
  | none => endWith s w sVerifyFail

/-- The algorithm of the record of handle A, when check 2 finds it; 0 where it does not. -/
def algOf (s : State) (w : Work) (h : Word) : Nat :=
  let f := keyFind s w.o false h.toNat
  if f.1 = sOk then f.2.alg else 0

/-- Do the fields that an algorithm decides hold? They are not tested where the algorithm is unknown or does not fit. -/
def Sym.fieldsOk (x : Sym) (w : Work) (alg : Nat) : Bool :=
  x.ok && w.fits (if x.fit alg then x.resLen alg else 0) && (!(x.fit alg) || x.dataOk alg)

/-- ENCIPHER and DECIPHER of both versions. -/
def symCmd (op : Nat) (w : Work) (x : Sym) (s : State) : State :=
  command op w s (fun s =>
    let xts := decide (x.mode = 4)
    withChecks s w [(w.unused (if xts then 2 else 1) && x.fieldsOk w (algOf s w w.a) && !(xts && decide (w.a = w.b)), sMalformed)] (fun s =>
      withKey s w w.a (if x.enc then 1 else 2) x.fit (fun a t =>
        if xts then withKey t w w.b 1 (fun g => decide (g = a.alg)) (fun b s => symEnd s w (x.run a.alg a.material b.material)) (base := s)
        else symEnd t w (x.run a.alg a.material []))))

/-- ENCIPHER. -/
def execEncipher (w : Work) (s : State) : Host.Outcome State Fault Refusal := .next (symCmd 0x0201 w (symV2 w true w.input) s)
/-- DECIPHER: a GCM tag is compared before any block is deciphered (07 R188). -/
def execDecipher (w : Work) (s : State) : Host.Outcome State Fault Refusal := .next (symCmd 0x0202 w (symV2 w false w.input) s)
/-- The version 1 data commands. -/
def execV1EncipherEcb (w : Work) (s : State) : Host.Outcome State Fault Refusal := .next (symCmd 0x0210 w (symV1 w true 0) s)
def execV1EncipherCbc (w : Work) (s : State) : Host.Outcome State Fault Refusal := .next (symCmd 0x0211 w (symV1 w true 1) s)
def execV1EncipherCtr (w : Work) (s : State) : Host.Outcome State Fault Refusal := .next (symCmd 0x0212 w (symV1 w true 2) s)
def execV1DecipherEcb (w : Work) (s : State) : Host.Outcome State Fault Refusal := .next (symCmd 0x0220 w (symV1 w false 0) s)
def execV1DecipherCbc (w : Work) (s : State) : Host.Outcome State Fault Refusal := .next (symCmd 0x0221 w (symV1 w false 1) s)
def execV1DecipherCtr (w : Work) (s : State) : Host.Outcome State Fault Refusal := .next (symCmd 0x0222 w (symV1 w false 2) s)

/-- TRANSLATE: the clear data never leaves the facet. -/
def translateCmd (w : Work) (s : State) : State :=
  command 0x0203 w s (fun s =>
    let i := w.f 52 1
    let o := w.f 53 1
    let d := w.input.drop (i + o)
    let ivOk := fun (m l : Nat) => if m = 0 then decide (l = 0) else decide (l = 8) || decide (l = 16)
    let x : Sym := ⟨false, false, w.f 48 1, 0, 0, 0, w.input.take i, [], d, [], true⟩
    let y : Sym := ⟨true, false, w.f 49 1, 0, 0, 0, (w.input.drop i).take o, [], d, [], true⟩
    let whole := fun (q : Sym) (alg : Nat) => !(q.fit alg) || (q.dataOk alg && decide (d.length % algBlock alg = 0))
    withChecks s w [(w.unused 2 && decide (x.mode ≤ 2) && decide (y.mode ≤ 2) && w.z 50 52 && w.z 54 64 && ivOk x.mode i && ivOk y.mode o &&
      decide (i + o ≤ w.len) && w.fits d.length && whole x (algOf s w w.a) && whole y (algOf s w w.b), sMalformed)] (fun s =>
      withKey s w w.a 2 x.fit (fun a t => withKey t w w.b 1 y.fit (base := s) (k := fun b s =>
        let clear := (x.run a.alg a.material []).getD []
        symEnd s w ({ y with data := clear }.run b.alg b.material [])))))

/-- TRANSLATE. -/
def execTranslate (w : Work) (s : State) : Host.Outcome State Fault Refusal := .next (translateCmd w s)

/-! ## MACs (07 R190, 08 R231, R232) -/

/-- A MAC command: algorithm, padding, length, expected MAC and message; its fields are in range. -/
structure Mac where
  alg : Nat
  pad : Nat
  len : Nat
  expect : Bytes
  msg : Bytes
  ok : Bool

/-- The MAC's full length, and the least and the greatest of inline byte 50. -/
def macRange (a : Nat) : Nat × Nat := match a with
  | 2 => (4, 16)
  | 4 => (4, 16)
  | 5 => (8, 32)
  | 6 => (8, 48)
  | 7 => (8, 64)
  | 8 => (8, 32)
  | 9 => (8, 64)
  | _ => (4, 8)

/-- Do an algorithm, a padding method and a length go together, and may the message be empty? -/
def macOk (a pad len n : Nat) : Bool :=
  decide (a ≤ 9) && (if a ≤ 1 then decide (pad = 1) || decide (pad = 2) else decide (pad = 0)) &&
    decide ((macRange a).1 ≤ len) && decide (len ≤ (macRange a).2) && (decide (pad ≠ 1) || decide (0 < n))

/-- The cipher or hash an algorithm needs of its key. -/
def macFit (a key : Nat) : Bool := match a with
  | 0 => isTdesAlg key
  | 1 => decide (key = 4)
  | 2 => isAesAlg key
  | 3 => isTdesAlg key
  | 4 => decide (key = 6)
  | _ => decide (key = 7)

/-- The message limit (07 R190). -/
def macLimit (a : Nat) : Nat := match a with
  | 2 => 2097152
  | 4 => 1048576
  | 9 => 2097152
  | _ => if a < 4 then 262144 else 4194304

/-- The full MAC (08 Table 08.9). -/
def macValue (a pad kalg : Nat) (key m : Bytes) : Bytes := match a with
  | 0 => cbcMac kalg key (isoPad pad 8 m)
  | 1 => retailMac key (isoPad pad 8 m)
  | 5 => hmac 1 key m
  | 6 => hmac 2 key m
  | 7 => hmac 3 key m
  | 8 => hmac 7 key m
  | 9 => hmac 9 key m
  | _ => cmac kalg key m

/-- An expected MAC of `n` bytes in a field: left-aligned and zero-filled. -/
def macField (b : Bytes) (n : Nat) : Bool := (b.drop n).all (fun x => decide (x = 0))

def macOf (w : Work) (verify : Bool) (input : Bytes) : Mac :=
  let a := w.f 48 1
  let v1 := decide (w.ver = 1)
  let e := if !verify then [] else if v1 then w.inl.drop 8 else input.take 64
  let m := if verify ∧ !v1 then input.drop 64 else input
  ⟨a, w.f 49 1, w.f 50 1, e, m, macOk a (w.f 49 1) (w.f 50 1) m.length && (!v1 || [0, 1, 3].contains a) &&
    (if v1 ∧ verify then w.z 51 56 else w.z 51 64) && (!verify || (macField e (w.f 50 1) && (v1 || decide (64 ≤ input.length)))) &&
    decide (m.length ≤ macLimit a)⟩

/-- The end of a MAC command. -/
def macEnd (s : State) (w : Work) (x : Mac) (verify : Bool) (kalg : Nat) (key : Bytes) : State :=
  let v := (macValue x.alg x.pad kalg key x.msg).take x.len
  if !verify then endWith s w sOk v
  else endWith s w (if x.expect.take x.len = v then sOk else sVerifyFail)

def macCmd (op : Nat) (verify : Bool) (w : Work) (s : State) : State :=
  command op w s (fun s =>
    let x := macOf w verify w.input
    withChecks s w [(w.unused 1 && x.ok && w.fits (if verify then 0 else x.len), sMalformed)] (fun s =>
      withKey s w w.a (if verify then 7 else 6) (macFit x.alg) (fun k s => macEnd s w x verify k.alg k.material)))

/-- MAC_GENERATE and MAC_VERIFY. -/
def execMacGenerate (w : Work) (s : State) : Host.Outcome State Fault Refusal := .next (macCmd 0x0301 false w s)
def execMacVerify (w : Work) (s : State) : Host.Outcome State Fault Refusal := .next (macCmd 0x0302 true w s)

/-! ## Derived keys (07 R192) -/

/-- The derivation block: the derived key's algorithm, label and context, and the rest of the input; none where it is malformed. -/
def derivBlock (b : Bytes) : Option (Nat × Bytes × Bytes × Bytes) :=
  let l := leNat (sliceBytes b 4 2)
  let c := leNat (sliceBytes b 6 2)
  let n := pad8 (8 + l + c)
  let alg := byteAt b 0
  if ([1, 2, 3, 6].contains alg) ∧ leNat (sliceBytes b 1 3) = 0 ∧ 1 ≤ l ∧ l ≤ 64 ∧ c ≤ 1024 ∧ n ≤ b.length ∧
      ((b.take n).drop (8 + l + c)).all (fun x => decide (x = 0)) then
    some (alg, sliceBytes b 8 l, sliceBytes b (8 + l) c, b.drop n)
  else none

/-- The derived key under an AES key. -/
def derivedKey (alg kalg : Nat) (key label ctx : Bytes) : Bytes :=
  let n := algKeyLen alg
  ((List.range (ceilDiv n 16)).flatMap (fun i =>
    cmac kalg key (beBytes 4 (i + 1) ++ label ++ [0] ++ ctx ++ beBytes 4 (8 * n)))).take n

/-- A derived-key command: `ok` tests its fields on the derived algorithm and the rest of the input, `fin` ends it. -/
def derivedCmd (op : Nat) (w : Work) (s : State) (ok : Nat → Bytes → Bool) (fin : State → Nat → Bytes → Bytes → State) : State :=
  command op w s (fun s =>
    match derivBlock w.input with
    | none => endWith s w sMalformed
    | some (alg, label, ctx, rest) =>
      withChecks s w [(w.unused 1 && ok alg rest, sMalformed)] (fun s =>
        withKey s w w.a 5 isAesAlg (fun k s => fin s alg (derivedKey alg k.alg k.material label ctx) rest)))

def derivedSym (op : Nat) (enc : Bool) (w : Work) (s : State) : State :=
  derivedCmd op w s (fun alg rest =>
      let x := symV2 w enc rest
      x.fit alg && decide (x.mode ≠ 4) && x.fieldsOk w alg)
    (fun s alg key rest => symEnd s w ((symV2 w enc rest).run alg key []))

def derivedMac (op : Nat) (verify : Bool) (w : Work) (s : State) : State :=
  derivedCmd op w s (fun alg rest =>
      let x := macOf w verify rest
      x.ok && macFit x.alg alg && w.fits (if verify then 0 else x.len))
    (fun s alg key rest => macEnd s w (macOf w verify rest) verify alg key)

/-- The four derived-key commands. -/
def execDerivedEncipher (w : Work) (s : State) : Host.Outcome State Fault Refusal := .next (derivedSym 0x0601 true w s)
def execDerivedDecipher (w : Work) (s : State) : Host.Outcome State Fault Refusal := .next (derivedSym 0x0602 false w s)
def execDerivedMacGenerate (w : Work) (s : State) : Host.Outcome State Fault Refusal := .next (derivedMac 0x0603 false w s)
def execDerivedMacVerify (w : Work) (s : State) : Host.Outcome State Fault Refusal := .next (derivedMac 0x0604 true w s)

/-! ## RANDOM (07 R197) -/

/-- RANDOM. -/
def execRandom (w : Work) (s : State) : Host.Outcome State Fault Refusal :=
  .next (command 0x0801 w s (fun s =>
    let n := w.f 48 4
    withChecks s w [(w.unused 0 && decide (1 ≤ n) && decide (n ≤ 1048576) && w.z 52 64 && decide (w.len = 0) && w.fits n, sMalformed),
      (!s.rngStopped, sEntropy)] (fun s =>
      let d := drawBytes s n
      endWith d.2 w sOk d.1)))

/-! ## Queries (07 R177, R204) -/

/-- A query: its fields, then its result. -/
def query (op : Nat) (w : Work) (s : State) (ok : Bool) (n : Nat) (k : State → State) : State :=
  command op w s (fun s => withChecks s w [(ok && decide (w.len = 0) && w.fits n, sMalformed)] k)

/-- QUERY_VERSION. -/
def execQueryVersion (w : Work) (s : State) : Host.Outcome State Fault Refusal :=
  .next (query 0x0F00 w s (w.unused 0 && w.z 48 64) 8 (fun s => endWith s w sOk ([2, 1] ++ leBytes 1 s.commonVer ++ List.replicate 5 0)))

/-- The 48 bytes of KEY_INFO. -/
def keyInfo (r : KeyRec) : Bytes :=
  leBytes 4 r.handle ++ leBytes 1 r.state ++ leBytes 1 r.use ++ leBytes 1 (recFlags r) ++ leBytes 1 r.alg ++ leBytes 4 r.linked ++
    leBytes 8 (if r.counted then r.limit - r.uses else 0) ++ leBytes 1 r.kcvMethod ++ fitBytes 5 r.kcv ++ List.replicate 6 0 ++
    fitBytes 8 r.label ++ leBytes 6 r.grace ++ leBytes 2 r.focus

/-- KEY_INFO. -/
def execKeyInfo (w : Work) (s : State) : Host.Outcome State Fault Refusal :=
  .next (query 0x0F01 w s (w.unused 1 && w.z 48 64) 48 (fun s =>
    let f := keyFind s w.o false w.a.toNat
    if f.1 ≠ sOk then endWith s w f.1 else endWith s w sOk (keyInfo f.2)))

/-- The handles of KEY_LIST from an index on, and the next index to ask for. -/
def keyList (s : State) (o start n : Nat) : Bytes :=
  let base := spaceOf s o * 33554432
  let l := s.ks.recs.filter (fun e => decide (base + start ≤ e.1) && decide (e.1 < base + 33554432) && decide (e.2.owner = o) && e.2.live)
  let next := if l.length ≤ n then 0xFFFFFFFF else match (l.take n).getLast? with
    | some e => e.1 - base + 1
    | none => start
  leBytes 4 next ++ (l.take n).flatMap (fun e => leBytes 4 e.2.handle)

/-- KEY_LIST: as many handles as fit. -/
def execKeyList (w : Work) (s : State) : Host.Outcome State Fault Refusal :=
  .next (query 0x0F02 w s (w.unused 0 && decide (1 ≤ w.f 52 4) && decide (w.f 52 4 ≤ 65536) && w.z 56 64) 8 (fun s =>
    endWith s w sOk (keyList s w.o (w.f 48 4) (min (w.f 52 4) ((w.cap.toNat - 4) / 4)))))

/-- Flow contexts an owner holds. -/
def flowsHeld (s : State) (o : Nat) : Nat := (s.str.flows.filter (fun e => e.2.any (fun f => decide (f.owner = o)))).length

/-- OWNER_INFO. -/
def execOwnerInfo (w : Work) (s : State) : Host.Outcome State Fault Refusal :=
  .next (query 0x0F03 w s (w.unused 0 && w.z 48 64) 72 (fun s =>
    endWith s w sOk (ownerEntry w.o (s.owner w.o) ++ leBytes 4 (keysHeld s w.o) ++ leBytes 4 (flowsHeld s w.o))))

/-- Logical facets of a role. -/
def roleCount (s : State) (r : Nat) : Nat := ((validFacets s).filter (fun p => s.get F.FCT_MAP_ROLE p == r)).length

/-- DEVICE_INFO. -/
def execDeviceInfo (w : Work) (s : State) : Host.Outcome State Fault Refusal :=
  .next (query 0x0F04 w s (w.unused 0 && w.z 48 64) 64 (fun s =>
    endWith s w sOk (fitBytes 16 Config.serial ++ leBytes 2 (s.get F.DEV_ID_MODREV) ++ leBytes 1 (s.get F.DEV_ID_STEP) ++
      leBytes 1 (b2n (decide (s.get F.CLK_STATUS_MODE = 2))) ++ leBytes 1 (roleCount s 0) ++ leBytes 1 (roleCount s 1) ++
      leBytes 1 (roleCount s 2) ++ leBytes 1 (s.countMap mapSpare) ++ leBytes 1 s.wear.count ++ [0, 0, 0] ++ leBytes 4 6 ++
      List.replicate 32 0)))

end Sys2Proof.Machine
end

