-- ==== Sys2Proof/Machine/Assoc.lean ====
section
/-! DEFINITION. Machine/Assoc.lean: the stream association commands (07 R198, R199, 09 R243, R244, R248, R264, R267, R270). -/

namespace Sys2Proof.Machine

open Sys2Proof

/-! ## The association descriptor (09 R243, Table 09.4) -/

/-- Is a descriptor well formed for a direction, suite and port? -/
def descOk (s : State) (dir suite port : Nat) (d : Bytes) : Bool :=
  let n := fun (o k : Nat) => leNat (sliceBytes d o k)
  let mac := decide (suite < 4)
  let out := decide (dir = 1)
  let f25 := n 25 1
  let f49 := n 49 1
  let zero := fun (may : Bool) (o k : Nat) => may || decide (n o k = 0)
  s.is F.SP_CFG_SIDE port && zero mac 4 4 && zero (decide (suite = 2) || decide (suite = 3)) 8 4 && zero (decide (2 ≤ suite)) 12 12 &&
  decide (n 24 1 ≤ 3) && zero mac 24 1 &&
  decide (f25 < 8) && (!(f25.testBit 0) || (mac && out)) && (!(f25.testBit 1) || (mac && !out)) && (mac || f25.testBit 2) &&
  [0, 30, 50].contains (n 26 1) && (decide (n 26 1 = 0) || f25.testBit 2) &&
  (if mac then decide (n 27 1 = 0) else (s.get F.PRM_CAPS_SF_VERSIONS).testBit (n 27 1)) &&
  zero (mac && !out) 28 4 && decide (1 ≤ n 32 8) && (decide (2 ≤ suite) || decide (n 32 8 ≤ 0xFFFFFFFF)) && zero out 40 8 &&
  zero out 48 1 && decide (n 48 1 < s.subPorts port) && zero out 49 1 && decide (f49 < 8) && !(f49.testBit 0 && f49.testBit 1) &&
  decide (n 50 2 ≤ 4094) && zero (out && !(f49.testBit 0) && !(f49.testBit 1)) 50 2 && zero (out && !(f49.testBit 2)) 52 6 &&
  zero (!mac && out) 58 1 && (mac || !out || (decide (n 58 1 ≤ 15) && (byteAt (s.templ port (n 58 1) 14 1) 0).testBit 0)) && decide (n 59 5 = 0)

/-- Does another flow that is not withdrawn take the same frames (09 R244)? -/
def descClash (s : State) (dir suite port : Nat) (d : Bytes) : Bool :=
  (s.findFlow (fun f => decide (f.dir = dir) && decide (f.port = port) &&
    (if dir = 1 then decide (sliceBytes f.desc 48 10 = sliceBytes d 48 10)
     else decide (f.macsec = decide (suite < 4)) &&
      (if suite < 4 then decide (f.desc.take 8 = d.take 8) else decide (f.desc.take 4 = d.take 4))))).isSome

/-- The key's algorithm that a suite takes. -/
def suiteAlg (suite : Nat) : Nat := if suite = 0 ∨ suite = 2 then 1 else 3

/-- A slot's counters from the first PN it sends or accepts. A sealed flow's H is one below it, and the PNs below count as seen. -/
def newSlot (st dir suite an epoch first : Nat) (k : KeyRec) (now : Nat) : FSlot :=
  let sealedIn := decide (dir = 0) && decide (suite = 4)
  { FSlot.empty with
    st := st, key := k.material, alg := k.alg, handle := k.handle, epoch := epoch, an := an
    pn := if sealedIn then first - 1 else first, nextPn := first
    bitmap := if sealedIn ∧ 1 < first then 2 ^ 4096 - 1 else 0, mark := first + 4095, since := now }

/-- Flows of an owner, and sealed ingress flows of the device. -/
def sealedFlows (s : State) : Nat :=
  (s.str.flows.filter (fun e => e.2.any (fun f => decide (f.dir = 0) && decide (f.suite = 4)))).length

/-- Load the key of an association: a COUNTED key is refused (07 R199). -/
def flowKey (s : State) (w : Work) (dir suite : Nat) (k : KeyRec → State → State) : State :=
  let use := if dir = 1 then 1 else 2
  let c := keyCheck s w.o false w.acc w.a.toNat use
  withChecks s w [(decide (c.1 = sOk), c.1), (!c.2.counted, sKeyUse)] (fun s =>
    withKey s w w.a use (fun g => decide (g = suiteAlg suite)) k)

/-! ## The commands -/

/-- SA_INSTALL. -/
def saInstall (w : Work) (s : State) : State :=
  command 0x0A01 w s (fun s =>
    let i := w.f 48 4
    let dir := w.f 52 1
    let suite := w.f 53 1
    let port := w.f 54 1
    let k := w.f 55 1
    let d := w.input
    withChecks s w [
      (w.unused 1 && decide (i < 1048576) && decide (dir ≤ 1) && decide (suite ≤ 4) && decide (port < 16) && decide (k ≤ 1) && w.z 60 64 &&
        decide (w.len = 64) && w.fits 0 && descOk s dir suite port d, sMalformed),
      ((s.flow i).isNone && !(descClash s dir suite port d) && (s.owner w.o).ports.testBit port, sDenied)] (fun s =>
      flowKey s w dir suite (fun r s =>
        withChecks s w [(decide (s.str.flows.length < 1048576) && decide (flowsHeld s w.o < (s.owner w.o).flowQuota) &&
            !(decide (dir = 0) && decide (suite = 4) && decide (16384 ≤ sealedFlows s)), sQuota)] (fun s =>
          let x := newSlot 2 dir suite (byteAt d 24) (w.f 56 4) (leNat (sliceBytes d 32 8)) r s.now
          let f : Flow := { owner := w.o, dir := dir, suite := suite, port := port, desc := d, s0 := FSlot.empty, s1 := FSlot.empty
                            seqNext := 0, relNext := 0, counters := [], frames := 0, cells := 0, withdrawn := false, waiters := []
                            lastAuth := 0 }
          endWith (noteSoft (setFlow s i (some (f.setSlot k x))) w.o w.t) w sOk))))
def execSaInstall (w : Work) (s : State) : Host.Outcome State Fault Refusal := .next (saInstall w s)

/-- The installed flow of an owner; none for another owner's index, one not installed, and one withdrawn. -/
def ownFlow (s : State) (w : Work) : Option Flow := (s.flow (w.f 48 4)).bind (fun f => if f.owner = w.o ∧ !f.withdrawn then some f else none)

/-- Does an EPOCH_SWITCH entry, in whatever state it stands in the table, name an epoch of a flow (07 R199)? -/
def epochNamed (s : State) (i dir epoch : Nat) : Bool :=
  s.foc.table.any (fun e => e.2.any (fun x =>
    let n := fun (o k : Nat) => leNat (sliceBytes x.params o k)
    decide (x.typ = 2) && decide (n 0 4 ≤ i) && decide (i < n 0 4 + n 4 4) &&
      decide (n 8 4 = epoch) && (n 16 1).testBit (1 - dir)))

/-- SA_EPOCH_KEY. -/
def saEpochKey (w : Work) (s : State) : State :=
  command 0x0A02 w s (fun s =>
    let i := w.f 48 4
    let k := w.f 55 1
    withChecks s w [
      (w.unused 1 && decide (i < 1048576) && w.z 52 55 && decide (k ≤ 1) && w.z 60 64 && decide (w.len = 0) && w.fits 0, sMalformed)] (fun s =>
      match ownFlow s w with
      | none => endWith s w sDenied
      | some f =>
        let st := f.slotSt k
        withChecks s w [(decide (st < 2) && !(decide (st = 1) && epochNamed s i f.dir (f.slot k).epoch), sDenied)] (fun s =>
          flowKey s w f.dir f.suite (fun r s =>
            let an := if f.macsec then ((f.slot (1 - k)).an + 1) % 4 else 0
            let x := newSlot 1 f.dir f.suite an (w.f 56 4) 1 r s.now
            endWith (noteSoft (modFlow s i (fun f => f.setSlot k x)) w.o w.t) w sOk))))
def execSaEpochKey (w : Work) (s : State) : Host.Outcome State Fault Refusal := .next (saEpochKey w s)

/-- SA_WITHDRAW: it completes when the last frame in flight has left the collimator. -/
def saWithdraw (w : Work) (s : State) : State :=
  command 0x0A03 w s (fun s =>
    let i := w.f 48 4
    withChecks s w [(w.unused 0 && decide (i < 1048576) && w.z 52 64 && decide (w.len = 0) && w.fits 0, sMalformed),
      ((ownFlow s w).isSome, sDenied)] (fun s =>
      flowDrained (releaseFacet (modFlow s i (fun f => { f.withdraw with waiters := [(w.o, w.t)] })) w) i))
def execSaWithdraw (w : Work) (s : State) : Host.Outcome State Fault Refusal := .next (saWithdraw w s)

/-- SA_STATS. -/
def saStats (w : Work) (s : State) : State :=
  command 0x0A04 w s (fun s =>
    withChecks s w [(w.unused 0 && decide (w.f 48 4 < 1048576) && w.z 52 64 && decide (w.len = 0) && w.fits 128, sMalformed)] (fun s =>
      match ownFlow s w with
      | some f => endWith s w sOk (flowStats f)
      | none => endWith s w sDenied))
def execSaStats (w : Work) (s : State) : Host.Outcome State Fault Refusal := .next (saStats w s)

end Sys2Proof.Machine
end

