-- ==== Sys2Proof/Machine/FacetHash.lean ====
section
/-! DEFINITION. Machine/FacetHash.lean: a facet's hash unit and check-value unit (02 R48, 12 R327). -/

namespace Sys2Proof.Machine

open Sys2Proof

/-- Feed bytes to the hash unit, counting its input blocks. -/
def hashFeed (s : State) (p : Nat) (d : Bytes) : State :=
  match (s.facet p).hash with
  | none => s
  | some x =>
    let n := (x.fed.length + d.length) / hashBlock x.alg - x.fed.length / hashBlock x.alg
    perf (s.modFacet p (fun f => { f with hash := some { x with fed := x.fed ++ d } })) p 8 n

/-- HINIT: a keyed computation takes its key from K, which must hold MACGEN or MACVER (02 R48, R35). A SHAKE has no HMAC. -/
def execHinit (h : Slot) (alg : Fin 12) (keyed : Bool) (s : State) : Host.Outcome State Fault Refusal :=
  .next (if keyed then
      if 10 ≤ alg.val then issue h s [] (fun s => badCode s h.p)
      else issueK h s [] (fun k s =>
        if (k.use = 6 ∨ k.use = 7) ∧ classOk k.use (s.facet h.p).cls then
          s.modFacet h.p (fun f => { f with hash := some ⟨alg.val, true, k.key, k.use, []⟩ })
        else badUse s h.p)
    else issue h s [] (fun s => s.modFacet h.p (fun f => { f with hash := some ⟨alg.val, false, [], 0, []⟩ })))

/-- HUPD: bytes of memory, or an open block register (02 R46). With no computation started it feeds nothing. -/
def execHupd (h : Slot) (src : HashSrc) (s : State) : Host.Outcome State Fault Refusal :=
  .next (match src with
    | .mem s1 s2 => issue h s [s1.val, s2.val] (fun s =>
        let n := (getG s h.p s2).toNat
        if n = 0 then s
        else loadBytes h s (getG s h.p s1).toNat n (fun d s => hashFeed s h.p d))
    | .blk b => issueLens h s [] (fun s =>
        if (getB s h.p b).sld then badSeal s h.p else hashFeed s h.p (blockBytes (getB s h.p b).val)))

/-- The finished hash or HMAC. -/
def HashSt.result (x : HashSt) : Bytes := if x.keyed then hmac x.alg x.key x.fed else hashBytes x.alg x.fed

/-- HFIN: the result to memory, or its first 16 bytes to a block register (log entry 25). Under MACVER it is sealed, so that
memory cannot take it (02 R48, R46). -/
def execHfin (h : Slot) (dst : HashDst) (s : State) : Host.Outcome State Fault Refusal :=
  .next (match dst with
    | .mem s1 => issue h s [s1.val] (fun s => match (s.facet h.p).hash with
        | none => s
        | some x =>
          if x.keyed ∧ x.use = 7 then badSeal s h.p
          else storeBytes h (s.modFacet h.p (fun f => { f with hash := none })) (getG s h.p s1).toNat x.result)
    | .blk b => issueLens h s [] (fun s => match (s.facet h.p).hash with
        | none => s
        | some x => setB (s.modFacet h.p (fun f => { f with hash := none })) h.p b
            (bres (blockOf x.result) (x.keyed && decide (x.use = 7)))))

/-- HSAVE: unkeyed state to the data SRAM work region; keyed state cannot be saved (02 R48). -/
def execHsave (h : Slot) (s1 : GR) (s : State) : Host.Outcome State Fault Refusal :=
  .next (issue h s [s1.val] (fun s =>
    let p := h.p.val
    let a := (getG s p s1).toNat
    match (s.facet p).hash with
    | none => s
    | some x =>
      if x.keyed then abandon s p 4 sDenied
      else
        let d := Config.hashImage x.alg x.fed
        if within a (max 1 d.length) 0x10000 0x1FFFF then
          storeBytes h (s.modFacet p (fun f => { f with hsaved := tset none f.hsaved a (some x) })) a d
        else badAddr s p))

/-- HREST: the state that HSAVE left at the address, if its image still stands there; other bytes hold no saved state, and
the hash unit keeps what it had (log entry 26). -/
def execHrest (h : Slot) (s1 : GR) (s : State) : Host.Outcome State Fault Refusal :=
  .next (issue h s [s1.val] (fun s =>
    let p := h.p.val
    let a := (getG s p s1).toNat
    match tget none (s.facet p).hsaved a with
    | none => s
    | some x =>
      let n := (Config.hashImage x.alg x.fed).length
      loadBytes h s a (max 1 n) (fun d s =>
        if d.take n = Config.hashImage x.alg x.fed then s.modFacet p (fun f => { f with hash := some x }) else s)))

/-! ## Check-value unit (12 R327) -/

/-- CVINIT: context in g[s1]; polynomial and context flag in bits [2:0] of g[s2], its other bits 0. -/
def execCvinit (h : Slot) (s1 s2 : GR) (s : State) : Host.Outcome State Fault Refusal :=
  .next (issue h s [s1.val, s2.val] (fun s =>
    let m := (getG s h.p s2).toNat
    if 8 ≤ m then badCode s h.p
    else s.modFacet h.p (fun f => { f with
      cvu := some ⟨m % 4, cvStart (m % 4) (if 4 ≤ m then some (getG s h.p s1).toNat else none)⟩ })))

/-- CVUPD: g[s2] bytes, 1 to 4,096, from the address in g[s1]; another count is a reserved encoding (log entry 27). -/
def execCvupd (h : Slot) (s1 s2 : GR) (s : State) : Host.Outcome State Fault Refusal :=
  .next (issue h s [s1.val, s2.val] (fun s =>
    let n := (getG s h.p s2).toNat
    if n = 0 ∨ 4096 < n then badCode s h.p
    else loadBytes h s (getG s h.p s1).toNat n (fun d s => s.modFacet h.p (fun f => { f with
      cvu := f.cvu.map (fun c => { c with reg := cvFeed c.poly c.reg d }) }))))

/-- CVFIN: the finished value, zero-extended; the computation stays open. With none open it reads 0 (log entry 27). -/
def execCvfin (h : Slot) (d : GR) (s : State) : Host.Outcome State Fault Refusal :=
  .next (issue h s [d.val] (fun s => setG s h.p d (match (s.facet h.p).cvu with
    | some c => BitVec.ofNat 64 (cvFinish c.poly c.reg)
    | none => 0)))

end Sys2Proof.Machine
end

