-- ==== Sys2Proof/Machine/FacetInt.lean ====
section
/-! DEFINITION. Machine/FacetInt.lean: a facet's integer arithmetic, branches and jumps (03 Table 03.3 majors 0x00 to
0x0C). -/

namespace Sys2Proof.Machine

open Sys2Proof

/-- An A-format instruction on two general registers. -/
def aluA (h : Slot) (d s1 s2 : GR) (f : W64 → W64 → W64) (s : State) : State :=
  issue h s [d.val, s1.val, s2.val] (fun s => setG s h.p d (f (getG s h.p s1) (getG s h.p s2)))

/-- ADDC and SUBB: the carry flag in and out (03 R56). -/
def aluC (h : Slot) (d s1 s2 : GR) (f : W64 → W64 → Bool → W64 × Bool) (s : State) : State :=
  issue h s [d.val, s1.val, s2.val] (fun s =>
    let r := f (getG s h.p s1) (getG s h.p s2) (s.facet h.p).c
    setC (setG s h.p d r.1) h.p r.2)

/-- An I-format instruction: register and sign-extended immediate. -/
def aluI (h : Slot) (d s1 : GR) (imm : BitVec 16) (f : W64 → W64 → W64) (s : State) : State :=
  issue h s [d.val, s1.val] (fun s => setG s h.p d (f (getG s h.p s1) (simm imm)))

/-- A shift; an amount of 64 or more gives a free value (log entry 12). -/
def shiftBy (kind : Nat) (f : W64 → Nat → W64) (a b : W64) : W64 :=
  if b.toNat < 64 then f a b.toNat else Config.longShift kind a b

/-- 1 where the condition holds, else 0. -/
def bit64 (c : Bool) : W64 := if c then 1 else 0

/-- The high half of a product: free where the signed and the unsigned reading differ (log entry 13). -/
def mulHi (a b : W64) : W64 :=
  let u := BitVec.ofNat 64 (a.toNat * b.toNat / 2 ^ 64)
  let g := BitVec.ofInt 64 (a.toInt * b.toInt / 2 ^ 64)
  if u = g then u else Config.mulHigh a b

/-- Leave for another instruction; a taken branch or jump discards the second instruction of its pair (03 R56). -/
def goTo (h : Slot) (s : State) (t : Nat) : State :=
  s.modFacet h.p (fun f => { f with pc := t, squash := h.paired })

/-- The target of a branch: the offset counts instructions from the branch or from the instruction after it (log entry 14). -/
def branchTarget (next : Nat) (off : BitVec 16) : Nat :=
  ((next : Int) - (if Config.branchFromNext then 0 else 1) + off.toInt).toNat

/-- A conditional branch. -/
def branchIf (h : Slot) (s1 s2 : GR) (off : BitVec 16) (c : W64 → W64 → Bool) (s : State) : State :=
  issue h s [s1.val, s2.val] (fun s =>
    if c (getG s h.p s1) (getG s h.p s2) then goTo h s (branchTarget (s.facet h.p).pc off) else s)

/-- Less than, as BLT and BGE compare: signed or unsigned is free (log entry 15). -/
def branchLess (a b : W64) : Bool := if Config.branchSigned then a.slt b else a.ult b

def execAdd (h : Slot) (d s1 s2 : GR) (s : State) : Host.Outcome State Fault Refusal := .next (aluA h d s1 s2 (· + ·) s)
def execSub (h : Slot) (d s1 s2 : GR) (s : State) : Host.Outcome State Fault Refusal := .next (aluA h d s1 s2 (· - ·) s)
def execAddc (h : Slot) (d s1 s2 : GR) (s : State) : Host.Outcome State Fault Refusal := .next (aluC h d s1 s2 addCarry s)
def execSubb (h : Slot) (d s1 s2 : GR) (s : State) : Host.Outcome State Fault Refusal := .next (aluC h d s1 s2 subBorrow s)
def execAnd (h : Slot) (d s1 s2 : GR) (s : State) : Host.Outcome State Fault Refusal := .next (aluA h d s1 s2 (· &&& ·) s)
def execOr (h : Slot) (d s1 s2 : GR) (s : State) : Host.Outcome State Fault Refusal := .next (aluA h d s1 s2 (· ||| ·) s)
def execXor (h : Slot) (d s1 s2 : GR) (s : State) : Host.Outcome State Fault Refusal := .next (aluA h d s1 s2 (· ^^^ ·) s)
def execShl (h : Slot) (d s1 s2 : GR) (s : State) : Host.Outcome State Fault Refusal :=
  .next (aluA h d s1 s2 (shiftBy 0 (fun a n => a <<< n)) s)
def execShr (h : Slot) (d s1 s2 : GR) (s : State) : Host.Outcome State Fault Refusal :=
  .next (aluA h d s1 s2 (shiftBy 1 (fun a n => a >>> n)) s)
def execSar (h : Slot) (d s1 s2 : GR) (s : State) : Host.Outcome State Fault Refusal :=
  .next (aluA h d s1 s2 (shiftBy 2 (fun a n => a.sshiftRight n)) s)
def execSlt (h : Slot) (d s1 s2 : GR) (s : State) : Host.Outcome State Fault Refusal :=
  .next (aluA h d s1 s2 (fun a b => bit64 (a.slt b)) s)
def execSltu (h : Slot) (d s1 s2 : GR) (s : State) : Host.Outcome State Fault Refusal :=
  .next (aluA h d s1 s2 (fun a b => bit64 (a.ult b)) s)
def execMul (h : Slot) (d s1 s2 : GR) (s : State) : Host.Outcome State Fault Refusal := .next (aluA h d s1 s2 (· * ·) s)
def execMulh (h : Slot) (d s1 s2 : GR) (s : State) : Host.Outcome State Fault Refusal := .next (aluA h d s1 s2 mulHi s)

def execAddi (h : Slot) (d s1 : GR) (imm : BitVec 16) (s : State) : Host.Outcome State Fault Refusal :=
  .next (aluI h d s1 imm (· + ·) s)
def execAndi (h : Slot) (d s1 : GR) (imm : BitVec 16) (s : State) : Host.Outcome State Fault Refusal :=
  .next (aluI h d s1 imm (· &&& ·) s)
def execOri (h : Slot) (d s1 : GR) (imm : BitVec 16) (s : State) : Host.Outcome State Fault Refusal :=
  .next (aluI h d s1 imm (· ||| ·) s)
def execXori (h : Slot) (d s1 : GR) (imm : BitVec 16) (s : State) : Host.Outcome State Fault Refusal :=
  .next (aluI h d s1 imm (· ^^^ ·) s)
def execSlti (h : Slot) (d s1 : GR) (imm : BitVec 16) (s : State) : Host.Outcome State Fault Refusal :=
  .next (aluI h d s1 imm (fun a b => bit64 (a.slt b)) s)
/-- LUI writes its immediate shifted left by 16 (03, the annotated program). -/
def execLui (h : Slot) (d : GR) (imm : BitVec 16) (s : State) : Host.Outcome State Fault Refusal :=
  .next (issue h s [d.val] (fun s => setG s h.p d (simm imm <<< 16)))

/-- JR: the register holds an instruction offset (log entry 14). -/
def execJr (h : Slot) (s1 : GR) (s : State) : Host.Outcome State Fault Refusal :=
  .next (issue h s [s1.val] (fun s => goTo h s (getG s h.p s1).toNat))
def execBeq (h : Slot) (s1 s2 : GR) (off : BitVec 16) (s : State) : Host.Outcome State Fault Refusal :=
  .next (branchIf h s1 s2 off (fun a b => a == b) s)
def execBne (h : Slot) (s1 s2 : GR) (off : BitVec 16) (s : State) : Host.Outcome State Fault Refusal :=
  .next (branchIf h s1 s2 off (fun a b => a != b) s)
def execBlt (h : Slot) (s1 s2 : GR) (off : BitVec 16) (s : State) : Host.Outcome State Fault Refusal :=
  .next (branchIf h s1 s2 off branchLess s)
def execBge (h : Slot) (s1 s2 : GR) (off : BitVec 16) (s : State) : Host.Outcome State Fault Refusal :=
  .next (branchIf h s1 s2 off (fun a b => !(branchLess a b)) s)
def execJ (h : Slot) (off : BitVec 16) (s : State) : Host.Outcome State Fault Refusal :=
  .next (issue h s [] (fun s => goTo h s (branchTarget (s.facet h.p).pc off)))

end Sys2Proof.Machine
end

