-- ==== Sys2Proof/Machine/Owners.lean ====
section
/-! DEFINITION. Machine/Owners.lean: the owner table, owner states, resets and erases (05 R143, R144; 07 R202, R203; 14 R359 to R371). -/

namespace Sys2Proof.Machine

open Sys2Proof

/-- Events of 14: recovered records dropped by a squash, a restore ended. -/
def evSquashed : Nat := 0x0C01
def evOwnerBack : Nat := 0x0C02

/-! ## Owner states -/

/-- A locked or running TDI goes to ERROR (14 R380). -/
def tdiError (f : FnSt) : FnSt := if f.tdi = 1 ∨ f.tdi = 2 then { f with tdi := 3 } else f

/-- Change the functions that satisfy `q`. -/
def modFns (s : State) (q : Nat → FnSt → Bool) (g : FnSt → FnSt) : State :=
  { s with fns := tmap FnSt.zero (fun k f => if q k f then g f else f) s.fns }

/-- An owner's state changes (14 Table 14.2). Its functions latch STATE_CHG; their TDIs go to ERROR when it leaves ACTIVE, unless
`own`: by a reset that it submitted itself. -/
def ownerTo (s : State) (o st : Nat) (own : Bool := false) : State :=
  let x := s.owner o
  if x.state = st then s
  else
    let s := writeOwner s o { x with state := st }
    let s := modFns s (fun _ f => decide (f.owner = o)) (fun f =>
      let f := { f with chg := true }
      if x.state = oActive ∧ !own then tdiError f else f)
    acceptOwner s o

/-- Complete the commands that wait on an owner's reset or freeze. -/
def endWaiters (s : State) (o : Nat) : State :=
  let l := (s.owner o).waiters
  let s := modOwner s o (fun x => { x with waiters := [] })
  l.foldl (fun (s : State) (e : Nat × Nat) => finishCustody (noteChange s e.1 e.2 sOk []) e.1 e.2 sOk []) s

/-- The contexts that the image binds to an owner, ascending: a context's place is its queue ordinal (14 R373). -/
def State.ownerCtxs (s : State) (o : Nat) : List Nat :=
  (s.jr.queues.map Prod.fst).filter (fun c => (s.queue c).bound && decide (s.ctxOwner c = o))

/-- The pages of an owner, of its own space. -/
def State.ownerPages (s : State) (o : Nat) : List Nat :=
  (s.ks.leaves.map Prod.fst).filter (fun p => decide (128 ≤ p % 1048576) && decide ((s.leaf p).owner = o) && decide (pageSpace p = spaceOf s o))

/-- Re-seal pages; each with the version it took. -/
def resealAll (s : State) (l : List Nat) : List (Nat × Nat) × State :=
  l.foldl (fun (acc : List (Nat × Nat) × State) p =>
    let s := resealPage acc.2 p
    (acc.1 ++ [(p, (s.leaf p).cur)], s)) ([], s)

/-! ## OWNER_SET (14 R359, R366) -/

/-- May OWNER_SET write byte `k` of the entry? -/
def ownerWritable (k : Nat) : Bool := decide (k ≠ 0) && decide (k ≠ 5) && decide (k < 44)

/-- The fields that an entry's bytes give. -/
def ownerFields (x : Owner) (b : Bytes) : Owner :=
  let n := fun (o k : Nat) => leNat (sliceBytes b o k)
  { x with mode := n 1 1, weight := n 2 1, hxCap := n 3 1, facetCap := n 4 1, ports := n 6 2, cmdRate := n 8 4, cmdDepth := n 12 4
           byteRate := n 16 8, byteDepth := n 24 8, keyQuota := n 32 4, flowQuota := n 36 4, cred := n 40 4 }

/-- Is a handle a VERIFY extended record of the owner (14 Table 14.1)? -/
def credOk (s : State) (o h : Nat) : Bool :=
  let r := s.krec (kidx s o h)
  decide (h = 0) || (r.live && decide (r.handle = h) && decide (r.owner = o) && r.ext && decide (r.use = 9))

/-- The fields of an entry: first byte, length, and whether its value is in range (14 Table 14.1). -/
def ownerRanges (s : State) (o : Nat) (b : Bytes) : List (Nat × Nat × Bool) :=
  let n := fun (a k : Nat) => leNat (sliceBytes b a k)
  let within := fun (a k lo hi : Nat) => (a, k, decide (lo ≤ n a k) && decide (n a k ≤ hi))
  [within 1 1 0 3, within 2 1 1 255, within 3 1 1 8, within 4 1 1 64, within 8 4 0 400000000, within 12 4 1 16777216,
    within 16 8 0 10000000000000, within 24 8 65536 1099511627776, within 32 4 0 33554432, within 36 4 0 1048576,
    (40, 4, credOk s o (n 40 4))]

/-- The entry's bytes with the image's under the mask. -/
def maskedEntry (s : State) (o mask : Nat) (image : Bytes) : Bytes :=
  let old := ownerEntry o (s.owner o)
  (List.range 64).map (fun k => if mask.testBit k then image.getD k 0 else old.getD k 0)

/-- The mask covers writable bytes only, and every written field is in range. -/
def setOk (s : State) (o mask : Nat) (image : Bytes) : Bool :=
  (List.range 64).all (fun k => !(mask.testBit k) || ownerWritable k) &&
    (ownerRanges s o (maskedEntry s o mask image)).all (fun f =>
      f.2.2 || !((List.range f.2.1).any (fun k => mask.testBit (f.1 + k))))

/-- What a change of an owner's mode does (06 R155, R168; 14 R380). Entries that are not accepted yet are read again under the new mode (06 R153). -/
def modeChanged (s : State) (o old : Nat) : State :=
  let new := (s.owner o).mode
  if new = old then s
  else
    let s := modFns s (fun _ f => decide (f.owner = o) && decide (new < f.mode)) tdiError
    (s.ownerCtxs o).foldl (fun (s : State) c =>
      let s := writeMark (unreadAll s c) c
      let s := if old = 0 ∧ (s.ctxRecs c).any (fun e => decide (e.2.mode = 0)) then modQueue s c (fun q => { q with modeWait := true }) else s
      showQueue s c) s

/-- OWNER_SET. -/
def ownerSet (w : Work) (s : State) : State :=
  command 0x0C01 w s (fun s =>
    let o := w.f 48 2
    let mask := w.f 56 8
    withChecks s w [(decide (w.o = 0), sDenied),
      (w.unused 0 && decide (o < 4096) && w.z 50 56 && decide (w.len = 64) && w.fits 0 && setOk s o mask w.input, sMalformed),
      (decide ((s.owner o).state ≠ oAbsent), sDenied)] (fun s =>
      let x := s.owner o
      let s := writeOwner s o (cutBuckets (ownerFields x (maskedEntry s o mask w.input)))
      endChange (modeChanged s o x.mode) w sOk))
def execOwnerSet (w : Work) (s : State) : Host.Outcome State Fault Refusal := .next (ownerSet w s)

/-! ## Owner reset (14 R368 to R370, 07 R203) -/

/-- Is a record drained or squashed by its owner's reset: accepted before it, and not the reset itself? -/
def inReset (x : Owner) (r : JRec) : Bool := beforeReset x r && !(x.waiters.contains (r.owner, r.tag))

/-- Drop an owner's recovered records; `keep` leaves a recovered reset or erase to be answered (14 R368, R370). -/
def dropRecovered (s : State) (o : Nat) (keep : Bool) : State :=
  let hit := fun (r : JRec) => decide (r.owner = o) && (decide (r.st = .recAccepted) || decide (r.st = .recDone)) &&
    !(keep && (decide (r.opcode = 0x0C02) || decide (r.opcode = 0x0140)))
  let n := jrCount s hit
  let s := s.jr.recs.foldl (fun (s : State) e => match e.2 with
    | some r => if hit r then forgetTag (jrSet s e.1 none) r.owner r.tag else s
    | none => s) s
  let s := (s.ownerCtxs o).foldl (fun (s : State) c =>
    let left := jrCount s (fun r => decide (r.ctx = c) && (decide (r.st = .recAccepted) || decide (r.st = .recDone)))
    showQueue (s.poke F.QP_STATUS_RECOVER_LEFT left c) c) s
  let s := if n = 0 then s else showQueues s
  if n = 0 then s else event s 3 evSquashed stewardSrc o (leBytes 4 n)

/-- The squash of an owner's work: ACCEPTED records complete, parked operations end after their running unit, recovered records are
dropped. -/
def squashOwner (s : State) (o : Nat) : State :=
  let x := s.owner o
  let s := s.jr.recs.foldl (fun (s : State) e => match e.2 with
    | some r =>
      if r.owner = o ∧ inReset x r ∧ r.st = .accepted ∧ !r.answer ∧ r.comp.isNone then compSettle (jrComplete s e.1 sSquashed 0 []) e.1
      else s
    | none => s) s
  let s := s.hx.ops.foldl (fun (s : State) y =>
    let mine := decide (y.owner = o) && y.result.isNone && (match jrRunning s y.owner y.tag with
      | some (_, r) => inReset x r
      | none => !(x.waiters.contains (y.owner, y.tag)))
    if !mine then s
    else if y.waits then hxResult s y sSquashed
    else modOp s y (fun z => { z with squash := true })) s
  dropRecovered s o false

/-- OWNER_RESET executes: it starts a reset, or joins the one in progress (R369). -/
def resetStart (s : State) (w : Work) (o : Nat) (squash : Bool) : State :=
  let x := s.owner o
  let self := decide (w.o = o)
  let own := match jrRunning s w.o w.t with
    | some (_, r) => (r.ctx, r.aseq, r.sec * secNs + r.ns)
    | none => (16384, 0, w.acc)
  let first := decide (x.state = oActive)
  let s := setOwner s o { x with
    squash := squash || (!first && x.squash), selfReset := self && (first || x.selfReset)
    resetCtx := if first then own.1 else x.resetCtx, resetAseq := if first then own.2.1 else x.resetAseq
    resetAcc := if first then own.2.2 else x.resetAcc, waiters := x.waiters ++ [(w.o, w.t)] }
  let s := ownerTo s o oResetting self
  let s := if (s.owner o).squash then squashOwner s o else s
  releaseFacet s w

/-- OWNER_RESET. -/
def ownerReset (w : Work) (s : State) : State :=
  command 0x0C02 w s (fun s =>
    let o := w.f 48 2
    withChecks s w [(w.mayTarget, sDenied),
      (w.unused 0 && decide (o < 4096) && decide (w.f 50 1 ≤ 1) && w.z 51 64 && decide (w.len = 0) && w.fits 0, sMalformed),
      (decide ((s.owner o).state = oActive) || decide ((s.owner o).state = oResetting), sDenied)] (fun s =>
      resetStart s w o (decide (w.f 50 1 = 1))))
def execOwnerReset (w : Work) (s : State) : Host.Outcome State Fault Refusal := .next (ownerReset w s)

/-- No work of the owner that its reset drains or squashes is left, and every completion due has been posted. -/
def resetDrained (s : State) (o : Nat) : Bool :=
  let x := s.owner o
  s.jr.recs.all (fun e => match e.2 with
    | some r => decide (r.owner ≠ o) || !(inReset x r) ||
        !(decide (r.st = .accepted) || decide (r.st = .executing) || (decide (r.st = .done) && r.cq.isNone) ||
          (!x.squash && (decide (r.st = .recAccepted) || decide (r.st = .recDone))))
    | none => true) && s.hx.ops.all (fun y => decide (y.owner ≠ o))

/-- A reset has completed: full buckets, deficits 0, and ACTIVE again. -/
def resetEnd (s : State) (o : Nat) : State :=
  let s := modOwner s o (fun x => { x with
    cmdTok := x.cmdDepth * tokenUnit, byteTok := ((x.byteDepth * tokenUnit : Nat) : Int), deficit := 0, hxDeficit := 0
    squash := false, selfReset := false, resetCtx := 0, resetAseq := 0, resetAcc := 0 })
  endWaiters (ownerTo s o oActive) o

/-! ## Owner erase (05 R143) -/

/-- The root record of an owner (04 R81). -/
def rootRec (o : Nat) (secret : Bytes) : KeyRec :=
  { KeyRec.empty with handle := mkHandle 1 o, state := kActive, alg := 0xF0, klen := 32, material := secret }

/-- A page of an erased owner: its records, bodies and granules go, and its leaf is unallocated; only the version count stays, so
that no version repeats. -/
def erasePage (s : State) (p : Nat) : State :=
  let own := decide (pageSpace p = 0)
  let s := (List.range 32).foldl (fun (s : State) k =>
    let i := p * 32 + k
    let r := s.krec i
    let base := idxSpace i * 16777216
    let s := if mirrored i r then
        mirrorOut s (spaceHome s (idxSpace i)) mkRecord (i % 33554432) (recBytes KeyRec.empty (i % 33554432 * 128) ++ leBytes 8 (s.leaf p).cur)
      else s
    let s := if r.ext then setGranules s (base + r.granule) r.granules 0 else s
    let s := if r.ext ∧ own then { s with gmem := memZero s.gmem (0x1100000000 + r.granule * 512) (r.granules * 512) } else s
    setKs s { s.ks with recs := tset KeyRec.empty s.ks.recs i KeyRec.empty, bodies := tset none s.ks.bodies i none
                        marks := tset 0 s.ks.marks (spaceHandle i r.handle) 0, wiping := sdel s.ks.wiping i
                        cache := tset none s.ks.cache i none, poison := s.ks.poison.filter (fun x => decide (x.index ≠ i)) }) s
  let s := if own then { s with gmem := memZero s.gmem (0x1000000000 + p * 4096) 4096 } else s
  let s := setLeaf s p { Leaf.free with cur := (s.leaf p).cur }
  let hit := fun (x : PageSlot) => decide (x.kind = 0) && decide (x.space * 1048576 + x.page = p)
  setKs s { s.ks with
    toSeal := sdel s.ks.toSeal p, asked := sdel s.ks.asked p, await := sdel s.ks.await p
    cand := tset none s.ks.cand p none, pendExp := s.ks.pendExp.filter (fun x => !(hit x))
    ring := s.ks.ring.map (fun x => if hit x then { x with kind := 4 } else x)
    tree := tset [] s.ks.tree (p / 16) (groupDigest (p / 16) s.leaf) }

/-- Steps 2 to 6 of R143, once the squash has ended; the owner is ACTIVE when record o's page is durable. -/
def eraseOwner (s : State) (o : Nat) : State :=
  let s := (s.ownerPages o).foldl (fun (s : State) p => erasePage s p) s
  let s := s.str.flows.foldl (fun (s : State) e => match e.2 with
    | some f => if f.owner = o then flowDrained (modFlow s e.1 Flow.withdraw) e.1 else s
    | none => s) s
  let d := drawBytes s 32
  let i := spaceOf s o * 33554432 + o
  let s := changeRec d.2 i (rootRec o d.1)
  let s := { s with slots := s.slots.filter (fun x => decide (x.owner ≠ o)), sessions := s.sessions.filter (fun x => decide (x.owner ≠ o)) }
  let x := s.owner o
  let keep := x.challenges.filter (fun c => x.waiters.any (fun e => c.tag == some (tagKey e.1 e.2)))
  let s := setCustody s o { x with custodians := [], policy := [], challenges := keep, nonce := [], saveSec := 0 }
  let s := deriveOwnerKey s o
  let r := resealAll s [pageOf i]
  setKs r.2 { r.2.ks with sets := r.2.ks.sets ++ [⟨2, o, 0, 0, r.1, []⟩] }

/-- The steps that follow the drain or squash of an owner's reset or erase. -/
def resetComplete (o : Nat) (s : State) : State :=
  let x := s.owner o
  if !(decide (x.state = oResetting) || x.erasing) || !(resetDrained s o) then s
  else if !x.erasing then resetEnd s o
  else if s.ks.sets.any (fun y => decide (y.what = 2) && decide (y.target = o)) then s
  else eraseOwner s o
def execOwnerResetComplete (o : Fin 4096) (s : State) : Host.Outcome State Fault Refusal := .next (resetComplete o.val s)

/-- OWNER_ERASE: the squash of step 1; the rest follows it. -/
def ownerErase (w : Work) (s : State) : State :=
  command 0x0140 w s (fun s => withQuorum s w 0x0140 8 (w.f 48 2) (fun body _ s =>
    let o := w.f 48 2
    withChecks s w [(w.mayTarget, sDenied),
      (w.unused 0 && decide (o < 4096) && w.z 50 64 && decide (body = []) && w.fits 0, sMalformed),
      (decide (o ≠ 0) && decide ((s.owner o).state ≠ oAbsent), sDenied)] (fun s =>
      let x := s.owner o
      let s := setOwner s o { x with squash := true, selfReset := false, erasing := true, waiters := x.waiters ++ [(w.o, w.t)] }
      let s := if x.state = oActive then ownerTo s o oResetting else s
      let s := modFns s (fun _ f => decide (f.owner = o)) tdiError
      releaseFacet (squashOwner s o) w)))
def execOwnerErase (w : Work) (s : State) : Host.Outcome State Fault Refusal := .next (ownerErase w s)

/-- DEVICE_ERASE: the share goes and S-reset follows, by the path of an erase-class tamper response (05 R144). Its completion is
never posted. -/
def deviceErase (w : Work) (s : State) : State :=
  command 0x0141 w s (fun s => withQuorum s w 0x0141 8 0 (fun body _ s =>
    withChecks s w [(decide (w.o = 0), sDenied), (w.unused 0 && w.z 48 64 && decide (body = []) && w.fits 0, sMalformed)] (fun s =>
      requestReset (eraseShare (mirrorRelease (goDark s))) 5 2)))
def execDeviceErase (w : Work) (s : State) : Host.Outcome State Fault Refusal := .next (deviceErase w s)

/-! ## Freeze (14 R371) -/

/-- OWNER_FREEZE. -/
def ownerFreeze (w : Work) (s : State) : State :=
  command 0x0C03 w s (fun s =>
    let o := w.f 48 2
    withChecks s w [(decide (w.o = 0), sDenied),
      (w.unused 0 && decide (o < 4096) && w.z 50 64 && decide (w.len = 0) && w.fits 0, sMalformed),
      (decide (o ≠ 0) && decide ((s.owner o).state = oActive), sDenied)] (fun s =>
      let s := modOwner s o (fun x => { x with waiters := x.waiters ++ [(w.o, w.t)] })
      releaseFacet (ownerTo s o oFrozen) w))
def execOwnerFreeze (w : Work) (s : State) : Host.Outcome State Fault Refusal := .next (ownerFreeze w s)

/-- Has an owner no EXECUTING record and no parked operation? -/
def frozenIdle (s : State) (o : Nat) : Bool :=
  s.jr.recs.all (fun e => match e.2 with
    | some r => !(decide (r.owner = o) && decide (r.st = .executing))
    | none => true) && s.hx.ops.all (fun y => decide (y.owner ≠ o))

/-- FREEZE_DRAINED: OWNER_FREEZE completes. -/
def freezeDrained (o : Nat) (s : State) : State :=
  if (s.owner o).state = oFrozen ∧ !(s.owner o).erasing ∧ frozenIdle s o then endWaiters s o else s
def execFreezeDrained (o : Fin 4096) (s : State) : Host.Outcome State Fault Refusal := .next (freezeDrained o.val s)

end Sys2Proof.Machine
end

