-- ==== Sys2Proof/Machine/Migration.lean ====
section
/-! DEFINITION. Machine/Migration.lean: an owner's journal records as bytes, the migration blob, save, restore and thaw, and the page
sets that end them (06 Table 06.15; 14 R372 to R377). -/

namespace Sys2Proof.Machine

open Sys2Proof

/-! ## Journal records as bytes (06 Tables 06.15 and 06.17) -/

/-- Does a half of 64 bytes carry the CRC of its address (06 R166)? -/
def halfOk (addr : Nat) (b : Bytes) : Bool := decide (leNat (sliceBytes b 60 4) = crc32c addr (b.take 60))

/-- The completion half of 64 bytes. -/
def compParse (b : Bytes) : Comp :=
  let n := fun (o k : Nat) => leNat (sliceBytes b o k)
  ⟨n 8 2, n 12 4, n 16 6, n 22 4, sliceBytes b 28 32⟩

/-- A recovered record from an acceptance half, a completion half, and the submission and result where they are kept (06 R170). -/
def jrParse (acc : Bytes) (comp : Option Bytes) (sub result : Bytes) (ctx : Nat) : JRec :=
  let n := fun (o k : Nat) => leNat (sliceBytes acc o k)
  let c := (comp.map compParse)
  { st := if c.isSome then .recDone else .recAccepted, tag := n 0 6, owner := n 6 2, ctx := ctx, mode := n 10 1, flags := n 11 1
    aseq := n 12 8, sec := n 20 6, ns := n 26 4, opcode := n 30 2, batch := n 32 8, digest := sliceBytes acc 40 12, gap := n 52 4
    answer := decide (n 56 1 = 1), orig := 0, slot := none, accMram := true, compMram := true, accAck := false, compAck := false
    comp := c, sub := sub, result := result
    held := (match c with
      | some x => decide (x.len ≤ 256)
      | none => false)
    pre := none, cq := none, facet := 0, parked := false, again := false, ahNext := 0, flr := false, recovered := false }

/-- Give a recovered record a free place in the journal, and an MRAM slot in modes 1 and 3; acceptance goes on from its time (06 R151, R152). -/
def jrInstall (s : State) (r : JRec) : State :=
  let i := lowestFree (s.jr.recs.length + 1) 0 (fun k => (tget none s.jr.recs k).isSome)
  let slot := lowestFree (s.jr.recs.length + 1) 0 (fun k => s.jr.recs.any (fun e => (e.2.bind (fun r => r.slot)) == some k))
  let s := jrSet s i (some { r with slot := if r.mode = 0 then none else some slot })
  let t := r.sec * 1000000000 + r.ns
  let s := modQueue s r.ctx (fun q => { q with lastAcc := max q.lastAcc t, lastBatch := if q.lastAcc ≤ t then r.batch else q.lastBatch })
  showQueue (s.poke F.QP_STATUS_RECOVER_LEFT (s.get F.QP_STATUS_RECOVER_LEFT r.ctx + 1) r.ctx) r.ctx

/-! ## Device keys (05 Table 05.1) -/

/-- The scalar of a P-384 device key. -/
def deviceScalar (s : State) (e f : String) : Bytes :=
  beBytes 48 (beNat (kdf (rootSecret s) e [] ++ (kdf (rootSecret s) f []).take 16) % (groupN 0x22 - 1) + 1)

/-- A device key pair by algorithm: signing (ML-DSA-87, P-384), agreement (ML-KEM-1024, ECDH P-384). -/
def deviceKey (s : State) (agree : Bool) (alg : Nat) : Bytes × Bytes :=
  Config.pkFromSeed alg (
    if alg = 0x3A then kdf (rootSecret s) "PH64-DSIG-M" []
    else if alg = 0x32 then kdf (rootSecret s) "PH64-DKEM-D" [] ++ kdf (rootSecret s) "PH64-DKEM-Z" []
    else if agree then deviceScalar s "PH64-DECDH-E" "PH64-DECDH-F"
    else deviceScalar s "PH64-DSIG-E" "PH64-DSIG-F")

/-- A signature block of scheme 1 by the device signing keys. -/
def deviceSign (s : State) (m : Bytes) : Bytes × State :=
  let r := s.free
  let r2 := r.2.free
  let a := Config.pkSign 0x3A (deviceKey s false 0x3A).1 [] [] m r.1
  let b := Config.pkSign 0x22 (deviceKey s false 0x22).1 [] [] (sha384 m) r2.1
  (leBytes 2 1 ++ [0, 0] ++ leBytes 4 (sigLen 0x3A + sigLen 0x22) ++ fitBytes (sigLen 0x3A) a ++ fitBytes (sigLen 0x22) b, r2.2)

/-- The public keys of a device certificate that a signature block verifies under. -/
def certSigns (cert blk m : Bytes) : Bool :=
  decide (leNat (sliceBytes blk 0 2) = 1) && sigBlockOk (fun alg => Config.certKey cert alg) blk m

/-- The entry of the ring member table that satisfies `q`. -/
def memberOf (s : State) (q : Bytes → Bool) : Option (Bytes × Nat × Bytes) :=
  match s.ring.table.filter (fun e => q e.1) with
  | [e] => some e
  | _ => none

/-! ## The blob (14 R373) -/

/-- A body section with its header. -/
def section_ (typ : Nat) (b : Bytes) : Bytes := leBytes 2 typ ++ [0, 0] ++ leBytes 4 b.length ++ b

/-- An owner's unreleased records other than answers, with their indexes. -/
def unreleased (s : State) (o : Nat) : List (Nat × JRec) :=
  s.jr.recs.filterMap (fun e => match e.2 with
    | some r => if r.owner = o ∧ !r.answer ∧ r.st ≠ .stamped then some (e.1, r) else none
    | none => none)

/-- The lease marks of an owner's records. -/
def ownerMarks (s : State) (o : Nat) : List (Nat × Nat) :=
  s.ks.marks.filter (fun e => decide (e.1 / 4294967296 = spaceOf s o) && decide ((s.krec (kidx s o (e.1 % 4294967296))).owner = o) &&
    decide ((s.krec (kidx s o (e.1 % 4294967296))).handle = e.1 % 4294967296))

/-- The tag of a page's newest sealed version. -/
def pageTag (s : State) (p : Nat) : Bytes :=
  ((s.ks.pendExp.filter (fun x => decide (x.kind = 0) && decide (x.space * 1048576 + x.page = p) && decide (x.version = (s.leaf p).cur))).map
    (fun x => x.tag)).headD []

/-- The bucket levels in whole tokens, signed. -/
def levelBytes (x : Owner) : Bytes :=
  leBytes 8 (x.cmdTok / tokenUnit) ++ leBytes 8 (BitVec.ofInt 64 (x.byteTok / ((tokenUnit : Nat) : Int))).toNat

/-- The body of the blob, after the pages were re-sealed. -/
def blobBody (s : State) (o : Nat) (tk : Bytes) : Bytes :=
  let x := s.owner o
  let qs := s.ownerCtxs o
  section_ 1 (ownerEntry o x ++ levelBytes x) ++ section_ 2 ((custodyBytes { x with challenges := [] }).take 128 ++ fitBytes 16 x.pol) ++
    section_ 3 tk ++
    section_ 4 ((s.ownerPages o).flatMap (fun p => leBytes 4 (p % 1048576) ++ leBytes 1 (liveCount (pageRecs s p)) ++ [0, 0, 0] ++
      leBytes 8 (s.leaf p).cur ++ fitBytes 16 (pageTag s p))) ++
    section_ 5 ((ownerMarks s o).flatMap (fun e => leBytes 4 e.1 ++ [0, 0, 0, 0] ++ leBytes 8 e.2)) ++
    section_ 6 ((List.range qs.length).flatMap (fun k => qdurBytes (0x1800000 + qs.getD k 0 * 32) (qs.getD k 0) (tget QDur.zero s.jr.durable (qs.getD k 0)))) ++
    section_ 7 ((unreleased s o).flatMap (fun e =>
      let b := jrBytes e.1 e.2
      b.take 8 ++ leBytes 2 (qs.findIdx (fun c => c == e.2.ctx)) ++ b.drop 10))

/-- The length of the blob that a save returns. -/
def blobLen (s : State) (o : Nat) : Nat :=
  1736 + 7 * 8 + 80 + 144 + 32 + 32 * (s.ownerPages o).length + 16 * (ownerMarks s o).length + 32 * (s.ownerCtxs o).length +
    448 * (unreleased s o).length + 16 + 8 + sigLen 0x3A + sigLen 0x22

/-- Seal the body for a destination and sign the blob. -/
def sealBlob (s : State) (o : Nat) (dest : Bytes × Nat × Bytes) (body : Bytes) : Bytes × State :=
  let id := drawBytes s 8
  let r := id.2.free
  let r2 := r.2.free
  let s := r2.2
  let kem := Config.kemEncap 0x32 (Config.certKey dest.2.2 0x32) r.1
  let eph := Config.pkKeygen 0x22 0 0 r2.1
  let ecdh := Config.pkAgree 0x22 eph.1 (Config.certKey dest.2.2 0x22)
  let head := leBytes 4 0x4D494752 ++ [1, 0] ++ leBytes 2 o ++ fitBytes 16 Config.serial ++ fitBytes 16 dest.1 ++ leBytes 6 s.nowSec ++
    leBytes 4 s.nowNs ++ id.1 ++ leBytes 4 body.length ++ [0, 0]
  let aad := head ++ fitBytes 1568 kem.2 ++ [4] ++ fitBytes 96 eph.2 ++ List.replicate 7 0
  let key := kdf (kem.1 ++ ecdh) "PH64-MIGR" head
  let iv := id.1 ++ [0, 0, 0, 0]
  let c := gcmCrypt 3 key iv body
  let m := aad ++ c ++ gcmTag 3 key iv aad c
  let d := deviceSign s m
  (m ++ d.1, d.2)

/-! ## OWNER_SAVE (14 R372) -/

/-- OWNER_SAVE. -/
def ownerSave (w : Work) (s : State) : State :=
  command 0x0C04 w s (fun s =>
    let o := w.f 48 2
    let x := s.owner o
    let dest := (memberOf s (fun b => decide (sliceBytes b 8 8 = sliceBytes w.inl 4 8))).bind (fun e =>
      if e.1 ≠ Config.serial ∧ e.2.2 ≠ [] then some e else none)
    withChecks s w [(decide (w.o = 0), sDenied),
      (w.unused 0 && decide (o < 4096) && w.z 50 52 && w.z 60 64 && decide (w.len = 0) && w.fits (blobLen s o), sMalformed),
      ((decide (x.state = oFrozen) || decide (x.state = oSaved)) && decide (o ≠ 0), sDenied),
      (dest.isSome, sDenied),
      (!(s.foc.table.any (fun e => e.2.any (fun f => decide (f.st = fArmed) && decide (f.owner = o) &&
        (decide (f.typ = 1) || decide (f.typ = 5))))), sDenied),
      (decide ((unreleased s o).length ≤ 32768), sQuota), (!s.rngStopped, sEntropy)] (fun s =>
      match dest with
      | none => endWith s w sDenied
      | some e =>
        let n := drawBytes s 16
        let s := setOwner n.2 o { x with nonce := n.1, saveSec := s.nowSec }
        let tk := saveKey s o n.1
        let s := deriveOwnerKey s o
        let r := resealAll s (s.ownerPages o)
        let b := sealBlob r.2 o e (blobBody r.2 o tk)
        let s := setKs b.2 { b.2.ks with sets := b.2.ks.sets ++ [⟨0, o, w.o, w.t, r.1, b.1⟩] }
        releaseFacet s w))

/-! ## OWNER_RESTORE (14 R374, R375) -/

/-- The sections of a body: type and content; none where the structure is not that of 14 Table 14.8. -/
def sections (fuel typ : Nat) (b : Bytes) : Option (List Bytes) :=
  match fuel with
  | 0 => if b.isEmpty then some [] else none
  | n + 1 =>
    let len := leNat (sliceBytes b 4 4)
    if b.length < 8 + len ∨ leNat (sliceBytes b 0 2) ≠ typ ∨ sliceBytes b 2 2 ≠ [0, 0] then none
    else (sections n (typ + 1) (b.drop (8 + len))).map (fun l => (b.drop 8).take len :: l)

/-- The sections' lengths. -/
def sectionsOk (l : List Bytes) : Bool :=
  let n := fun (k : Nat) => (l.getD k []).length
  decide (l.length = 7) && decide (n 0 = 80) && decide (n 1 = 144) && decide (n 2 = 32) && decide (n 3 % 32 = 0) &&
    decide (n 4 % 16 = 0) && decide (n 5 % 32 = 0) && decide (n 6 % 448 = 0)

/-- The body key of a blob at its destination. -/
def blobKey (s : State) (b : Bytes) : Bytes :=
  let kem := Config.kemDecap 0x32 (deviceKey s true 0x32).1 (sliceBytes b 64 1568)
  let ecdh := Config.pkAgree 0x22 (deviceKey s true 0x22).1 (sliceBytes b 1633 96)
  kdf (kem ++ ecdh) "PH64-MIGR" (b.take 64)

/-- Check 1 on what is in clear: magic, format, reserved fields and lengths. -/
def blobHead (b : Bytes) : Bool :=
  let n := fun (o k : Nat) => leNat (sliceBytes b o k)
  decide (n 0 4 = 0x4D494752) && decide (n 4 1 = 1) && decide (n 5 1 = 0) && decide (n 62 2 = 0) && decide (n 1729 7 = 0) &&
    decide (n 1632 1 = 4) && decide (b.length = 1736 + n 58 4 + 16 + 8 + sigLen 0x3A + sigLen 0x22)

/-- The restored owner's queues: their durable entries and the recovered records of the blob. -/
def restoreQueues (s : State) (o : Nat) (l : List Bytes) : State :=
  let qs := s.ownerCtxs o
  let entries := pieces 32 (l.getD 5 [])
  let s := (List.range entries.length).foldl (fun (s : State) k =>
    let e := entries.getD k []
    let c := qs.getD k 0
    let d : QDur := ⟨leNat (e.take 8), leNat (sliceBytes e 8 8), leNat (sliceBytes e 18 1)⟩
    let s := setJr s { s.jr with durable := tset QDur.zero s.jr.durable c d }
    s.put64 F.QP_ASEQ_LO d.next c) s
  (pieces 448 (l.getD 6 [])).foldl (fun (s : State) r =>
    let c := qs.getD (leNat (sliceBytes r 8 2)) 0
    let comp := sliceBytes r 64 64
    jrInstall s { jrParse (r.take 64) (if comp.all (fun b => decide (b = 0)) then none else some comp) (sliceBytes r 128 64)
      (sliceBytes r 192 256) c with owner := o }) s

/-- The pages of the blob: index, live records, version and tag. -/
def blobPages (l : List Bytes) : List (Nat × Nat × Nat × Bytes) :=
  (pieces 32 (l.getD 3 [])).map (fun e => (leNat (e.take 4), leNat (sliceBytes e 4 1), leNat (sliceBytes e 8 8), sliceBytes e 16 16))

/-- The steps of R375 up to RESTORING. -/
def restoreOwner (s : State) (o : Nat) (b : Bytes) (l : List Bytes) : State :=
  let e := l.getD 0 []
  let tk := l.getD 2 []
  let x := s.owner o
  let cust := l.getD 1 []
  let custodians := (List.range 8).foldl (fun (t : Tab (Option Custodian)) k =>
    let c := sliceBytes cust (16 * k) 16
    if byteAt c 4 = 1 then tset none t k (some ⟨leNat (c.take 4), leNat (sliceBytes c 6 2), leNat (sliceBytes c 8 6)⟩) else t) []
  let x := { ownerFields x (e.take 64) with
    cmdTok := leNat (sliceBytes e 64 8) * tokenUnit
    byteTok := (BitVec.ofNat 64 (leNat (sliceBytes e 72 8))).toInt * ((tokenUnit : Nat) : Int)
    custodians := custodians, policy := sliceBytes cust 128 16 }
  let s := writeOwner (setCustody s o x) o x
  let ids := s.blobIds ++ [sliceBytes b 50 8]
  let s := { s with blobIds := ids.drop (ids.length - 256), slots := s.slots ++ [⟨o, tk, b.take 1736⟩]
                    ownKeys := tset none s.ownKeys o (some tk) }
  let base := spaceOf s o * 1048576
  let s := (blobPages l).foldl (fun (s : State) p =>
    let s := setLeaf s (base + p.1) ⟨p.2.2.1, p.2.2.1, p.2.2.2, o, p.2.1, false, false, false, false, o⟩
    let g := (base + p.1) / 16
    setKs s { s.ks with tree := tset [] s.ks.tree g (groupDigest g s.leaf), groups := sput s.ks.groups g
                        await := sput s.ks.await (base + p.1) }) s
  let s := (pieces 16 (l.getD 4 [])).foldl (fun (s : State) m =>
    setKs s { s.ks with marks := tset 0 s.ks.marks (spaceOf s o * 4294967296 + leNat (m.take 4)) (leNat (sliceBytes m 8 8)) }) s
  ownerTo (restoreQueues s o l) o oRestoring

/-- OWNER_RESTORE. -/
def ownerRestore (w : Work) (s : State) : State :=
  command 0x0C05 w s (fun s =>
    let o := w.f 48 2
    let b := w.input
    let n := fun (a k : Nat) => leNat (sliceBytes b a k)
    let len := n 58 4
    withChecks s w [(decide (w.o = 0), sDenied),
      (w.unused 0 && decide (o < 4096) && w.z 50 64 && w.fits 0 && blobHead b, sMalformed)] (fun s =>
      let c := (b.drop 1736).take len
      let key := blobKey s b
      let iv := sliceBytes b 50 8 ++ [0, 0, 0, 0]
      let tagOk := decide (gcmTag 3 key iv (b.take 1736) c = sliceBytes b (1736 + len) 16)
      let src := memberOf s (fun x => decide (x = sliceBytes b 8 16))
      let auth := decide (sliceBytes b 24 16 = Config.serial) && tagOk && decide (n 6 2 = o) && (match src with
        | some e => certSigns e.2.2 (b.drop (1752 + len)) (b.take (1752 + len))
        | none => false)
      let l := sections 7 1 (gcmCrypt 3 key iv c)
      let ps := blobPages (l.getD [])
      let base := spaceOf s o * 1048576
      let live := (ps.map (fun p => p.2.1)).foldl (fun a k => a + k) 0
      let x := s.owner o
      let save := n 40 6 * secNs + n 46 4
      withChecks s w [(!tagOk || (l.any sectionsOk), sMalformed), (auth, sDenied),
        (decide (s.now ≤ save + 3600 * secNs) && decide (save ≤ s.now + 60 * secNs) && !(s.blobIds.contains (sliceBytes b 50 8)), sDenied),
        (decide (x.state = oActive) && decide (o ≠ 0) && decide (keysHeld s o = 0) && (unreleased s o).isEmpty &&
          s.str.flows.all (fun e => !(e.2.any (fun f => decide (f.owner = o)))), sDenied),
        (decide ((pieces 32 ((l.getD []).getD 5 [])).length ≤ (s.ownerCtxs o).length), sDenied),
        (ps.all (fun p => decide (p.1 < 1048576) && decide (128 ≤ p.1) && decide ((s.leaf (base + p.1)).owner = 0xFFFF)) &&
          decide (protectedBytes s + live * 128 ≤ 6442450944) &&
          decide (live ≤ leNat (sliceBytes ((l.getD []).getD 0 []) 32 4)) && decide (s.slots.length < 16), sQuota)] (fun s =>
        endChange (restoreOwner s o b (l.getD [])) w sOk)))
def execOwnerRestore (w : Work) (s : State) : Host.Outcome State Fault Refusal := .next (ownerRestore w s)

/-! ## Thaw, and the ends of page sets -/

/-- A page set is durable. -/
def setDurable (s : State) (x : PageSet) : Bool := x.pages.all (fun p => decide (p.2 ≤ (s.leaf p.1).dur))

/-- What follows a durable page set. -/
def setEnd (s : State) (x : PageSet) : State :=
  let o := x.target
  let fin := fun (s : State) => finishCustody (noteChange s x.owner x.tag sOk x.result) x.owner x.tag sOk x.result
  match x.what with
  | 0 => fin (if (s.owner o).state = oFrozen then ownerTo s o oSaved else s)
  | 1 => fin (if (s.owner o).state = oSaved then ownerTo s o oActive else s)
  | 2 =>
    let s := modOwner s o (fun y => { y with erasing := false })
    if (s.owner o).state = oStandby then endWaiters { s with own := tmod Owner.absent s.own o (fun y => { y with squash := false }) } o
    else resetEnd s o
  | _ =>
    let s := { s with slots := s.slots.filter (fun y => decide (y.owner ≠ o)) }
    let s := modOwner s o (fun y => { y with home := s.nodeId })
    event (ownerTo s o oFrozen) 1 evOwnerBack stewardSrc o

/-- End the page sets that are durable. -/
def setsSettle (s : State) : State :=
  let done := s.ks.sets.filter (setDurable s)
  done.foldl setEnd (setKs s { s.ks with sets := s.ks.sets.filter (fun x => !(setDurable s x)) })

/-- TREE_BATCH_COMMIT (04 R98, R102). -/
def execTreeBatchCommit (s : State) : Host.Outcome State Fault Refusal := .next (setsSettle (treeCommit s))
def execOwnerSave (w : Work) (s : State) : Host.Outcome State Fault Refusal := .next (setsSettle (ownerSave w s))

/-- OWNER_THAW: a SAVED owner's pages return to the node's own key first (R376). -/
def ownerThaw (w : Work) (s : State) : State :=
  command 0x0C06 w s (fun s =>
    let o := w.f 48 2
    let x := s.owner o
    withChecks s w [(decide (w.o = 0), sDenied),
      (w.unused 0 && decide (o < 4096) && w.z 50 64 && decide (w.len = 0) && w.fits 0, sMalformed),
      (decide (x.state = oFrozen) || (decide (x.state = oSaved) && decide (x.saveSec + 3660 ≤ s.nowSec)), sDenied)] (fun s =>
      let s := modOwner s o (fun y => { y with nonce := [] })
      let r := if x.nonce = [] then ([], s) else resealAll (deriveOwnerKey s o) (s.ownerPages o)
      if x.state = oFrozen then endChange (ownerTo r.2 o oActive) w sOk
      else releaseFacet (setKs r.2 { r.2.ks with sets := r.2.ks.sets ++ [⟨1, o, w.o, w.t, r.1, []⟩] }) w))
def execOwnerThaw (w : Work) (s : State) : Host.Outcome State Fault Refusal := .next (setsSettle (ownerThaw w s))

/-- RESTORE_PAGES_LIVE: the records take origin 4, restored from a migration blob (04 Table 04.1), and the pages are re-sealed under this node's key; when they are durable the owner is FROZEN (R375). -/
def restorePagesLive (o : Nat) (s : State) : State :=
  if (s.owner o).state ≠ oRestoring ∨ s.ks.await.any (fun p => decide ((s.leaf p).owner = o)) ∨
      s.ks.sets.any (fun x => decide (x.what = 3) && decide (x.target = o)) then s
  else
    let s := { s with ownKeys := tset none s.ownKeys o (some (ownerKey s o)) }
    let pages := (s.ownerPages o).filter (fun p => !((s.leaf p).lost))
    let s := setKs s { s.ks with recs := tmap KeyRec.empty (fun i r =>
      if pages.contains (pageOf i) ∧ r.live then { r with origin := 4 } else r) s.ks.recs }
    let r := resealAll s pages
    setsSettle (setKs r.2 { r.2.ks with sets := r.2.ks.sets ++ [⟨3, o, 0, 0, r.1, []⟩] })
def execRestorePagesLive (o : Fin 4096) (s : State) : Host.Outcome State Fault Refusal := .next (restorePagesLive o.val s)

end Sys2Proof.Machine
end

