-- ==== Sys2Proof/Machine/Router.lean ====
section
/-! DEFINITION. Machine/Router.lean: the commands of the event router and the event recorder (16). -/

namespace Sys2Proof.Machine

open Sys2Proof

/-- Event codes of 16, numbered in the order of first call (16 R414). -/
def evPrioFail : Nat := 0x0E01
def evPrioLocked : Nat := 0x0E02
def evEvrWriter : Nat := 0x0E03

/-- May the agent write the global EVR and LOG registers (16 R412)? -/
def State.evrWriter (s : State) (a : Agent) : Bool := s.isPrimary a

/-- The agent that owns a target (16 R407): 0 the steward, n + 1 the PF of Hn, 5 the Periscope controller. -/
def evOwner (t : Nat) (a : Agent) : Bool :=
  match a with
  | .steward => decide (t = 0)
  | .fn f => decide (t = f.port.val + 1) && f.vf.isNone
  | .psc => decide (t = 5)

/-- The event of a write from a function that may not write (16 R412). -/
def evrDenied (s : State) : State := event s 2 evEvrWriter 140

/-- The 2,048 bytes of EVR_PRIO in source order (16 R410). -/
def State.prioBytes (s : State) : Bytes := (List.range 512).flatMap (fun w => leBytes 4 (s.reg (0x4800 + 4 * w)).toNat)

/-- Does the priority table pass its check (16 R410)? -/
def State.prioGood (s : State) : Bool := decide (crc32c 0x4800 s.prioBytes = s.get F.EVR_PRIO_CV)

/-- A failed priority check: fall-back mode, PRIO_EN and MODE cleared, CV_FAIL set, event (16 R410). -/
def prioFail (s : State) : State :=
  let s := (s.poke F.EVR_CTRL_PRIO_EN 0).poke F.EVR_CTRL_MODE 0
  evSettle (event (s.raise F.EVR_STATUS_CV_FAIL) 4 evPrioFail 140)

/-- 16 R401: a group's hold-off timer expires; every latched source of the group becomes pending. -/
def execHoldoffExpiry (g : Fin 64) (s : State) : Host.Outcome State Fault Refusal :=
  let inGroup := fun (x : Nat) => decide (x / 32 = g.val)
  let freed := s.evr.held.any inGroup
  let s := { s with evr := { s.evr with held := s.evr.held.filter (fun x => !(inGroup x)), timers := sdel s.evr.timers g.val } }
  .next (if freed then evSettle s else s)

/-- 16 R407: a read of EVR_CLAIM by agent `a` on target page `t`. The value read goes to `rdata`. -/
def claimRead (a : Agent) (t : Nat) (s : State) : State :=
  if s.outOfReach a 0x6000 then { s with rdata := 0 }
  else if !(evOwner t a) then { s with rdata := 2047 }
  else
    let off := tget 0 s.evr.offer t
    if off ≠ 0 then
      let s := { s with rdata := BitVec.ofNat 64 (off - 1), evr := { s.evr with
        claims := tset [] s.evr.claims t ((off - 1) :: s.evStack t)
        withdrawn := sdel s.evr.withdrawn t } }
      evSettle s
    else if s.evr.withdrawn.contains t then
      ({ s with rdata := 2047, evr := { s.evr with withdrawn := sdel s.evr.withdrawn t } }).incSat F.EVR_STATUS_SPURIOUS
    else { s with rdata := 2047 }

def execEvrClaimRead (a : Agent) (t : Fin 6) (s : State) : Host.Outcome State Fault Refusal := .next (claimRead a t.val s)

/-- 16 R408: a write of EVR_COMPLETE. A source that returns to pending is not held by a running timer (16 R401). -/
def completeWrite (a : Agent) (t src : Nat) (s : State) : State :=
  if s.outOfReach a 0x6000 then s
  else if !(evOwner t a) then evrDenied s
  else match s.evStack t with
    | top :: rest =>
      if top = src ∧ src ≠ 2047 then
        evSettle { s with evr := { s.evr with claims := tset [] s.evr.claims t rest, held := sdel s.evr.held src } }
      else s.raise F.EVR_STATUS_CMPL_ERR
    | [] => s.raise F.EVR_STATUS_CMPL_ERR

def execEvrCompleteWrite (a : Agent) (t : Fin 6) (src : Fin 2048) (s : State) : Host.Outcome State Fault Refusal :=
  .next (completeWrite a t.val src.val s)

/-- 16 R409: a PRIGROUP write takes effect once every stack is empty. -/
def prigroup (a : Agent) (v : BitVec 3) (s : State) : State :=
  if s.outOfReach a 0x4000 then s
  else if !(s.evrWriter a) then evrDenied s
  else
    let s := s.poke F.EVR_PRIGROUP_G v.toNat
    let s := { s with evr := { s.evr with gWait := some v.toNat } }
    evSettle (s.poke F.EVR_STATUS_PG_PENDING (if s.evr.claims = [] then 0 else 1))
def execPrigroupWrite (a : Agent) (v : BitVec 3) (s : State) : Host.Outcome State Fault Refusal := .next (prigroup a v s)

/-- 16 R410: PRIO_EN = 1 checks the table; a match enters priority mode. -/
def prioEnable (a : Agent) (s : State) : State :=
  if s.outOfReach a 0x4000 then s
  else if !(s.evrWriter a) then evrDenied s
  else if s.prioGood then evSettle ((s.poke F.EVR_CTRL_PRIO_EN 1).poke F.EVR_CTRL_MODE 1)
  else prioFail s
def execPrioEnable (a : Agent) (s : State) : Host.Outcome State Fault Refusal := .next (prioEnable a s)

/-- 16 R410: PRIO_EN = 0 returns to fall-back mode in the same cycle. -/
def prioDisable (a : Agent) (s : State) : State :=
  if s.outOfReach a 0x4000 then s
  else if !(s.evrWriter a) then evrDenied s
  else evSettle ((s.poke F.EVR_CTRL_PRIO_EN 0).poke F.EVR_CTRL_MODE 0)
def execPrioDisable (a : Agent) (s : State) : Host.Outcome State Fault Refusal := .next (prioDisable a s)

/-- 16 R410: the check repeated each mt and on a parity error in the table, while priority mode is requested. -/
def execPrioTableCheck (parityError : Bool) (s : State) : Host.Outcome State Fault Refusal :=
  if s.is F.EVR_CTRL_PRIO_EN && (parityError || !s.prioGood) then .next (prioFail s) else .next s

/-- 16 R399, Table 16.3: each bit written 1 is a setting event of source 1,984 + k. -/
def swSet (mask : Word) (s : State) : State :=
  (List.range 32).foldl (fun s k => if mask.toNat.testBit k then evLatch s (1984 + k) else s) s

def execEvrSwsetWrite (a : Agent) (mask : Word) (s : State) : Host.Outcome State Fault Refusal :=
  .next (if s.outOfReach a 0x4000 then s else if !(s.evrWriter a) then evrDenied s else swSet mask s)

/-- A target becomes available (16 Table 16.2). -/
def targetCome (t : Nat) (s : State) : State := evSettle { s with evr := { s.evr with avail := sput s.evr.avail t } }

/-- 16 R405: a target becomes unavailable: its claims count as completed and its stack is emptied. -/
def targetGone (t : Nat) (s : State) : State :=
  evSettle { s with evr := { s.evr with
    avail := sdel s.evr.avail t, claims := tset [] s.evr.claims t [], held := s.evr.held.filter (fun x => !((s.evStack t).contains x)) } }

def execTargetUnavailable (t : Fin 6) (s : State) : Host.Outcome State Fault Refusal := .next (targetGone t.val s)

/-- 16 R417: the flush every 1,024 mt. -/
def execEventFlushTimer (s : State) : Host.Outcome State Fault Refusal := .next (logFlush s)

/-- 16 R417: a write of LOG_CTRL.FLUSH. -/
def execLogFlush (a : Agent) (s : State) : Host.Outcome State Fault Refusal :=
  .next (if s.outOfReach a 0x8000 then s else if !(s.evrWriter a) then evrDenied s else logFlush s)

/-- The record of a sequence number and its CRC context: from the buffer, else from the MRAM log (16 R419). -/
def logFind (s : State) (q : Nat) : Option Bytes :=
  match s.log.buf.find? (fun r => r.seq == q) with
  | some r => some (r.bytes r.idx)
  | none =>
    match tfind (fun _ e => match e with
        | some r => r.seq == q
        | none => false) s.log.mram with
    | some (k, some r) => some (r.bytes (0x1600000 + 64 * k))
    | _ => none

/-- 16 R419: the write of LOG_SEL_HI copies the selected record into LOG_WIN. -/
def logSelect (hi : Word) (s : State) : State :=
  let s := s.poke F.LOG_SEL_HI hi.toNat
  match logFind s (s.get F.LOG_SEL_LO + hi.toNat * 4294967296) with
  | some b =>
    let s := (List.range 16).foldl (fun s k => s.poke F.LOG_WIN (leNat (sliceBytes b (4 * k) 4)) k) s
    s.poke F.LOG_STATUS_SEL_VALID 1
  | none =>
    let s := (List.range 16).foldl (fun s k => s.poke F.LOG_WIN 0 k) s
    s.poke F.LOG_STATUS_SEL_VALID 0

def execLogSelect (a : Agent) (hi : Word) (s : State) : Host.Outcome State Fault Refusal :=
  .next (if s.outOfReach a 0x8000 then s else if !(s.evrWriter a) then evrDenied s else logSelect hi s)

end Sys2Proof.Machine
end

