-- ==== Sys2Proof/Machine/Functions.lean ====
section
/-! DEFINITION. Machine/Functions.lean: function level resets, SPDM, IDE and TDISP (14 R355 to R358, R378 to R381). -/

namespace Sys2Proof.Machine

open Sys2Proof

def State.hport (s : State) (p : Nat) : HPort := tget HPort.zero s.hports p
def setHport (s : State) (p : Nat) (h : HPort) : State := { s with hports := tset HPort.zero s.hports p h }
def State.fn (s : State) (n : Nat) : FnSt := tget FnSt.zero s.fns n
def setFn (s : State) (n : Nat) (f : FnSt) : State := { s with fns := tset FnSt.zero s.fns n f }

/-! ## Function level reset (14 R357, R358) -/

/-- Return the registers of a queue context to their S-reset values, but for QP_ID, which the image sets, and the next ASEQ. -/
def ctxClear (s : State) (c : Nat) : State :=
  let base := 0x400000 + 64 * c
  { s with regs := s.regs.filterMap (fun e =>
      if base ≤ e.1 ∧ e.1 < base + 64 ∧ e.1 ≠ base + 0x2C ∧ e.1 ≠ base + 0x30 ∧ e.1 ≠ base + 0x34 then
        let v := resetOne 1 e.1 e.2
        if v = resetWord e.1 then none else some (e.1, v)
      else some e) }

/-- Records of a queue at a function level reset: entries read and not accepted go; running ones become recovered when they are
done; unreleased ones are recovered; answers are dropped. -/
def flrRecords (s : State) (c : Nat) : State :=
  (s.ctxRecs c).foldl (fun (s : State) e =>
    let r := e.2
    let back := { r with cq := none, pre := none, again := false }
    match r.st with
    | .stamped => unread s e.1 r
    | .accepted | .executing =>
      if r.answer then jrSet s e.1 none
      else if r.comp.isSome then jrSet s e.1 (some { back with st := .recDone })
      else jrSet s e.1 (some { r with flr := true })
    | .done | .releasing => if r.answer then jrSet s e.1 none else jrSet s e.1 (some { back with st := .recDone })
    | .recAccepted | .recDone => s) s

/-- A function's queues stop, their records are recovered, and their contexts are cleared (14 R358). -/
def flrOne (s : State) (fn : Nat) : State :=
  let s := ((s.jr.queues.map Prod.fst).filter (fun c => (s.queue c).bound && decide (s.ctxFn c = fn))).foldl (fun (s : State) c =>
    let s := ctxClear (flrRecords (unreadAll s c) c) c
    let q := s.queue c
    let s := setQueue s c { Queue.zero with bound := true, standby := q.standby, gap := q.gap, relAck := q.relAck, modeWait := q.modeWait && (s.ctxRecs c).any (fun e => decide (e.2.mode = 0)), lastAcc := q.lastAcc, lastBatch := q.lastBatch }
    let left := jrCount s (fun r => decide (r.ctx = c) && (decide (r.st = .recAccepted) || decide (r.st = .recDone)))
    showQueue (s.poke F.QP_STATUS_RECOVER_LEFT left c) c) s
  let f := tdiError (s.fn fn)
  let s := { setFn s fn { f with cfg := 0, msix := [], pba := [], held := [] } with latches := s.latches.filter (fun e => decide (e.1 / 16777216 ≠ fn)) }
  if fn % 2048 = 0 then targetGone (fn / 2048 + 1) s else s

/-- A function level reset; that of a PF clears VF Enable and so takes every VF of the port along. -/
def flr (f : FnId) (s : State) : State :=
  match f.vf with
  | some v => if s.fnPresent (fnNum f) ∧ v.val < 1024 then flrOne s (fnNum f) else s
  | none =>
    let p := f.port.val
    let h := s.hport p
    let s := (List.range h.num).foldl (fun (s : State) v => flrOne s (p * 2048 + v + 1)) s
    flrOne (setHport s p { h with num := 0 }) (p * 2048)
def execFunctionLevelReset (f : FnId) (s : State) : Host.Outcome State Fault Refusal := .next (flr f s)

/-- NUMVFS_WRITE: a VF that becomes absent is reset (R357). A number above TotalVFs has no effect. -/
def numVfs (p n : Nat) (s : State) : State :=
  let h := s.hport p
  if h.total < n then s
  else
    let s := (List.range (h.num - n)).foldl (fun (s : State) k => flrOne s (p * 2048 + n + k + 1)) s
    setHport s p { s.hport p with num := n }
def execNumvfsWrite (port : Fin 4) (n : Fin 1025) (s : State) : Host.Outcome State Fault Refusal := .next (numVfs port.val n.val s)

/-- The TDIs bound to a stream of a port that leaves the secure state go to ERROR (R380). -/
def streamLost (s : State) (p stream : Nat) : State :=
  modFns s (fun n f => decide (n / 2048 = p) && decide (f.stream = stream + 1)) tdiError

/-- PORT_HOT_RESET: every function of the port is reset; its IDE streams and its SPDM session end with the link. -/
def hotReset (p : Nat) (s : State) : State :=
  let s := (s.hport p).ide.foldl (fun (s : State) k => streamLost s p k) s
  let s := flr ⟨⟨p % 4, Nat.mod_lt _ (by decide)⟩, none⟩ s
  let s := if (s.hport p).up then evLatch s (116 + p) else s
  setHport s p { s.hport p with up := false, spdm := 0, session := false, ide := [], ideKeys := [] }
def execPortHotReset (port : Fin 4) (s : State) : Host.Outcome State Fault Refusal := .next (hotReset port.val s)

/-! ## SPDM (14 R378; message codes of SPDM 1.3, log entry 7) -/

/-- A response: version 1.3, code, two parameters, payload. -/
def spdmRsp (code p1 p2 : Nat) (b : Bytes) : Bytes := [0x13] ++ leBytes 1 code ++ leBytes 1 p1 ++ leBytes 1 p2 ++ b

/-- An ERROR response: 1 invalid, 4 unexpected, 7 unsupported. -/
def spdmErr (e : Nat) : Bytes := spdmRsp 0x7F e 0 []

/-- The measurements (14 R378). -/
def measure (s : State) (k : Nat) : Bytes := match k with
  | 1 => fitBytes 48 Config.romDigest
  | 2 => fitBytes 48 s.rst.imageDigest
  | 3 => leBytes 4 (s.reg (F.LC_STATE_STATE.at 0 0)).toNat ++ leBytes 4 (s.reg (F.LC_DEBUG_RIGHTS.at 0 0)).toNat
  | 4 => leBytes 4 (s.reg (F.DEV_ID_PART.at 0 0)).toNat
  | _ => fitBytes 48 s.rst.libDigest

/-- A measurement block: index, specification 1, size, type and value. -/
def measureBlock (s : State) (k : Nat) : Bytes :=
  let v := measure s k
  leBytes 1 k ++ [1] ++ leBytes 2 (v.length + 3) ++ leBytes 1 (if k = 3 ∨ k = 4 then 0x80 + k else k) ++ leBytes 2 v.length ++ v

/-- A signature by the device's ECDSA P-384 signing key, over the parts of the exchange that the model holds. -/
def spdmSign (s : State) (m : Bytes) : Bytes × State :=
  let r := s.free
  (fitBytes 96 (Config.pkSign 0x22 (deviceKey s false 0x22).1 [] [] (sha384 m) r.1), r.2)

/-- Does a request ask for a signature? -/
def spdmSigns (m : SpdmMsg) : Bool := match m with
  | .challenge _ _ => true
  | .getMeasurements k signed _ => signed && decide (k ≠ 0)
  | .keyExchange _ _ => true
  | _ => false

/-- The responder: the reply and the state. -/
def spdmReply (p : Nat) (m : SpdmMsg) (s : State) : Bytes × State :=
  let h := s.hport p
  let need := fun (lv : Nat) (k : Bytes × State) => if lv ≤ h.spdm then k else (spdmErr 4, s)
  let tdi := fun (vf : Fin 1024) => p * 2048 + vf.val + 1
  if spdmSigns m && s.sec.root.isNone then (spdmErr 3, s) else match m with
  | .getVersion => (spdmRsp 0x04 0 0 ([0, 1] ++ leBytes 2 0x1300), setHport s p { h with spdm := 1, session := false })
  | .getCapabilities => need 1 (spdmRsp 0x61 0 0 (leBytes 4 0 ++ leBytes 4 0x000263D6), setHport s p { h with spdm := max 2 h.spdm })
  | .negotiateAlgorithms common =>
    need 2 (if common then (spdmRsp 0x63 0 0 [], setHport s p { h with spdm := max 3 h.spdm }) else (spdmErr 1, s))
  | .getDigests => need 3 (spdmRsp 0x01 0 3 (sha384 (Config.certChain 0) ++ sha384 (Config.certChain 1)), s)
  | .getCertificate slot off len =>
    need 3 (if 2 ≤ slot then (spdmErr 1, s)
      else
        let c := Config.certChain slot
        let b := (c.drop off).take len
        (spdmRsp 0x02 slot 0 (leBytes 2 b.length ++ leBytes 2 (c.length - off - b.length) ++ b), s))
  | .challenge slot nonce =>
    need 3 (if 2 ≤ slot then (spdmErr 1, s)
      else
        let n := drawBytes s 32
        let b := sha384 (Config.certChain slot) ++ n.1
        let g := spdmSign n.2 (nonce ++ b)
        (spdmRsp 0x03 slot 0 (b ++ g.1), g.2))
  | .getMeasurements k signed nonce =>
    need 3 (if k = 0 then (spdmRsp 0x60 5 0 [], s)
      else
        let l := if k = 0xFF then [1, 2, 3, 4, 5] else [k]
        if k ≠ 0xFF ∧ 5 < k then (spdmErr 1, s)
        else
          let b := l.flatMap (measureBlock s)
          let n := drawBytes s 32
          let x := leBytes 1 l.length ++ leBytes 3 b.length ++ b ++ n.1
          if !signed then (spdmRsp 0x60 0 0 x, n.2)
          else
            let g := spdmSign n.2 (nonce ++ x)
            (spdmRsp 0x60 0 0 (x ++ g.1), g.2))
  | .keyExchange slot share =>
    need 3 (if 2 ≤ slot ∨ share.length ≠ 96 then (spdmErr 1, s)
      else
        let n := drawBytes s 32
        let r := n.2.free
        let e := Config.pkKeygen 0x22 0 0 r.1
        let b := n.1 ++ fitBytes 96 e.2
        let g := spdmSign r.2 (share ++ b)
        (spdmRsp 0x64 0 0 (b ++ g.1), setHport g.2 p { g.2.hport p with spdm := 4, session := false }))
  | .finish ok => need 4 (if ok then (spdmRsp 0x65 0 0 [], setHport s p { h with session := true }) else (spdmErr 1, s))
  | .heartbeat => if h.session then (spdmRsp 0x68 0 0 [], s) else (spdmErr 4, s)
  | .keyUpdate op => if h.session ∧ op.val ≠ 0 then (spdmRsp 0x69 op.val 0 [], s) else (spdmErr 4, s)
  | .endSession => if h.session then (spdmRsp 0x6C 0 0 [], setHport s p { h with session := false, spdm := 3 }) else (spdmErr 4, s)
  | .chunk seq => need 2 (spdmRsp 0x05 0 0 (leBytes 4 seq), s)
  | .pskExchange => (spdmErr 7, s)
  | .getCsr => (spdmErr 7, s)
  | .setCertificate => (spdmErr 7, s)
  | .startInterface vf =>
    if h.session ∧ (s.fn (tdi vf)).tdi = 1 then (spdmRsp 0x7E 0x03 0 [], setFn s (tdi vf) { s.fn (tdi vf) with tdi := 2 }) else (spdmErr 4, s)
  | .interfaceReport vf =>
    let f := s.fn (tdi vf)
    if h.session ∧ (f.tdi = 1 ∨ f.tdi = 2) then
      (spdmRsp 0x7E 0x02 0 (leBytes 8 0 ++ leBytes 8 0x2000 ++ leBytes 2 f.owner ++ leBytes 1 f.mode), s)
    else (spdmErr 4, s)
  | .interfaceState vf => if h.session then (spdmRsp 0x7E 0x05 0 (leBytes 1 (s.fn (tdi vf)).tdi), s) else (spdmErr 4, s)

/-- SPDM_REQUEST: at a port's DOE mailbox, or at the Periscope responder (port 4). -/
def execSpdmRequest (port : Fin 4) (periscope : Bool) (m : SpdmMsg) (s : State) : Host.Outcome State Fault Refusal :=
  .next (let r := spdmReply (if periscope then 4 else port.val) m s
    if periscope ∧ !s.vaux then s
    else if periscope ∧ !s.mainUp then s.incSat F.PSC_ERRORS_DROPPED
    else if periscope then { r.2 with out := r.1, sent := r.2.sent ++ [.psc r.1] } else { r.2 with out := r.1 })

/-! ## IDE and TDISP (14 R379, R380) -/

/-- The keys of a stream: three sub-streams, two directions. -/
def ideKey (stream sub : Nat) (tx : Bool) : Nat := stream * 8 + sub * 2 + b2n tx

/-- IDE_KM: only within a secured session; a stream becomes secure when all its keys are programmed, in FLIT mode alone. -/
def ideKm (p : Nat) (m : IdeMsg) (s : State) : Bytes × State :=
  let h := s.hport p
  if !h.session then (spdmErr 4, s)
  else match m with
    | .query => ([1] ++ leBytes 1 64 ++ h.ide.flatMap (leBytes 1), s)
    | .keyProg stream sub tx key =>
      if key.length ≠ 32 then ([3, 1], s)
      else ([3, 0], setHport s p { h with ideKeys := tset [] h.ideKeys (ideKey stream.val sub.val tx) key })
    | .setGo stream =>
      let full := (List.range 3).all (fun k => [true, false].all (fun tx => tget [] h.ideKeys (ideKey stream.val k tx) ≠ []))
      if h.flit ∧ full then ([6, 0], setHport s p { h with ide := sput h.ide stream.val }) else ([6, 1], s)
    | .setStop stream => ([6, 0], streamLost (setHport s p { h with ide := sdel h.ide stream.val }) p stream.val)
def execIdeKm (port : Fin 4) (m : IdeMsg) (s : State) : Host.Outcome State Fault Refusal :=
  .next (let r := ideKm port.val m s
    { r.2 with out := r.1 })

/-- LOCK_INTERFACE: the TDI of a present VF whose owner is ACTIVE and whose selective stream is secure. -/
def lockInterface (p vf stream : Nat) (s : State) : State :=
  let fn := p * 2048 + vf + 1
  let f := s.fn fn
  if f.tdi = 0 ∧ s.fnPresent fn ∧ (s.owner f.owner).state = oActive ∧ stream ≠ 0 ∧ (s.hport p).ide.contains stream then
    let d := drawBytes s 32
    { setFn d.2 fn { f with tdi := 1, stream := stream + 1, mode := (s.owner f.owner).mode } with out := d.1 }
  else { s with out := spdmErr 4 }
def execLockInterface (port : Fin 4) (vf : Fin 1024) (stream : Fin 65) (s : State) : Host.Outcome State Fault Refusal :=
  .next (lockInterface port.val vf.val stream.val s)

/-- STOP_INTERFACE: what the function's engine held back in ERROR is issued. -/
def stopInterface (p vf : Nat) (s : State) : State :=
  let fn := p * 2048 + vf + 1
  let f := s.fn fn
  { setFn s fn { f with tdi := 0, stream := 0, mode := 0, held := [] } with sent := s.sent ++ f.held }
def execStopInterface (port : Fin 4) (vf : Fin 1024) (s : State) : Host.Outcome State Fault Refusal := .next (stopInterface port.val vf.val s)

/-! ## OWN_FSTAT (14 R381) -/

/-- OWN_FSTAT of a function. -/
def ownFstat (s : State) (fn : Nat) : Word :=
  let f := s.fn fn
  let x := s.owner f.owner
  BitVec.ofNat 32 (x.state * 536870912 + s.modeOf f.owner * 134217728 + b2n (s.fellBack f.owner) * 67108864 +
    b2n (decide (x.state = oStandby)) * 33554432 + b2n f.chg * 16777216 + f.owner)

end Sys2Proof.Machine
end

