-- ==== Sys2Proof/Machine/Payment.lean ====
section
/-! DEFINITION. Machine/Payment.lean: the payment commands and the bundles (08 R207 to R236, 07 R191). -/

namespace Sys2Proof.Machine

open Sys2Proof

/-! ## Shared structures (08 R207, R208, R210) -/

/-- Is every byte zero, and every nibble a decimal digit? -/
def zeros (b : Bytes) : Bool := b.all (fun x => decide (x = 0))
def bcd (l : List Nat) : Bool := l.all (fun n => decide (n < 10))

/-- The digits of a PAN descriptor, and its sequence number as two digits. -/
def panDigits (b : Bytes) : List Nat := (nibblesOf (sliceBytes b 2 10)).take (byteAt b 0)
def panSeq (b : Bytes) : List Nat := if byteAt b 12 = 0xFF then [0, 0] else nibblesOf (sliceBytes b 12 1)

/-- Is a descriptor well formed; or, where the command uses no PAN, all zero (08 R207)? -/
def panOk (used : Bool) (b : Bytes) : Bool :=
  let n := byteAt b 0
  if !used then zeros b
  else decide (8 ≤ n) && decide (n ≤ 19) && decide (byteAt b 1 = 0) && bcd (panDigits b) &&
    ((nibblesOf (sliceBytes b 2 10)).drop n).all (fun x => decide (x = 15)) &&
    (decide (byteAt b 12 = 0xFF) || bcd (nibblesOf (sliceBytes b 12 1))) && zeros (sliceBytes b 13 3)

/-- Does a format bind the PIN to a PAN? -/
def usesPan (f : Nat) : Bool := decide (f ≠ 1)

/-- A PIN block field: an 8-byte block is left-aligned and zero-filled. -/
def blockOk (f : Nat) (b : Bytes) : Bool := decide (f = 4) || zeros (sliceBytes b 8 8)

/-- The algorithm of a format's key (08 Table 08.3, R214). -/
def pinAlg (f alg : Nat) : Bool := if f = 4 then isAesAlg alg else isTdesAlg alg

/-- The nibbles of the PIN field that a block holds. -/
def pinOpen (f alg : Nat) (key blk : Bytes) (pan : List Nat) : List Nat :=
  let p := ofNibbles (panField f pan)
  let b := blk.take (pinBlockLen f)
  nibblesOf (if f = 4 then decBlock alg key (xorBytes (decBlock alg key b) p) else xorBytes (decBlock alg key b) p)

/-- The block of a PIN field. -/
def pinClose (f alg : Nat) (key : Bytes) (field pan : List Nat) : Bytes :=
  let p := ofNibbles (panField f pan)
  let x := ofNibbles field
  if f = 4 then encBlock alg key (xorBytes (encBlock alg key x) p) else encBlock alg key (xorBytes x p)

/-- A translation's format pair (08 Table 08.4). -/
def pairOk (i o : Nat) (down : Bool) : Bool :=
  if o = 1 then decide (i = 1) else if i = 4 then decide (o = 4) || down else true

/-- S_VERIFY_FAIL with the failure result, where it fits (08 Table 08.2). -/
def failWith (s : State) (w : Work) (step reason : Nat) : State :=
  endWith s w sVerifyFail (if 4 ≤ w.cap.toNat then leBytes 1 step ++ leBytes 1 reason ++ [0, 0] else [])

/-- The fields of a command: those of one step, in inline bytes that a bundle carries in its input. -/
def stepOf (w : Work) (blk : Bytes) : Work := { w with inl := blk }

/-! ## Steps -/

/-- Does a format draw random fill? -/
def needsFill (f : Nat) : Bool := decide (f ≠ 0)

/-- The outbound block of a translation, once the inbound field passed its check; with the random fill drawn. -/
def reblock (s : State) (f : Nat) (b : KeyRec) (field pan : List Nat) : Bytes × State :=
  let d := drawBytes s (pinRandom f)
  (pinClose f b.alg b.material (pinField f (pinDigits field) d.1) pan, d.2)

/-- The decimalisation table of bytes 50 to 57, and whether it is accepted (08 R216). -/
def decTable (w : Work) : List Nat := nibblesOf (sliceBytes w.inl 2 8)
def decTableOk (w : Work) : Bool := decide ((decTable w).take 10 = List.range 10) && bcd (decTable w)

/-- The decimalised validation data (08 R217). -/
def decimalised (w : Work) (alg : Nat) (key v : Bytes) : List Nat :=
  (nibblesOf (encBlock alg key v)).map (fun h => (decTable w).getD h 0)

/-- The offset of bytes 58 to 63. -/
def offsetNibbles (w : Work) : List Nat := nibblesOf (sliceBytes w.inl 10 6)
def offsetOk (w : Work) : Bool :=
  bcd ((offsetNibbles w).take (w.f 49 1)) && ((offsetNibbles w).drop (w.f 49 1)).all (fun x => decide (x = 15))

/-- The inline bytes of PIN_VERIFY_OFFSET and PIN_VERIFY_PVV. -/
def offsetInl (w : Work) : Bool :=
  pinFmtOk (w.f 48 1) && decide (4 ≤ w.f 49 1) && decide (w.f 49 1 ≤ 12) && decTableOk w && offsetOk w
def pvvInl (w : Work) : Bool :=
  pinFmtOk (w.f 48 1) && decide (w.f 49 1 ≤ 9) && bcd (nibblesOf (sliceBytes w.inl 2 2)) && w.z 52 64

/-- Is a PIN verified against an offset (08 R217)? -/
def offsetVerified (w : Work) (field : List Nat) (b : KeyRec) (v : Bytes) : Bool :=
  let l := w.f 49 1
  let d := decimalised w b.alg b.material v
  pinCheck (w.f 48 1) field && decide (l ≤ field.getD 1 0) &&
    (List.range l).all (fun i => decide ((pinDigits field).getD i 0 = (d.getD i 0 + (offsetNibbles w).getD i 0) % 10))

/-- The decimal scan (08 R218): the digits, then the letters less 10. -/
def decimalScan (l : List Nat) : List Nat := l.filter (fun n => n < 10) ++ (l.filter (fun n => 10 ≤ n)).map (fun n => n - 10)

/-- Is a PIN verified against a PVV (08 R218)? -/
def pvvVerified (w : Work) (field pan : List Nat) (b : KeyRec) : Bool :=
  let t := panRight 11 pan ++ [w.f 49 1] ++ (pinDigits field).take 4
  pinCheck (w.f 48 1) field && decide ((decimalScan (nibblesOf (tdesEnc b.material (ofNibbles t)))).take 4 = nibblesOf (sliceBytes w.inl 2 2))

/-! ## PIN commands (08 R213 to R220) -/

/-- The inline bytes of PIN_TRANSLATE. -/
def transInl (w : Work) : Bool := pinFmtOk (w.f 48 1) && pinFmtOk (w.f 49 1) && decide (w.f 50 1 < 2) && w.z 51 64

/-- PIN_TRANSLATE. -/
def pinTranslate (w : Work) (s : State) : State :=
  command 0x0401 w s (fun s =>
    let i := w.f 48 1
    let o := w.f 49 1
    let pan := w.input.drop 16
    withChecks s w [(w.unused 2 && transInl w && decide (w.len = 32) && blockOk i w.input &&
        panOk (usesPan i || usesPan o) pan && w.fits (pinBlockLen o), sMalformed),
      (pairOk i o (decide (w.f 50 1 = 1)), sDenied)] (fun s =>
      withKey s w w.a 11 (pinAlg i) (fun a t => withKey t w w.b 10 (pinAlg o) (base := s) (k := fun b s =>
        let field := pinOpen i a.alg a.material w.input (panDigits pan)
        if needsFill o ∧ s.rngStopped then endWith s w sEntropy
        else if !(pinCheck i field) then failWith s w 1 1
        else
          let r := reblock s o b field (panDigits pan)
          endWith r.2 w sOk r.1))))
def execPinTranslate (w : Work) (s : State) : Host.Outcome State Fault Refusal := .next (pinTranslate w s)

/-- PIN_VERIFY_OFFSET. -/
def pinVerifyOffset (w : Work) (s : State) : State :=
  command 0x0402 w s (fun s =>
    let f := w.f 48 1
    let pan := sliceBytes w.input 16 16
    withChecks s w [(w.unused 2 && offsetInl w && decide (w.len = 48) && blockOk f w.input && panOk (usesPan f) pan &&
        zeros (w.input.drop 40) && w.fits 0, sMalformed)] (fun s =>
      withKey s w w.a 11 (pinAlg f) (fun a t => withKey t w w.b 13 isTdesAlg (base := s) (k := fun b s =>
        let field := pinOpen f a.alg a.material w.input (panDigits pan)
        if offsetVerified w field b (sliceBytes w.input 32 8) then endWith s w sOk else failWith s w 1 2))))
def execPinVerifyOffset (w : Work) (s : State) : Host.Outcome State Fault Refusal := .next (pinVerifyOffset w s)

/-- PIN_VERIFY_PVV. -/
def pinVerifyPvv (w : Work) (s : State) : State :=
  command 0x0403 w s (fun s =>
    let f := w.f 48 1
    let pan := sliceBytes w.input 16 16
    withChecks s w [(w.unused 2 && pvvInl w && decide (w.len = 32) && blockOk f w.input && panOk true pan && w.fits 0, sMalformed)] (fun s =>
      withKey s w w.a 11 (pinAlg f) (fun a t => withKey t w w.b 13 (fun g => decide (g = 4)) (base := s) (k := fun b s =>
        let field := pinOpen f a.alg a.material w.input (panDigits pan)
        if pvvVerified w field (panDigits pan) b then endWith s w sOk else failWith s w 1 2))))
def execPinVerifyPvv (w : Work) (s : State) : Host.Outcome State Fault Refusal := .next (pinVerifyPvv w s)

/-- `n` digits, each the next 4-bit value of the words drawn that is below 10; the others are discarded. Past 64 words, which chance does not
reach, the rest are free values. -/
def drawDigits (fuel n : Nat) (s : State) : List Nat × State :=
  match fuel with
  | 0 => ((List.range n).map (fun k => Config.freeNat (s.freeCtr + k) % 10), { s with freeCtr := s.freeCtr + n })
  | f + 1 =>
    let d := drawBytes s 8
    let l := ((d.1.flatMap (fun x => [x.toNat % 16, x.toNat / 16])).filter (fun x => decide (x < 10))).take n
    if l.length = n then (l, d.2)
    else
      let r := drawDigits f (n - l.length) d.2
      (l ++ r.1, r.2)

/-- PIN_GENERATE. -/
def pinGenerate (w : Work) (s : State) : State :=
  command 0x0404 w s (fun s =>
    let o := w.f 48 1
    let n := w.f 49 1
    withChecks s w [(w.unused 1 && pinFmtOk o && decide (4 ≤ n) && decide (n ≤ 12) && w.z 50 64 && decide (w.len = 16) &&
        panOk (usesPan o) w.input && w.fits (pinBlockLen o), sMalformed)] (fun s =>
      withKey s w w.a 10 (pinAlg o) (fun a s =>
        if s.rngStopped then endWith s w sEntropy
        else
          let d := drawDigits 64 n s
          let r := drawBytes d.2 (pinRandom o)
          endWith r.2 w sOk (pinClose o a.alg a.material (pinField o d.1 r.1) (panDigits w.input)))))
def execPinGenerate (w : Work) (s : State) : Host.Outcome State Fault Refusal := .next (pinGenerate w s)

/-- PIN_OFFSET_GENERATE. -/
def pinOffsetGenerate (w : Work) (s : State) : State :=
  command 0x0405 w s (fun s =>
    let f := w.f 48 1
    let l := w.f 49 1
    let pan := sliceBytes w.input 16 16
    withChecks s w [(w.unused 2 && pinFmtOk f && decide (4 ≤ l) && decide (l ≤ 12) && decTableOk w && w.z 58 64 && decide (w.len = 48) &&
        blockOk f w.input && panOk (usesPan f) pan && zeros (w.input.drop 40) && w.fits 8, sMalformed)] (fun s =>
      withKey s w w.a 11 (pinAlg f) (fun a t => withKey t w w.b 13 isTdesAlg (base := s) (k := fun b s =>
        let field := pinOpen f a.alg a.material w.input (panDigits pan)
        let d := decimalised w b.alg b.material (sliceBytes w.input 32 8)
        if !(pinCheck f field) ∨ field.getD 1 0 < l then failWith s w 1 1
        else
          let o := (List.range l).map (fun i => ((pinDigits field).getD i 0 + 10 - d.getD i 0) % 10)
          endWith s w sOk (ofNibbles ((o ++ List.replicate 12 15).take 12) ++ [0, 0])))))
def execPinOffsetGenerate (w : Work) (s : State) : Host.Outcome State Fault Refusal := .next (pinOffsetGenerate w s)

/-! ## Card verification codes (08 R222) -/

/-- The code of `l` digits. -/
def cvcCode (w : Work) (key : Bytes) (pan : Bytes) : List Nat :=
  let d := (panDigits pan ++ nibblesOf (sliceBytes w.inl 0 2) ++ (nibblesOf (sliceBytes w.inl 2 2)).take 3 ++ List.replicate 32 0).take 32
  let x := xorBytes (desEnc (key.take 8) (ofNibbles (d.take 16))) (ofNibbles (d.drop 16))
  (decimalScan (nibblesOf (tdesEnc key x))).take (w.f 52 1)

/-- A code left-aligned in 3 bytes and filled with 0xF. -/
def cvcBytes (l : List Nat) : Bytes := ofNibbles ((l ++ List.replicate 6 15).take 6)

def cvcCmd (op : Nat) (verify : Bool) (w : Work) (s : State) : State :=
  command op w s (fun s =>
    let e := nibblesOf (sliceBytes w.inl 5 3)
    let l := w.f 52 1
    withChecks s w [(w.unused 1 && bcd (nibblesOf (sliceBytes w.inl 0 2)) && bcd ((nibblesOf (sliceBytes w.inl 2 2)).take 3) &&
        decide (w.f 51 1 % 16 = 15) && decide (3 ≤ l) && decide (l ≤ 5) &&
        (if verify then bcd (e.take l) && (e.drop l).all (fun x => decide (x = 15)) else w.z 53 56) && w.z 56 64 &&
        decide (w.len = 16) && panOk true w.input && w.fits (if verify then 0 else 4), sMalformed)] (fun s =>
      withKey s w w.a 13 (fun g => decide (g = 4)) (fun k s =>
        let c := cvcCode w k.material w.input
        if !verify then endWith s w sOk (cvcBytes c ++ [0])
        else if e.take l = c then endWith s w sOk else failWith s w 1 5)))
def execCvcVerify (w : Work) (s : State) : Host.Outcome State Fault Refusal := .next (cvcCmd 0x0510 true w s)
def execCvcGenerate (w : Work) (s : State) : Host.Outcome State Fault Refusal := .next (cvcCmd 0x0511 false w s)

/-! ## Application cryptograms (08 R223 to R225) -/

/-- F of two inputs, as long as the key takes. -/
def twoBlocks (alg : Nat) (key x y : Bytes) (n : Nat) : Bytes := (encBlock alg key x ++ encBlock alg key y).take n

/-- The AC key (08 R223): the ICC master key, or the session key. -/
def acKey (w : Work) (k : KeyRec) (pan : Bytes) : Bytes :=
  let digits := panDigits pan ++ panSeq pan
  let y := ofNibbles ((List.replicate 16 0 ++ digits).drop digits.length)
  let bl := algBlock k.alg
  let y := List.replicate (bl - 8) 0 ++ y
  let mk := twoBlocks k.alg k.material y (y.map (fun b => b ^^^ 0xFF)) k.klen
  let atc := sliceBytes w.inl 4 2
  if w.f 49 1 = 0 then mk
  else twoBlocks k.alg mk (fitBytes bl (atc ++ [0xF0])) (fitBytes bl (atc ++ [0x0F])) k.klen

/-- The ARQC algorithm over a message (08 R224). -/
def acMac (alg pad : Nat) (key m : Bytes) : Bytes :=
  if isAesAlg alg then (cmac alg key m).take 8
  else if isoPad pad 8 m = [] then fitBytes 8 (Config.emptyMac key)
  else retailMac key (isoPad pad 8 m)

/-- The ARPC. -/
def arpc (w : Work) (alg : Nat) (key arqc rsp : Bytes) : Bytes :=
  if w.f 51 1 = 1 then encBlock alg key (xorBytes arqc (rsp.take 2 ++ List.replicate 6 0))
  else (acMac alg 2 key (arqc ++ sliceBytes rsp 2 4 ++ sliceBytes rsp 6 (w.f 56 1))).take 4

/-- The inline bytes of an AC command: 0 AC_VERIFY, 1 AC_RESPOND, 2 AC_VERIFY_RESPOND. -/
def acInl (w : Work) (kind : Nat) : Bool :=
  let m := w.f 48 1
  decide (m ≤ 1) && decide (w.f 49 1 ≤ 1) && (if m = 0 then decide (w.f 50 1 = 1) || decide (w.f 50 1 = 2) else decide (w.f 50 1 = 0)) &&
    (if kind = 0 then decide (w.f 51 1 = 0) else (decide (w.f 51 1 = 1) && decide (m = 0)) || decide (w.f 51 1 = 2)) &&
    decide (w.f 54 2 ≤ 1024) && (decide (kind ≠ 1) || decide (w.f 54 2 = 0)) &&
    (if w.f 51 1 = 2 then decide (w.f 56 1 ≤ 8) else decide (w.f 56 1 = 0)) && w.z 57 64

/-- The algorithm that a method byte takes. -/
def acFit (w : Work) (alg : Nat) : Bool := if w.f 48 1 = 0 then decide (alg = 4) else isAesAlg alg

/-- Does an ARQC verify? -/
def acVerified (w : Work) (k : KeyRec) (pan arqc data : Bytes) : Bool :=
  decide (acMac k.alg (w.f 50 1) (acKey w k pan) data = arqc)

def acCmd (op kind : Nat) (w : Work) (s : State) : State :=
  command op w s (fun s =>
    let arqc := sliceBytes w.input 16 8
    let rsp := sliceBytes w.input 32 16
    let fixed := if kind = 0 then 32 else 48
    let data := w.input.drop fixed
    let res := if kind = 0 then 0 else if w.f 51 1 = 1 then 8 else 4
    withChecks s w [(w.unused 1 && acInl w kind && decide (w.len = fixed + w.f 54 2) && panOk true (w.input.take 16) &&
        zeros (sliceBytes w.input 24 8) && (decide (kind = 0) || zeros (sliceBytes rsp 14 2)) && w.fits res, sMalformed)] (fun s =>
      withKey s w w.a 13 (acFit w) (fun k s =>
        if kind ≠ 1 ∧ !(acVerified w k w.input arqc data) then failWith s w 1 3
        else endWith s w sOk (if kind = 0 then [] else arpc w k.alg (acKey w k w.input) arqc rsp))))
def execAcVerify (w : Work) (s : State) : Host.Outcome State Fault Refusal := .next (acCmd 0x0501 0 w s)
def execAcRespond (w : Work) (s : State) : Host.Outcome State Fault Refusal := .next (acCmd 0x0502 1 w s)
def execAcVerifyRespond (w : Work) (s : State) : Host.Outcome State Fault Refusal := .next (acCmd 0x0503 2 w s)

/-! ## DUKPT (08 R226 to R229) -/

/-- Set bits of a number, the highest first. -/
def setBitsOf (n v : Nat) : List Nat := (List.range n).reverse.filter (fun k => v.testBit k)

/-- The counter of a KSN, and whether the KSN field is accepted. -/
def ksnCount (kind : Nat) (ksn : Bytes) : Nat := if kind = 0 then beNat (ksn.take 10) % 2097152 else beNat (sliceBytes ksn 8 4)
def ksnOk (kind : Nat) (ksn : Bytes) : Bool :=
  let c := ksnCount kind ksn
  decide (c ≠ 0) && decide ((setBitsOf 32 c).length ≤ (if kind = 0 then 10 else 16)) && zeros (ksn.drop (if kind = 0 then 10 else 12))

/-- C0C0C0C0_00000000 in each half. -/
def dukptC : Bytes := [0xC0, 0xC0, 0xC0, 0xC0, 0, 0, 0, 0, 0xC0, 0xC0, 0xC0, 0xC0, 0, 0, 0, 0]

/-- The transaction key of a TDES KSN (08 R227). -/
def dukptTdes (bdk ksn : Bytes) : Bytes :=
  let v := beNat (ksn.take 10)
  let base := v - v % 2097152
  let x := (beBytes 10 base).take 8
  let ipek := tdesEnc bdk x ++ tdesEnc (xorBytes bdk dukptC) x
  ((setBitsOf 21 (v % 2097152)).foldl (fun (st : Bytes × Nat) b =>
    let r := st.2 + 2 ^ b
    let r8 := beBytes 8 r
    (lensBytes 4 3 (xorBytes st.1 dukptC) r8 ++ lensBytes 4 3 st.1 r8, r)) (ipek, base % 2 ^ 64)).1

/-- The key XOR a variant in both halves. -/
def variant (key : Bytes) (v : Nat) : Bytes := xorBytes key (beBytes 8 v ++ beBytes 8 v)

/-- Derive of AES DUKPT (08 R228). -/
def dukptDerive (alg : Nat) (key : Bytes) (usage target : Nat) (t : Bytes) : Bytes :=
  let n := algKeyLen target
  let dc := fun (c : Nat) => [0x01] ++ beBytes 1 c ++ beBytes 2 usage ++ beBytes 2 (target + 1) ++ beBytes 2 (8 * n) ++ t
  twoBlocks alg key (dc 1) (dc 2) n

/-- The working key of an AES KSN. -/
def dukptAes (k : KeyRec) (ksn : Bytes) (usage target : Nat) : Bytes :=
  let init := dukptDerive k.alg k.material 0x8001 k.alg (ksn.take 8)
  let r := (setBitsOf 32 (ksnCount 1 ksn)).foldl (fun (st : Bytes × Nat) b =>
    let w := st.2 + 2 ^ b
    (dukptDerive k.alg st.1 0x8000 k.alg (sliceBytes ksn 4 4 ++ beBytes 4 w), w)) (init, 0)
  dukptDerive k.alg r.1 usage target (sliceBytes ksn 4 8)

/-- The working key of a purpose: 0 PIN, 1 MAC, 2 data; `p` 0 request, 1 response, 2 both. -/
def dukptKey (kind : Nat) (k : KeyRec) (ksn : Bytes) (purpose p target : Nat) : Bytes :=
  if kind = 1 then dukptAes k ksn (if purpose = 0 then 0x1000 else if purpose = 1 then 0x2000 + p else 0x3000 + p) target
  else
    let t := dukptTdes k.material ksn
    match purpose with
    | 0 => variant t 0xFF
    | 1 => variant t (if p = 0 then 0xFF00 else 0xFF000000)
    | _ =>
      let v := variant t (if p = 0 then 0xFF0000 else 0xFF00000000)
      tdesEnc v (v.take 8) ++ tdesEnc v (v.drop 8)

/-- The algorithm of the working key; a base derivation key that fits. -/
def dukptAlg (kind wa : Nat) : Nat := if kind = 0 then 4 else wa
def dukptFit (kind wa alg : Nat) : Bool := if kind = 0 then decide (alg = 4) else isAesAlg alg && decide (wa ≤ alg)

/-- The kind and working algorithm bytes. -/
def dukptInl (w : Work) : Bool :=
  (decide (w.f 48 1 = 0) && decide (w.f 52 1 = 0)) || (decide (w.f 48 1 = 1) && decide (1 ≤ w.f 52 1) && decide (w.f 52 1 ≤ 3))

/-- The inline bytes of DUKPT_PIN_TRANSLATE. -/
def dukptTransInl (w : Work) : Bool :=
  dukptInl w && pinFmtOk (w.f 49 1) && (decide (w.f 49 1 = 4) == decide (w.f 48 1 = 1)) && pinFmtOk (w.f 50 1) && decide (w.f 51 1 < 2) &&
    w.z 53 64

/-- The inline bytes of DUKPT_MAC_VERIFY. -/
def dukptMacInl (w : Work) (n : Nat) : Bool :=
  let a := w.f 49 1
  dukptInl w && (if w.f 48 1 = 0 then decide (a ≤ 1) else decide (a = 2)) && macOk a (w.f 50 1) (w.f 51 1) n &&
    (decide (w.f 53 1 ≤ 1) || (decide (w.f 53 1 = 2) && decide (w.f 48 1 = 1))) && w.z 54 64 && decide (n ≤ macLimit a)

/-- The PIN field a DUKPT block holds. -/
def dukptField (w : Work) (k : KeyRec) (ksn blk : Bytes) (pan : List Nat) : List Nat :=
  let g := dukptAlg (w.f 48 1) (w.f 52 1)
  pinOpen (w.f 49 1) g (dukptKey (w.f 48 1) k ksn 0 0 g) blk pan

/-- Does a DUKPT MAC verify? -/
def dukptMacOk (w : Work) (k : KeyRec) (ksn expect m : Bytes) : Bool :=
  let g := dukptAlg (w.f 48 1) (w.f 52 1)
  decide ((macValue (w.f 49 1) (w.f 50 1) g (dukptKey (w.f 48 1) k ksn 1 (w.f 53 1) g) m).take (w.f 51 1) = expect.take (w.f 51 1))

/-- DUKPT_PIN_TRANSLATE. -/
def dukptPinTranslate (w : Work) (s : State) : State :=
  command 0x0610 w s (fun s =>
    let i := w.f 49 1
    let o := w.f 50 1
    let ksn := w.input.take 16
    let blk := sliceBytes w.input 16 16
    let pan := sliceBytes w.input 32 16
    withChecks s w [(w.unused 2 && dukptTransInl w && decide (w.len = 48) && ksnOk (w.f 48 1) ksn && blockOk i blk &&
        panOk (usesPan i || usesPan o) pan && w.fits (pinBlockLen o), sMalformed),
      (pairOk i o (decide (w.f 51 1 = 1)), sDenied)] (fun s =>
      withKey s w w.a 5 (dukptFit (w.f 48 1) (w.f 52 1)) (fun a t => withKey t w w.b 10 (pinAlg o) (base := s) (k := fun b s =>
        let field := dukptField w a ksn blk (panDigits pan)
        if needsFill o ∧ s.rngStopped then endWith s w sEntropy
        else if !(pinCheck i field) then failWith s w 1 1
        else
          let r := reblock s o b field (panDigits pan)
          endWith r.2 w sOk r.1))))
def execDukptPinTranslate (w : Work) (s : State) : Host.Outcome State Fault Refusal := .next (dukptPinTranslate w s)

/-- DUKPT_MAC_VERIFY. -/
def dukptMacVerify (w : Work) (s : State) : State :=
  command 0x0611 w s (fun s =>
    let ksn := w.input.take 16
    let e := sliceBytes w.input 16 16
    let m := w.input.drop 32
    withChecks s w [(w.unused 1 && decide (32 ≤ w.len) && dukptMacInl w m.length && ksnOk (w.f 48 1) ksn && macField e (w.f 51 1) && w.fits 0,
        sMalformed)] (fun s =>
      withKey s w w.a 5 (dukptFit (w.f 48 1) (w.f 52 1)) (fun a s =>
        if dukptMacOk w a ksn e m then endWith s w sOk else failWith s w 1 4)))
def execDukptMacVerify (w : Work) (s : State) : Host.Outcome State Fault Refusal := .next (dukptMacVerify w s)

/-- DUKPT_DECIPHER. -/
def dukptDecipher (w : Work) (s : State) : State :=
  command 0x0612 w s (fun s =>
    let kind := w.f 48 1
    let g := dukptAlg kind (w.f 52 1)
    let bl := algBlock g
    let ksn := w.input.take 16
    let iv := sliceBytes w.input 16 16
    let x : Sym := ⟨false, false, w.f 49 1, 0, 0, 0, if w.f 49 1 = 0 then [] else iv.take bl, [], w.input.drop 32, [], true⟩
    withChecks s w [(w.unused 1 && dukptInl w && decide (w.f 49 1 ≤ 1) &&
        (decide (w.f 50 1 ≤ 1) || (decide (w.f 50 1 = 2) && decide (kind = 1))) && w.z 51 52 && w.z 53 64 && decide (32 ≤ w.len) &&
        ksnOk kind ksn && zeros (if w.f 49 1 = 0 then iv else iv.drop bl) && x.dataOk g && w.fits x.data.length, sMalformed)] (fun s =>
      withKey s w w.a 5 (dukptFit kind (w.f 52 1)) (fun a s =>
        symEnd s w (x.run g (dukptKey kind a ksn 2 (w.f 50 1) g) []))))
def execDukptDecipher (w : Work) (s : State) : Host.Outcome State Fault Refusal := .next (dukptDecipher w s)

/-! ## Bundles (08 R235, R236) -/

/-- One load of a bundle: every load is made; the first that fails gives the status. None where a load waits for a lease mark. -/
def bundleLoads (w : Work) (s : State) (l : List (Word × Nat × (Nat → Bool))) : Option (Nat × List KeyRec × State) :=
  l.foldl (fun acc e => acc.bind (fun r =>
    let s := r.2.2
    let s := pipeIn s (kidx s w.o e.1.toNat)
    let c := keyCheck s w.o false w.acc e.1.toNat e.2.1
    let s := countLoad s w e.1.toNat
    let note := fun (st : Nat) => if r.1 ≠ sOk then r.1 else st
    if c.1 ≠ sOk then some (note c.1, r.2.1 ++ [c.2], s)
    else match consume s (.cmd w.o w.t) (kidx s w.o e.1.toNat) with
      | none => none
      | some (s : State) => some (note (if e.2.2 c.2.alg then sOk else sKeyUse), r.2.1 ++ [c.2], s))) (some (sOk, [], s))

/-- The record of the first load of a bundle that waits. -/
def bundleBlocked (w : Work) (s : State) (l : List (Word × Nat × (Nat → Bool))) : Nat :=
  match l with
  | [] => 0
  | e :: r =>
    let i := kidx s w.o e.1.toNat
    if (keyCheck (pipeIn s i) w.o false w.acc e.1.toNat e.2.1).1 ≠ sOk then bundleBlocked w (pipeIn s i) r
    else match consume (pipeIn s i) (.cmd w.o w.t) i with
      | none => i
      | some t => bundleBlocked w t r

/-- Run a bundle's loads and then its steps: each gives a status and a reason; the first that is not S_OK decides. -/
def bundleRun (s : State) (w : Work) (loads : List (Word × Nat × (Nat → Bool)))
    (steps : List KeyRec → State → List (Nat × Nat)) (res : List KeyRec → State → Bytes × State) : State :=
  match bundleLoads w s loads with
  | none => loadWait s (.cmd w.o w.t) (bundleBlocked w s loads)
  | some (st, ks, (s : State)) =>
    if st ≠ sOk then endWith s w st
    else
      let l := steps ks s
      match (l.zip (List.range l.length)).find? (fun e => decide (e.1.1 ≠ sOk)) with
      | some e => if e.1.1 = sVerifyFail then failWith s w (e.2 + 1) e.1.2 else endWith s w e.1.1
      | none =>
        let r := res ks s
        endWith r.2 w sOk r.1

/-- The outcome of a verification. -/
def verdict (ok : Bool) (reason : Nat) : Nat × Nat := if ok then (sOk, 0) else (sVerifyFail, reason)

/-- The outcome of a translation step. -/
def transVerdict (s : State) (i o : Nat) (field : List Nat) : Nat × Nat :=
  if needsFill o ∧ s.rngStopped then (sEntropy, 0) else verdict (pinCheck i field) 1

def keyAt (l : List KeyRec) (i : Nat) : KeyRec := l.getD i KeyRec.empty

/-- AC_VERIFY_PIN_TRANSLATE. -/
def acPinTranslate (w : Work) (s : State) : State :=
  command 0x0901 w s (fun s =>
    let w1 := stepOf w (sliceBytes w.input 0 16)
    let w2 := stepOf w (sliceBytes w.input 16 16)
    let pan := sliceBytes w.input 32 16
    let arqc := sliceBytes w.input 48 8
    let blk := sliceBytes w.input 64 16
    let data := w.input.drop 80
    let i := w2.f 48 1
    let o := w2.f 49 1
    let field := fun (ks : List KeyRec) => pinOpen i (keyAt ks 1).alg (keyAt ks 1).material blk (panDigits pan)
    withChecks s w [(w.z 48 64 && acInl w1 0 && transInl w2 && decide (w.len = 80 + w1.f 54 2) && panOk true pan &&
        zeros (sliceBytes w.input 56 8) && blockOk i blk && w.fits (pinBlockLen o), sMalformed),
      (pairOk i o (decide (w2.f 50 1 = 1)), sDenied)] (fun s =>
      bundleRun s w [(w.a, 13, acFit w1), (w.b, 11, pinAlg i), (w.c, 10, pinAlg o)]
        (fun ks s => [verdict (acVerified w1 (keyAt ks 0) pan arqc data) 3, transVerdict s i o (field ks)])
        (fun ks s => reblock s o (keyAt ks 2) (field ks) (panDigits pan))))
def execAcVerifyPinTranslate (w : Work) (s : State) : Host.Outcome State Fault Refusal := .next (acPinTranslate w s)

/-- DUKPT_PIN_TRANSLATE_MAC_VERIFY: the base derivation key is loaded twice. -/
def dukptPinMac (w : Work) (s : State) : State :=
  command 0x0902 w s (fun s =>
    let w1 := stepOf w (sliceBytes w.input 0 16)
    let w2 := stepOf w (sliceBytes w.input 16 16)
    let ksn := sliceBytes w.input 32 16
    let pan := sliceBytes w.input 48 16
    let blk := sliceBytes w.input 64 16
    let e := sliceBytes w.input 80 16
    let m := w.input.drop 96
    let i := w1.f 49 1
    let o := w1.f 50 1
    let fit := dukptFit (w1.f 48 1) (w1.f 52 1)
    let field := fun (ks : List KeyRec) => dukptField w1 (keyAt ks 0) ksn blk (panDigits pan)
    withChecks s w [(w.unused 2 && w.z 48 64 && decide (96 ≤ w.len) && dukptTransInl w1 && dukptMacInl w2 m.length &&
        decide (w1.f 48 1 = w2.f 48 1) && decide (w1.f 52 1 = w2.f 52 1) && ksnOk (w1.f 48 1) ksn &&
        panOk (usesPan i || usesPan o) pan && blockOk i blk && macField e (w2.f 51 1) && w.fits (pinBlockLen o), sMalformed),
      (pairOk i o (decide (w1.f 51 1 = 1)), sDenied)] (fun s =>
      bundleRun s w [(w.a, 5, fit), (w.b, 10, pinAlg o), (w.a, 5, fit)]
        (fun ks s => [transVerdict s i o (field ks), verdict (dukptMacOk w2 (keyAt ks 2) ksn e m) 4])
        (fun ks s => reblock s o (keyAt ks 1) (field ks) (panDigits pan))))
def execDukptPinTranslateMacVerify (w : Work) (s : State) : Host.Outcome State Fault Refusal := .next (dukptPinMac w s)

/-- AC_VERIFY_PIN_VERIFY: byte 48 selects the PIN method. -/
def acPinVerify (w : Work) (s : State) : State :=
  command 0x0903 w s (fun s =>
    let w1 := stepOf w (sliceBytes w.input 0 16)
    let w2 := stepOf w (sliceBytes w.input 16 16)
    let pvv := decide (w.f 48 1 = 1)
    let pan := sliceBytes w.input 32 16
    let arqc := sliceBytes w.input 48 8
    let blk := sliceBytes w.input 64 16
    let v := sliceBytes w.input 80 16
    let data := w.input.drop 96
    let i := w2.f 48 1
    withChecks s w [(decide (w.f 48 1 ≤ 1) && w.z 49 64 && acInl w1 0 && (if pvv then pvvInl w2 else offsetInl w2) &&
        decide (w.len = 96 + w1.f 54 2) && panOk true pan && zeros (sliceBytes w.input 56 8) && blockOk i blk &&
        zeros (if pvv then v else v.drop 8) && w.fits 0, sMalformed)] (fun s =>
      bundleRun s w [(w.a, 13, acFit w1), (w.b, 11, pinAlg i), (w.c, 13, fun g => if pvv then decide (g = 4) else isTdesAlg g)]
        (fun ks _ =>
          let field := pinOpen i (keyAt ks 1).alg (keyAt ks 1).material blk (panDigits pan)
          [verdict (acVerified w1 (keyAt ks 0) pan arqc data) 3,
            verdict (if pvv then pvvVerified w2 field (panDigits pan) (keyAt ks 2) else offsetVerified w2 field (keyAt ks 2) (v.take 8)) 2])
        (fun _ s => ([], s))))
def execAcVerifyPinVerify (w : Work) (s : State) : Host.Outcome State Fault Refusal := .next (acPinVerify w s)

end Sys2Proof.Machine
end

