-- ==== Sys2Proof/Machine/Programs.lean ====
section
/-! DEFINITION. Machine/Programs.lean: program entries, their installation checks and the owner's own opcodes (03 R66 to R69, 07 R202), and
facet roles by command (01 R16). -/

namespace Sys2Proof.Machine

open Sys2Proof

/-! ## Instruction words (03 Tables 03.2 and 03.3) -/

/-- How many functions a major opcode lists; 0 where its format has no function field. -/
def majorFunctions (m : Nat) : Nat := match m with
  | 0x00 => 15
  | 0x1C => 3
  | 0x1D => 3
  | 0x1E => 5
  | 0x20 => 2
  | 0x21 => 11
  | 0x22 => 4
  | 0x23 => 3
  | 0x24 => 3
  | 0x28 => 4
  | 0x2C => 5
  | 0x2D => 3
  | 0x30 => 3
  | 0x31 => 3
  | 0x38 => 1
  | _ => 0

/-- Is a major opcode of I format, J format or W format? -/
def majorPlain (m : Nat) : Bool :=
  (decide (1 ≤ m) && decide (m ≤ 6)) || (decide (8 ≤ m) && decide (m ≤ 0x0C)) || (decide (0x10 ≤ m) && decide (m ≤ 0x1B)) || decide (m = 0x34)

/-- Is a word a defined encoding (03 R55)? -/
def wordDefined (w : Word) : Bool :=
  let m := bitsOf w 26 6
  let fn := if m = 0x28 then bitsOf w 0 4 else if 0x20 ≤ m ∧ m ≤ 0x24 then bitsOf w 0 9 else bitsOf w 0 11
  majorPlain m || (decide (fn < majorFunctions m) &&
    (decide (m ≠ 0x20) || decide (fn ≠ 0) || (decide (bitsOf w 12 3 < 4) && decide (bitsOf w 9 3 < 5))))

/-- Does the branch of word `i` stay within `n` words? -/
def branchInside (n i : Nat) (w : Word) : Bool :=
  let m := bitsOf w 26 6
  if 8 ≤ m ∧ m ≤ 0x0C then
    let t : Int := (i : Int) + (if Config.branchFromNext then 1 else 0) + (BitVec.ofNat 16 (bitsOf w 0 16)).toInt
    decide (0 ≤ t) && decide (t < (n : Int))
  else true

/-! ## Installation (03 Tables 03.7 and 03.8) -/

/-- The entry that bytes hold, without its signature block; and the length of header, code and data. -/
def progParse (b : Bytes) (image : Bool) : Prog × Nat :=
  let n := fun (o k : Nat) => leNat (sliceBytes b o k)
  let code := (pieces 4 ((b.drop 128).take (4 * n 18 2))).map (fun x => BitVec.ofNat 32 (leNat x))
  ({ entry := ⟨n 8 2, n 10 2, n 6 1 % 16, n 16 2, n 26 2⟩, version := n 12 4, roles := n 7 1, opcode := n 24 2, start := n 28 4
     code := code, data := (b.drop (128 + 4 * n 18 2)).take (n 20 4), digest := sliceBytes b 32 48, image := image, swapped := 0 },
    128 + 4 * n 18 2 + n 20 4)

/-- Check 1 of 03 Table 03.8. -/
def progShape (b : Bytes) : Bool :=
  let n := fun (o k : Nat) => leNat (sliceBytes b o k)
  let owner := (n 8 2).testBit 15
  decide (128 ≤ b.length) && decide (n 0 4 = 0x4E455446) && decide (n 4 2 = 1) && decide (n 6 1 < 16) && decide (n 7 1 < 8) &&
    decide (n 8 2 % 32768 < 4096) && (owner || decide (n 8 2 = 0)) && !((n 16 2).testBit 0) && !((n 16 2).testBit 15) &&
    decide (1 ≤ n 26 2) && ((b.drop 80).take 48).all (fun x => decide (x = 0)) &&
    decide (n 18 2 ≤ if owner then 8192 else 16384) && (!owner || decide (n 20 4 ≤ 8192)) &&
    decide (128 + 4 * n 18 2 + n 20 4 + 8 ≤ b.length) && decide (n (128 + 4 * n 18 2 + n 20 4 + 2) 2 = 0) &&
    decide (b.length = 128 + 4 * n 18 2 + n 20 4 + 8 + leNat (sliceBytes b (128 + 4 * n 18 2 + n 20 4 + 4) 4))

/-- The public key of an owner's program-signing credential, with the scheme it takes (03 R66). -/
def signingKey (s : State) (o : Nat) : Option (Nat × Bytes) :=
  let h := (s.owner o).cred
  let f := keyFind s o false h
  if h = 0 ∨ f.1 ≠ sOk then none
  else (tget none s.ks.bodies (kidx s o h)).map (fun b => (if f.2.alg = 0x22 then 3 else 2, b.pub))

/-- Check 2: the digest, and the signature over the header. -/
def progSigned (s : State) (g : Prog) (len : Nat) (b : Bytes) : Bool :=
  let blk := b.drop len
  let scheme := leNat (sliceBytes blk 0 2)
  decide (sha384 ((b.take len).drop 128) = g.digest) &&
    (if g.entry.signer < 32768 then decide (scheme = 1) && sigBlockOk Config.vendorImageKey blk (b.take 128)
     else match signingKey s (g.entry.signer - 32768) with
       | some k => decide (scheme = k.1) && sigBlockOk (fun _ => k.2) blk (b.take 128)
       | none => false)

/-- Check 3: the class is one that the signer may use (02 Table 02.5A). -/
def classPermitted (g : Prog) : Bool :=
  decide (g.entry.cls ≠ 13) && decide (g.entry.cls ≠ 14) &&
    (decide (g.entry.signer < 32768) || [0, 1, 2, 5, 6, 7, 11].contains g.entry.cls)

/-- Check 4: the declared uses are of the class; STREAM and CUSTODY stand in their roles only. -/
def usesPermitted (g : Prog) : Bool :=
  (List.range 16).all (fun u => !(g.entry.uses.testBit u) || (useInK u && classOk u g.entry.cls)) &&
    (decide (g.entry.cls ≠ 12) || decide (g.roles = 1)) && (decide (g.entry.cls ≠ 15) || decide (g.roles = 4))

/-- Check 5: defined words, and branch targets and the entry point inside the code. -/
def codePermitted (g : Prog) : Bool :=
  let n := g.code.length
  g.code.all wordDefined && (List.range n).all (fun i => branchInside n i (g.code.getD i 0)) && decide (g.start < n)

/-- Entries stored, and those of one signer. -/
def progCount (s : State) (q : Prog → Bool) : Nat := (s.progs.filter (fun e => e.2.any q)).length

/-- Bytes that an entry takes in the program store, and those in use. -/
def progSize (g : Option Prog) : Nat := match g with
  | some g => 128 + 4 * g.code.length + g.data.length
  | none => 0
def progBytes (s : State) : Nat := (s.progs.map (fun e => progSize e.2)).foldl (fun a k => a + k) 0

/-- Where an installation puts an entry. -/
def installKey (g : Prog) (hold : Bool) : Nat := if hold then heldKey g.entry.signer g.entry.id else progKey g.entry.signer g.entry.id

/-- Checks 6 and 7: the version, against what is in service and what is held for a swap, and the space, less what the entry replaces. -/
def versionOk (s : State) (g : Prog) : Bool :=
  [progKey g.entry.signer g.entry.id, heldKey g.entry.signer g.entry.id].all (fun k => match tget none s.progs k with
    | some old => decide (old.version < g.version) || (decide (old.version = g.version) && decide (old.digest = g.digest))
    | none => true)
def spaceOk (s : State) (g : Prog) (hold : Bool) : Bool :=
  let old := tget none s.progs (installKey g hold)
  decide (progBytes s - progSize old + progSize (some g) ≤ 1073741824) &&
    (old.isSome || (decide (progCount s (fun _ => true) < 65536) &&
      (decide (g.entry.signer < 32768) || decide (progCount s (fun x => decide (x.entry.signer = g.entry.signer)) < 64))))

/-- The checks of 03 Table 03.8 in order. -/
def installChecks (s : State) (b : Bytes) (hold : Bool) : List (Bool × Nat) :=
  let p := progParse b false
  [(progShape b, sMalformed), (progSigned s p.1 p.2 b, sDenied), (classPermitted p.1, sDenied), (usesPermitted p.1, sMalformed),
    (codePermitted p.1, sMalformed), (versionOk s p.1, sDenied), (spaceOk s p.1 hold, sQuota)]

/-- PROGRAM_INSTALL. -/
def programInstall (w : Work) (s : State) : State :=
  command 0x0C10 w s (fun s => withQuorum s w 0x0C10 7 w.o (fun b _ s =>
    let hold := decide (w.f 48 1 = 1)
    let g := (progParse b false).1
    withChecks s w ([(decide (leNat (sliceBytes b 8 2) = 32768 + w.o), sDenied),
      (w.unused 0 && decide (w.f 48 1 ≤ 1) && w.z 49 64 && w.fits 4, sMalformed)] ++ installChecks s b hold) (fun s =>
      endChange (setProg s (installKey g hold) (some g)) w sOk (leBytes 2 g.entry.id ++ [0, 0]))))
def execProgramInstall (w : Work) (s : State) : Host.Outcome State Fault Refusal := .next (programInstall w s)

/-- PROGRAM_REMOVE. -/
def programRemove (w : Work) (s : State) : State :=
  command 0x0C11 w s (fun s => withQuorum s w 0x0C11 7 w.o (fun b _ s =>
    let k := progKey (32768 + w.o) (w.f 48 2)
    let h := heldKey (32768 + w.o) (w.f 48 2)
    withChecks s w [((tget none s.progs k).isSome || (tget none s.progs h).isSome, sDenied),
      (w.unused 0 && w.z 50 64 && decide (b = []) && w.fits 0, sMalformed)] (fun s =>
      endChange (setProg (setProg s k none) h none) w sOk)))
def execProgramRemove (w : Work) (s : State) : Host.Outcome State Fault Refusal := .next (programRemove w s)

/-- ROLE_SET. -/
def roleSet (w : Work) (s : State) : State :=
  command 0x0C20 w s (fun s =>
    let lg := w.f 48 1
    let role := w.f 49 1
    let hit := fun (n : Nat) => decide (n = lg)
    withChecks s w [(decide (w.o = 0), sDenied),
      (w.unused 0 && decide (lg < 64) && decide (role ≤ 2) && w.z 50 64 && decide (w.len = 0) && w.fits 0, sMalformed),
      (!(s.wear.removed.contains lg) && decide (2 ≤ custodyAfter s hit role), sDenied)] (fun s =>
      endWith (setRoles s hit role) w sOk))
def execRoleSet (w : Work) (s : State) : Host.Outcome State Fault Refusal := .next (roleSet w s)

/-- OWNER_ENTRY_COMMAND: the facet that the command was dispatched to enters the owner's entry; its instructions follow, up to DONE
(03 R69). -/
def ownerEntryCommand (w : Work) (op : Nat) (s : State) : State :=
  command (0x8000 + op) w s (fun s =>
    match entryFor s w.o (0x8000 + op) w.acc with
    | none => endWith s w sUnsupported
    | some g => match jrRunning s w.o w.t with
      | some (_, r) =>
        if r.facet = 0 then s
        else showEntry (s.modFacet (r.facet - 1) (fun f => loadWindow { f with entry := some g.entry, first := some g.entry, pc := g.start } g)) (r.facet - 1)
      | none => s)
def execOwnerEntryCommand (w : Work) (op : Fin 1024) (s : State) : Host.Outcome State Fault Refusal := .next (ownerEntryCommand w op.val s)

end Sys2Proof.Machine
end

