-- ==== Sys2Proof/Machine/Ring.lean ====
section
/-! DEFINITION. Machine/Ring.lean: the Veinad ring: lanes and links, membership, mirroring, leases, takeover, copies, the pass mirror
(13), and ring time (10 R285). -/

namespace Sys2Proof.Machine

open Sys2Proof

/-- Events of 13, in the order of its rules: table digests differ, mirror fault, authentication failed, version or table conflict,
fenced, digest failures of a copy, a partial copy discarded, a register write refused. -/
def evTable : Nat := 0x0B01
def evMirrorFault : Nat := 0x0B02
def evLinkAuth : Nat := 0x0B03
def evConflict : Nat := 0x0B04
def evFenced : Nat := 0x0B05
def evCopyDigest : Nat := 0x0B06
def evPartial : Nat := 0x0B07
def evRingWriter : Nat := 0x0B08

/-! ## The order of the active nodes -/

/-- The node after `n` in a cyclic order; `n` itself where it is alone or not listed. -/
def nextOf (l : List Nat) (n : Nat) : Nat :=
  match l.dropWhile (fun x => x != n) with
  | _ :: x :: _ => x
  | [_] => l.headD n
  | [] => n
def prevOf (l : List Nat) (n : Nat) : Nat := nextOf l.reverse n

/-- Show successor and predecessor. -/
def showNeighbours (s : State) : State :=
  (s.poke F.VR_STATE_SUCC (nextOf s.ring.order s.nodeId)).poke F.VR_STATE_PRED (prevOf s.ring.order s.nodeId)
def setOrder (s : State) (l : List Nat) : State := showNeighbours (setRing s { s.ring with order := l })

/-- A node is no longer active. -/
def dropNode (s : State) (n : Nat) : State :=
  let s := nodeLost s n
  let s := setOrder s (s.ring.order.filter (fun x => x != n))
  s.poke F.VR_MEMBERS_MEMBERS (s.get F.VR_MEMBERS_MEMBERS - (if (s.get F.VR_MEMBERS_MEMBERS).testBit n then 2 ^ n else 0))

/-- The node's own place: behind its west neighbour, else before its east neighbour, as its markers show them. -/
def selfOrder (s : State) : List Nat :=
  let me := s.nodeId
  let l := s.ring.order.filter (fun x => x != me)
  let w := if s.is F.VR_LINK_UP 1 then [s.get F.VR_LINK_PEER 1] else []
  let e := if s.is F.VR_LINK_UP 0 then [s.get F.VR_LINK_PEER 0] else []
  match w.filter (fun x => l.contains x), e.filter (fun x => l.contains x) with
  | a :: _, _ => l.takeWhile (fun x => x != a) ++ [a, me] ++ (l.dropWhile (fun x => x != a)).drop 1
  | [], b :: _ => l.takeWhile (fun x => x != b) ++ [me] ++ l.dropWhile (fun x => x != b)
  | [], [] => me :: (e ++ w).eraseDups.filter (fun x => x != me)

/-! ## Messages -/

/-- A MEMBERS frame to every node (13 R339, R340): order, members, ring and command-set version, the node that serves each owner. -/
def membersBytes (order : List Nat) (members ver cmds : Nat) (homes : List (Nat × Nat)) : Bytes :=
  leBytes 1 order.length ++ order.flatMap (leBytes 1) ++ leBytes 2 members ++ leBytes 1 ver ++ leBytes 1 cmds ++
    homes.flatMap (fun e => leBytes 2 e.1 ++ leBytes 1 e.2)
def sendMembers (s : State) : State :=
  ringBoth s rkMembers 255 (membersBytes s.ring.order (s.get F.VR_MEMBERS_MEMBERS) (s.get F.VR_VERSION_IN_USE) s.commonVer
    ((s.own.filter (fun e => decide (e.1 ≠ 0))).map (fun e => (e.1, e.2.home))))

/-- A JOIN frame (13 R339). -/
def joinBytes (m : JoinMsg) : Bytes :=
  leBytes 1 (b2n m.request + 2 * b2n m.active + 4 * b2n m.accept) ++ leBytes 1 m.lo ++ leBytes 1 m.hi ++ m.digest ++ leBytes 1 m.cmds
def joinOf (s : State) (request accept : Bool) : JoinMsg :=
  ⟨request, decide (s.ringState ≠ 0), accept, s.get F.VR_VERSION_LOWEST, s.get F.VR_VERSION_HIGHEST, s.ring.digest, 2, 0⟩

/-- Ask to join: the mirror is in INSERT and a port has come up (13 Table 13.7). -/
def joinStart (s : State) : State :=
  if s.mirror = 2 ∧ s.ringState = 0 ∧ 6 ≤ s.get F.DEV_START_STAGE then ringBoth s rkJoin 255 (joinBytes (joinOf s true false)) else s

/-! ## Mirror halves -/

def State.half (s : State) (k : Nat) : Half := if k = 0 then s.ring.h0 else s.ring.h1
def setHalf (s : State) (k : Nat) (h : Half) : State := setRing s (if k = 0 then { s.ring with h0 := h } else { s.ring with h1 := h })

/-- Does the half hold a set that this node has taken over? -/
def halfServes (s : State) (k : Nat) : Bool := s.ring.taken.any (fun t => t.half == k)

/-- The halves that satisfy `q` and hold no set that this node serves. -/
def halvesOf (s : State) (q : Half → Bool) : List Nat :=
  [0, 1].filter (fun k => (s.half k).home.isSome && !(halfServes s k) && q (s.half k))

/-- The key of an entry of a half. -/
def storeKey (kind key : Nat) : Nat := kind * 1099511627776 + key
def Half.kind (h : Half) (kind : Nat) : List (Nat × Bytes) :=
  (h.store.filter (fun e => decide (e.1 / 1099511627776 = kind))).map (fun e => (e.1 % 1099511627776, e.2))

/-- Does a stored acceptance half lie below the release mark of its queue? -/
def belowMark (b : Bytes) (c mark : Nat) : Bool := decide (leNat (sliceBytes b 8 2) = c) && decide (leNat (sliceBytes b 12 8) < mark)

/-- Store one entry (13 Table 13.8): a new acceptance replaces what stood under its index; a release mark drops the records below
it; a record that is EMPTY is dropped. -/
def halfStore (h : Half) (kind key : Nat) (data : Bytes) : Half :=
  match kind with
  | 0 => { h with store := tset [] (tset [] h.store (storeKey 1 key) []) (storeKey 0 key) data }
  | 2 =>
    let gone := (h.kind 0).filter (fun e => belowMark e.2 key (leNat (sliceBytes data 8 8)))
    { h with store := gone.foldl (fun t e => tset [] (tset [] t (storeKey 0 e.1) []) (storeKey 1 e.1) []) (tset [] h.store (storeKey 8 key) data) }
  | 3 =>
    if byteAt data 4 = 0 then { h with store := tset [] (tset [] h.store (storeKey 3 key) []) (storeKey 4 key) [] }
    else { h with store := tset [] h.store (storeKey 3 key) data }
  | k => { h with store := tset [] h.store (storeKey k key) data }

/-- What COPY_SEAL's digest covers: journal records, key records and bodies (13 R350). -/
def storeDigest (t : Tab Bytes) : Bytes :=
  sha384 ((t.filter (fun e => [0, 1, 3, 4].contains (e.1 / 1099511627776))).flatMap (fun e => leBytes 8 e.1 ++ leBytes 4 e.2.length ++ e.2))

/-! ## Fencing and the loss of a holder (13 R343, R345) -/

def setRingState (s : State) (v : Nat) : State := s.put F.VR_STATE_STATE v

/-- Every queue goes on as far as it can. -/
def queuesSettle (s : State) : State :=
  let s := (s.jr.recs.map Prod.fst).foldl compSettle s
  (s.jr.queues.map Prod.fst).foldl (fun (s : State) c => releaseSettle (acceptQueue s c) c) s

/-- Commit to MRAM the records of owners that lose their holder (R343 steps 2 and 3). -/
def commitLost (s : State) (hit : Nat → Bool) : State :=
  s.jr.recs.foldl (fun (s : State) e => match e.2 with
    | some r => if 2 ≤ r.mode ∧ hit r.owner ∧ !r.answer then
        let slot := lowestFree (s.jr.recs.length + 1) 0 (fun k => s.jr.recs.any (fun x => (x.2.bind (fun r => r.slot)) == some k))
        jrMod s e.1 (fun r => { r with slot := r.slot.or (some slot), accMram := true, compMram := r.compMram || r.comp.isSome })
      else s
    | none => s) s

/-- Has the set of an owner no holder? -/
def State.noHolder (s : State) (o : Nat) : Bool := decide (o ≠ 0) && (match s.ring.taken.find? (fun t => t.owners.contains o) with
  | some t => decide (t.holder = 0)
  | none => decide (s.ring.holder = 0))

/-- FENCED ends: the owners resume, those without a holder in fallback (R343, R345). -/
def unfence (s : State) : State :=
  if s.ringState = 3 then queuesSettle (commitLost (setRingState s 2) s.noHolder) else s

/-- The node ceases to hold its predecessors' mirrors and tells them (R343, R351). -/
def dropHalves (s : State) : State := (halvesOf s (fun _ => true)).foldl (fun (s : State) k =>
  setHalf (ringSend s 1 rkHolderLost (s.half k).src (leBytes 1 ((s.half k).home.getD 0))) k Half.zero) s

/-- The sets whose home satisfies `q` have no holder any more. `proof` says that the holder itself cannot take them over: then the
own set's lease does not matter any more, and FENCED ends (R345). -/
def holderLost (s : State) (q : Nat → Bool) (proof : Bool) : State :=
  let own := q s.nodeId && decide (s.ring.holder ≠ 0)
  let lost := fun (t : TakenSet) => q t.home && decide (t.holder ≠ 0)
  if !own && !(s.ring.taken.any lost) then s
  else
    let hit := fun (o : Nat) => decide (o ≠ 0) && (match s.ring.taken.find? (fun t => t.owners.contains o) with
      | some t => lost t
      | none => own)
    let any := s.own.any (fun e => hit e.1 && decide (2 ≤ e.2.mode))
    let waits := s.ring.mwait.filter (fun w => !(hit (if w.2.1 = 2 then s.ctxOwner w.2.2.1 else match tget none s.jr.recs w.2.2.1 with
      | some r => r.owner
      | none => 0)))
    let s := setRing s { s.ring with
      holder := if own then 0 else s.ring.holder, leased := s.ring.leased && !(own && proof), mwait := waits
      taken := s.ring.taken.map (fun t => if lost t then { t with holder := 0 } else t) }
    let s := if own then (s.put F.VR_STATE_HELD 0).raise F.VR_EVENTS_HOLDER_LOST else s
    let s := if any then s.raise F.VR_EVENTS_FALLBACK_SEEN else s
    if s.ringState = 3 then (if own && proof then unfence s else s) else queuesSettle (commitLost s hit)

/-! ## Copies (13 R350 to R353) -/

/-- The content of a set as a copy carries it, by kind and key: journal records of modes 2 and 3, key records with their pages'
durable versions, bodies, lease marks, owner-table entries, custody state, queue durable entries. -/
def setContent (s : State) (home : Nat) : Tab Bytes :=
  let sp := match s.ring.taken.find? (fun t => t.home == home) with
    | some t => t.home + 1
    | none => 0
  let mine := fun (o : Nat) => decide (o ≠ 0) && decide (homeOf s o = home)
  let put := fun (t : Tab Bytes) (kind key : Nat) (d : Bytes) => tset [] t (storeKey kind key) d
  let t := s.ks.recs.foldl (fun t e => if idxSpace e.1 = sp ∧ mirrored e.1 e.2 then
    put t 3 (e.1 % 33554432) (recBytes e.2 (e.1 % 33554432 * 128) ++ leBytes 8 (s.leaf (pageOf e.1)).dur) else t) []
  let t := s.ks.bodies.foldl (fun t e => match e.2 with
    | some b => if idxSpace e.1 = sp ∧ mirrored e.1 (s.krec e.1) then
        put t 4 (e.1 % 33554432) (bodyBytes (s.krec e.1).handle (s.krec e.1).alg b) else t
    | none => t) t
  let t := s.ks.marks.foldl (fun t e =>
    if e.1 / 4294967296 = sp ∧ (s.krec (sp * 33554432 + hIdx (e.1 % 4294967296))).owner ≠ 0 then put t 5 (e.1 % 4294967296) (leBytes 8 e.2)
    else t) t
  let t := s.own.foldl (fun t e => if mine e.1 ∧ e.2.state ≠ oStandby ∧ e.2.state ≠ oTaken then
    put (put t 6 e.1 (ownerEntry e.1 e.2)) 7 e.1 (custodyBytes e.2) else t) t
  let t := s.jr.durable.foldl (fun t e => if mine (s.ctxOwner e.1) then
    put t 8 e.1 (leBytes 8 e.2.next ++ leBytes 8 e.2.mark ++ leBytes 2 e.1 ++ leBytes 1 e.2.mode ++
      leBytes 2 (s.get F.QP_ID_QPN e.1) ++ leBytes 2 (s.ctxOwner e.1)) else t) t
  s.jr.recs.foldl (fun t e => match e.2 with
    | some r => if 2 ≤ r.mode ∧ mine r.owner ∧ !r.answer ∧ r.st ≠ .stamped ∧ r.st ≠ .releasing then
        let t := put t 0 e.1 (accHalf r (jrAddr e.1) ++ fitBytes 64 r.sub ++ leBytes 2 (s.get F.QP_ID_QPN r.ctx))
        match r.comp with
        | some c => put t 1 e.1 (compHalf r c (jrAddr e.1 + 64) ++ r.result.take 256)
        | none => t
      else t
    | none => t) t

/-- COPY_SEAL once the holder has acknowledged every entry (R350 step 3). -/
def copySealTry (s : State) : State :=
  if s.get F.VR_COPY_STATE = 2 ∧ s.ring.copyAck = s.ring.mseq ∧ s.ring.copySeal = 0 then
    let home := if s.ring.copySet = 0 then s.nodeId else s.ring.copySet - 1
    ringSend (setRing s { s.ring with copySeal := s.ring.mseq + 1 }) 0 rkCopySeal (s.get F.VR_COPY_TARGET)
      (leBytes 1 home ++ leBytes 4 s.ring.copyEpoch ++ leBytes 8 s.ring.mseq ++ storeDigest (setContent s home))
  else s

/-- The set to copy next: the node's own first, then a taken-over set whose pages are re-sealed (R350). -/
def copyNext (s : State) : Option Nat :=
  if s.ring.holder ≠ s.succ + 1 then some 0
  else (s.ring.taken.find? (fun t => t.resealed && decide (t.holder ≠ s.succ + 1))).map (fun t => t.home + 1)

/-- Start a copy epoch where one is due. -/
def copyStart (s : State) : State :=
  if (s.ringState ≠ 1 ∧ s.ringState ≠ 2) ∨ !s.hasSucc ∨ !(s.rlink 0).auth ∨ s.ring.copyHold ∨ s.get F.VR_COPY_STATE = 1 ∨
      s.get F.VR_COPY_STATE = 2 then s
  else match copyNext s with
    | none => s
    | some k =>
      let home := if k = 0 then s.nodeId else k - 1
      let n := s.ring.copyEpoch + 1
      let l := setContent s home
      let size := (l.map (fun e => e.2.length)).foldl (fun a b => a + b) 0
      let s := setRing s { s.ring with copySet := k, copyEpoch := n, copySeal := 0, copyAck := s.ring.mseq }
      let s := ((s.put F.VR_COPY_STATE 1).poke F.VR_COPY_TARGET s.succ).poke F.VR_COPY_MIB (min 6400 (size / 1048576))
      let s := l.foldl (fun (s : State) e => ringSend s 0 rkCopyData s.succ (leBytes 1 home ++ leBytes 4 n ++
        leBytes 1 (e.1 / 1099511627776) ++ leBytes 8 (e.1 % 1099511627776) ++ e.2)) s
      copySealTry (s.put F.VR_COPY_STATE 2)

/-- The outgoing copy ends unsealed (R351). -/
def copyAbort (s : State) (digestFail : Bool) : State :=
  if s.get F.VR_COPY_STATE ≠ 1 ∧ s.get F.VR_COPY_STATE ≠ 2 then s
  else
    let s := (s.put F.VR_COPY_STATE 4).raise F.VR_COPY_ABORT_SEEN
    if !digestFail then setRing s { s.ring with copyFails := 0 }
    else
      let n := s.ring.copyFails + 1
      let s := setRing s { s.ring with copyFails := n % 2, copyHold := decide (n = 2) }
      if n = 2 then event s 4 evCopyDigest 134 else copyStart s

/-- LEASE_END: 1.9 ms after the last grant the node is FENCED (R344, R345). It leaves MEMBER, so that it holds no mirror any more and
its copies end (R343, R351). -/
def leaseEnd (s : State) : State :=
  if s.ring.leased ∧ s.ringState = 2 then
    dropHalves (copyAbort (event ((setRingState (setRing s { s.ring with leased := false }) 3).raise F.VR_EVENTS_LEASE_LOST) 4 evFenced 134)
      false)
  else setRing s { s.ring with leased := false }
def execLeaseEnd (s : State) : Host.Outcome State Fault Refusal := .next (leaseEnd s)

def execCopyRetryTimer (s : State) : Host.Outcome State Fault Refusal :=
  .next (copyStart (setRing s { s.ring with copyHold := false }))

/-- Free a half; of an unsealed copy whose copier has failed, an event names the owners (R351, R352). -/
def freeHalf (s : State) (k : Nat) (failed : Bool) : State :=
  let h := s.half k
  let s := setHalf s k Half.zero
  if failed ∧ !h.sealed_ then event s 4 evPartial 134 0xFFFF ((h.kind 6).flatMap (fun e => leBytes 2 e.1)) else s

/-! ## Membership (13 R338 to R340) -/

/-- The waiting owners open (R340). -/
def openWaiting (s : State) : State :=
  let l := (s.own.filter (fun e => e.2.waiting)).map Prod.fst
  let s := { s with own := tmap Owner.absent (fun _ x => { x with waiting := false }) s.own }
  let s := setRing (s.put F.VR_STATE_OPEN_WAIT 0) { s.ring with known := true }
  l.foldl acceptOwner s

/-- JOINING ends once the predecessor's copy epoch is sealed here, or where there is none (Table 13.7). -/
def joinCheck (s : State) : State :=
  if s.ringState = 1 ∧ (s.pred = s.nodeId ∨ (halvesOf s (fun h => h.sealed_ && decide (h.src = s.pred))) ≠ []) then
    let s := setRingState s 2
    let m := s.get F.VR_MEMBERS_MEMBERS
    copyStart (sendMembers (s.poke F.VR_MEMBERS_MEMBERS (if m.testBit s.nodeId then m else m + 2 ^ s.nodeId)))
  else s

/-- The highest version that every member runs, as far as the node knows them. -/
def ringVersion (s : State) : Nat := s.ring.versions.foldl (fun v e => min v e.2.2) 2

/-- OFF becomes JOINING (Table 13.7). -/
def enterJoining (s : State) : State :=
  let s := setRingState s 1
  let s := setOrder s (selfOrder s)
  let s := if s.get F.VR_VERSION_IN_USE = 0 then s.poke F.VR_VERSION_IN_USE (ringVersion s) else s
  joinCheck (copyStart (sendMembers s))

/-- The node leaves the ring: it tells the nodes whose sets it holds, drops its copies, and its own owners fall back (R343, R351). -/
def leaveRing (s : State) : State :=
  if s.ringState = 0 then s
  else
    let s := holderLost (copyAbort (dropHalves s) false) (fun _ => true) true
    let s := queuesSettle (setRingState s 0)
    let s := setRing s { s.ring with granted := 0, leased := false, passProof := false, versions := [], nextVersion := 0, common := 0 }
    let s := (setOrder ((s.poke F.VR_VERSION_IN_USE 0).poke F.VR_MEMBERS_MEMBERS 0) []).poke F.FOC_TSTAT_RING_SRC 0
    fwdAgain (showDisc (setFoc s { s.foc with src := [], ringRun := 0, copied := [], tableIn := false }) s.foc.own)

/-- A version or table conflict (Table 13.7). -/
def ringConflict (s : State) : State := event (mirrorRelease (leaveRing s)) 4 evConflict 134

/-- Do a table digest and a version range agree with this node and the members it knows (R339)? -/
def joinAgrees (s : State) (m : JoinMsg) : Bool :=
  decide (m.digest = s.ring.digest) && decide (m.lo ≤ ringVersion s) && decide (s.get F.VR_VERSION_LOWEST ≤ m.hi) &&
    s.ring.versions.all (fun e => decide (e.2.1 ≤ m.hi))

/-- JOIN. -/
def joinMsg (src : Nat) (m : JoinMsg) (s : State) : State :=
  let ok := joinAgrees s m
  let note := fun (s : State) => setRing s { s.ring with
    versions := tset (0, 0) s.ring.versions src (m.lo, m.hi), common := min m.cmds (if s.ring.common = 0 then 2 else s.ring.common) }
  if m.request ∧ s.ringState ≠ 0 then
    if ok then
      let s := note s
      let s := if m.hi < s.get F.VR_VERSION_IN_USE then setRing s { s.ring with nextVersion := m.hi } else s
      let table := s.timeSource
      let s := sendMembers (ringBoth s rkJoin src (joinBytes (joinOf s false true)))
      if table then copyTable s src else s
    else ringBoth s rkJoin src (joinBytes (joinOf s false false))
  else if s.ringState = 0 ∧ s.mirror = 2 then
    if !m.request ∧ (!m.accept ∨ !ok) then ringConflict s
    else if !ok ∨ (m.request ∧ m.active) then s
    else
      let s := note s
      let s := if m.active then s else setFoc s { s.foc with tableIn := true }
      if m.left = 0 then enterJoining s else s
  else if !m.request ∧ !ok then ringConflict s
  else s
def execJoin (h : RHead) (m : JoinMsg) (s : State) : Host.Outcome State Fault Refusal :=
  .next (ringTake s h rkJoin (joinBytes m) (joinMsg h.src.val m))

/-- Another node now serves an owner (R340, R347). -/
def ownerHome (s : State) (o n : Nat) : State :=
  let x := s.owner o
  if o = 0 ∨ x.state = oAbsent ∨ x.home = n then s
  else
    let s := setOwner s o { x with home := n }
    if n ≠ s.nodeId ∧ x.home = s.nodeId ∧ x.state = oActive then ownerTo s o oTaken else s

/-- MEMBERS. -/
def membersMsg (order : List Nat) (members ver cmds : Nat) (homes : List (Nat × Nat)) (s : State) : State :=
  if s.ringState ≠ 0 ∧ (ver < s.get F.VR_VERSION_LOWEST ∨ s.get F.VR_VERSION_HIGHEST < ver) then ringConflict s
  else
    let mine := if s.isMember ∧ !(members.testBit s.nodeId) then 2 ^ s.nodeId else 0
    let s := setRing s { s.ring with common := cmds, nextVersion := if s.ring.nextVersion = ver then 0 else s.ring.nextVersion }
    let s := setRing s { s.ring with order := order }
    let s := setOrder s (if s.ringState = 0 ∨ order.contains s.nodeId then order else selfOrder s)
    let s := if s.ringState = 0 then s else (s.poke F.VR_VERSION_IN_USE ver).poke F.VR_MEMBERS_MEMBERS (members + mine)
    let s := homes.foldl (fun (s : State) e => ownerHome s e.1 e.2) s
    copyStart (joinCheck (openWaiting s))
def execMembers (h : RHead) (order : List (Fin 16)) (members : BitVec 16) (ver cmds : Nat) (homes : List (Fin 4096 × Fin 16)) (s : State) :
    Host.Outcome State Fault Refusal :=
  let l := order.map (fun x => x.val)
  let hs := homes.map (fun e => (e.1.val, e.2.val))
  .next (ringTake s h rkMembers (membersBytes l members.toNat ver cmds hs) (membersMsg l members.toNat ver cmds hs))

/-! ## Takeover (13 R346 to R349) -/

/-- A register's custody state in bytes, as `custodyBytes` gives it. -/
def custodyParse (x : Owner) (b : Bytes) : Owner :=
  let cust := (List.range 8).foldl (fun (t : Tab (Option Custodian)) k =>
    let c := sliceBytes b (16 * k) 16
    if byteAt c 4 = 1 then tset none t k (some ⟨leNat (c.take 4), leNat (sliceBytes c 6 2), leNat (sliceBytes c 8 6)⟩) else t) []
  { x with custodians := cust, policy := if leNat (sliceBytes b 128 16) = 0 then [] else sliceBytes b 128 16
           challenges := (pieces 46 (b.drop 144)).map (fun c =>
             ⟨c.take 32, leNat (sliceBytes c 32 6), if leNat (sliceBytes c 38 8) = 0 then none else some (leNat (sliceBytes c 38 8))⟩) }

/-- The records of a queue that recovery keeps, in ASEQ order (06 R170): the nearest earlier record of modes 1 to 3 lies below the
release mark or was itself kept. -/
def recoverKept (mark : Nat) (l : List JRec) (kept : List JRec) : List JRec :=
  match l with
  | [] => kept
  | r :: rest =>
    let prev : Int := (r.aseq : Int) - 1 - (r.gap : Int)
    let ok := decide (mark ≤ r.aseq) && (decide (prev < (mark : Int)) || kept.any (fun x => decide ((x.aseq : Int) = prev)))
    recoverKept mark rest (if ok then kept ++ [r] else kept)

def insRec (r : JRec) (l : List JRec) : List JRec :=
  match l with
  | [] => [r]
  | x :: t => if r.aseq ≤ x.aseq then r :: x :: t else x :: insRec r t

/-- Rebuild the unreleased records of a context from what was found (06 R170). The next entry's volatile gap reaches back to the highest kept
record, or to the release mark. -/
def recoverQueue (s : State) (c : Nat) (d : QDur) (l : List JRec) : State :=
  let kept := recoverKept d.mark (l.foldl (fun acc r => insRec r acc) []) []
  let next := (kept.map (fun r => r.aseq + 1)).foldl max d.next
  let s := kept.foldl (fun (s : State) r => jrInstall s { r with ctx := c }) s
  let s := setJr s { s.jr with durable := tset QDur.zero s.jr.durable c { d with next := next } }
  let s := s.put64 F.QP_ASEQ_LO next c
  let s := modQueue s c (fun q => { q with gap := next - (kept.map (fun r => r.aseq + 1)).foldl max d.mark })
  let dropped := (l.filter (fun r => decide (d.mark ≤ r.aseq))).length - kept.length
  if dropped = 0 then s else event s 2 evJrDropped stewardSrc (s.ctxOwner c) (leBytes 2 c ++ leBytes 4 dropped)

/-- The standby context of an owner with a queue-pair number (13 R340). -/
def standbyCtx (s : State) (o qpn : Nat) : Option Nat :=
  (s.ownerCtxs o).find? (fun c => (s.queue c).standby && decide (s.get F.QP_ID_QPN c = qpn))

/-- Step 3 of R347: the queues of the set, from the paired journal part. -/
def takeQueues (s : State) (h : Half) (owners : List Nat) : State :=
  let recs := (h.kind 0).filterMap (fun e =>
    let comp := tget [] h.store (storeKey 1 e.1)
    let c := if halfOk (jrAddr e.1 + 64) (comp.take 64) ∧ comp ≠ [] then some (comp.take 64) else none
    if halfOk (jrAddr e.1) (e.2.take 64) then
      some (leNat (sliceBytes e.2 128 2), jrParse (e.2.take 64) c (sliceBytes e.2 64 64) (comp.drop 64) (leNat (sliceBytes e.2 8 2)))
    else none)
  (h.kind 8).foldl (fun (s : State) e =>
    let o := leNat (sliceBytes e.2 21 2)
    match standbyCtx s o (leNat (sliceBytes e.2 19 2)) with
    | some c => if owners.contains o then
        recoverQueue s c ⟨leNat (e.2.take 8), leNat (sliceBytes e.2 8 8), byteAt e.2 18⟩
          ((recs.filter (fun r => decide (r.2.ctx = e.1) && decide (r.2.owner = o))).map Prod.snd)
      else s
    | none => s) s

/-- Step 2 of R347: the key records, bodies, marks and leaves of the set, in the index space of its home; of pages that are stale, nothing
but that they are lost (04 Table 04.15). Activations whose instants have passed take effect. -/
def takeKeys (s : State) (h : Half) (sp : Nat) (owners : List Nat) : State :=
  let s := (h.kind 5).foldl (fun (s : State) e => setKs s { s.ks with marks := tset 0 s.ks.marks (sp * 4294967296 + e.1) (leNat e.2) }) s
  let s := (h.kind 3).foldl (fun (s : State) e =>
    let r := recParse (e.2.take 128)
    let i := sp * 33554432 + e.1
    let p := pageOf i
    if owners.contains r.owner ∨ (e.1 < 4096 ∧ owners.contains e.1) then
      let s := leaseTake s i r
      let s := if r.ext ∧ r.live then setGranules s (sp * 16777216 + r.granule) r.granules r.handle else s
      let v := max (s.leaf p).cur (leNat (sliceBytes e.2 128 8))
      let ow := if p % 1048576 < 128 then 0 else r.owner
      setLeaf s p { s.leaf p with cur := v, dur := v, owner := ow, durOwner := ow, live := liveCount (pageRecs s p)
                                  lost := h.stale.contains (p % 1048576) }
    else s) s
  actDue <| (h.kind 4).foldl (fun (s : State) e =>
    let i := sp * 33554432 + e.1
    let pl := leNat (sliceBytes e.2 8 2)
    if (s.krec i).live ∧ (s.krec i).ext then
      setKs s { s.ks with bodies := tset none s.ks.bodies i (some ⟨sliceBytes e.2 16 pl, sliceBytes e.2 (16 + pl) (leNat (sliceBytes e.2 10 2))⟩) }
    else s) s

/-- The pages of a space. -/
def spacePages (s : State) (sp : Nat) : List Nat := (s.ks.leaves.map Prod.fst).filter (fun p => decide (pageSpace p = sp))

/-- The owners of a half that a takeover moves: served by the copier, in mode 2 or 3, with standby contexts here (R347). -/
def takeable (s : State) (h : Half) : List Nat :=
  ((h.kind 6).filter (fun e => decide ((s.owner e.1).home = h.src) && decide (2 ≤ byteAt e.2 1) && decide ((s.owner e.1).state = oStandby))).map
    Prod.fst

/-- Take over the set of a sealed half (R347, R348). -/
def takeHalf (s : State) (k : Nat) : State :=
  let h := s.half k
  let home := h.home.getD 0
  let owners := takeable s h
  if owners = [] then setHalf s k Half.zero
  else
    let s := setHalf s k { h with store := [] }
    let s := setRing s { s.ring with taken := s.ring.taken ++ [⟨home, k, owners, false, 0, (RootSlot.zero, RootSlot.zero), 0⟩] }
    let s := ringBoth s rkTakeover 255 (leBytes 1 s.nodeId ++ leBytes 1 h.src ++ owners.flatMap (leBytes 2))
    let s := takeKeys s h (home + 1) owners
    let pages := spacePages s (home + 1)
    let s := setEpoch s (home + 1) ((pages.map (fun p => (s.leaf p).cur / 4294967296 + 1)).foldl max 0)
    let s := (pages.map (fun p => p / 16)).eraseDups.foldl (fun (s : State) g =>
      setKs s { s.ks with tree := tset [] s.ks.tree g (groupDigest g s.leaf), groups := sput s.ks.groups g }) s
    let s := takeQueues (rootAdvance s (home + 1)) h owners
    let s := owners.foldl (fun (s : State) o =>
      let x := custodyParse (ownerFields (s.owner o) (tget [] h.store (storeKey 6 o))) (tget [] h.store (storeKey 7 o))
      deriveOwnerKey (setOwner s o { x with home := s.nodeId, waiting := false }) o) s
    let s := owners.foldl (fun (s : State) o => ownerTo s o oActive) s
    let s := ((s.put F.VR_STATE_TAKEN 1).poke F.VR_STATE_SET_HOME home).raise F.VR_EVENTS_TAKEOVER_DONE
    (resealAll s pages).2

/-- Take over a predecessor that is fenced: every sealed set that it copied here; its partial copies are discarded, and
a set that it was copying anew is not taken over (R346, R352). -/
def takeOver (s : State) (p : Nat) : State :=
  let s := setRing s { s.ring with granted := 0, passProof := false }
  let part := halvesOf s (fun h => decide (h.src = p) && !h.sealed_)
  let homes := part.map (fun k => (s.half k).home)
  let s := part.foldl (fun s k => freeHalf s k true) s
  let s := (halvesOf s (fun h => decide (h.src = p))).foldl (fun (s : State) k =>
    if homes.contains (s.half k).home then setHalf s k Half.zero else takeHalf s k) s
  copyStart (joinCheck (sendMembers (dropNode s p)))

/-- GRANTED_LEASE_EXPIRY: 2.0 ms after the last grant; with a valid lease of its own, the node takes its predecessor over. -/
def execGrantedLeaseExpiry (s : State) : Host.Outcome State Fault Refusal :=
  .next (if s.ring.granted = 0 then s
    else if s.ringState = 2 ∧ s.ring.leased then takeOver s (s.ring.granted - 1)
    else setRing s { s.ring with granted := 0 })

/-- TAKEOVER_RESEAL_DONE: every page of the set is durable (R347 step 4). -/
def execTakeoverResealDone (home : Fin 16) (s : State) : Host.Outcome State Fault Refusal :=
  .next (if (spacePages s (home.val + 1)).all (fun p => !(s.leaf p).pend && !(s.ks.toSeal.contains p)) then
      copyStart (setRing s { s.ring with taken := s.ring.taken.map (fun t => if t.home = home.val then { t with resealed := true } else t) })
    else s)

/-- TAKEOVER (R345, R347, R349; 18 R446). -/
def takeoverMsg (taker node : Nat) (owners : List Nat) (s : State) : State :=
  let s := owners.foldl (fun (s : State) o => ownerHome s o taker) s
  if node = s.nodeId then
    let s := s.raise F.VR_EVENTS_TAKEN_OVER
    let s := if s.ringState = 2 then setRing s { s.ring with fenceReset := true } else s
    unfence (openWaiting s)
  else
    let s := (halvesOf s (fun h => decide (h.src = node) && !h.sealed_)).foldl (fun s k => freeHalf s k true) s
    copyStart (joinCheck (dropNode s node))
def execTakeover (h : RHead) (taker node : Fin 16) (owners : List (Fin 4096)) (s : State) : Host.Outcome State Fault Refusal :=
  let l := owners.map (fun o => o.val)
  .next (ringTake s h rkTakeover (leBytes 1 taker.val ++ leBytes 1 node.val ++ l.flatMap (leBytes 2)) (takeoverMsg taker.val node.val l))

/-! ## Lanes and links (13 R334 to R337) -/

/-- Bits of a marker period on a lane. -/
def markerPeriod : Nat := 4456688

/-- What a lane does at a position: `m` is a valid marker there (R334). -/
def laneStep (l : Lane) (pos : Nat) (m : Option Marker) : Lane :=
  let seen := fun (l : Lane) (m : Marker) => { l with pos := pos, count := m.count.toNat, node := m.node.val, ver := m.ver.val }
  if l.locked then
    if pos ≠ l.expect then l
    else match m with
      | some m => { seen l m with expect := l.expect + markerPeriod, bad := 0 }
      | none => if l.bad + 1 = 4 then Lane.zero else { l with expect := l.expect + markerPeriod, bad := l.bad + 1 }
  else match l.cands.find? (fun c => c.1 == pos), m with
    | some c, none => { l with cands := l.cands.erase c }
    | some c, some m =>
      if c.2 + 1 = 4 then { seen l m with cands := [], locked := true, expect := pos + markerPeriod, bad := 0 }
      else { l with cands := l.cands.map (fun x => if x = c then (pos + markerPeriod, c.2 + 1) else x) }
    | none, some _ => if l.cands.length < 8 then { l with cands := l.cands ++ [(pos + markerPeriod, 1)] } else l
    | none, none => l

def State.lane (s : State) (p k : Nat) : Lane := tget Lane.zero s.ring.lanes (p * 4 + k)

/-- Where a lane's markers stand, brought to the marker count of lane 0. -/
def laneBase (s : State) (p k : Nat) : Int :=
  let d := BitVec.ofNat 32 (s.lane p k).count - BitVec.ofNat 32 (s.lane p 0).count
  ((s.lane p k).pos : Int) - d.toInt * (markerPeriod : Int)

/-- Is the receive direction UP (R335): four lanes locked, markers that agree, a skew of at most 32 blocks of 272 lane bits? -/
def portUp (s : State) (p : Nat) : Bool :=
  let ks := List.range 4
  ks.all (fun k => (s.lane p k).locked && decide ((s.lane p k).node = (s.lane p 0).node)) &&
    ks.all (fun a => ks.all (fun b => decide (laneBase s p a - laneBase s p b ≤ 8704)))

/-- The receive direction of a port goes down: its keys, sequence numbers and frames go, and its lanes hunt again. -/
def portDown (s : State) (p : Nat) : State :=
  let was := s.is F.VR_LINK_UP p
  let s := setRing s { s.ring with
    links := tset RLink.zero s.ring.links p RLink.zero
    lanes := (List.range 4).foldl (fun t k => tset Lane.zero t (p * 4 + k) Lane.zero) s.ring.lanes }
  let s := s.poke F.VR_LINK_LOCK 0 p
  if was then ((s.put F.VR_LINK_UP 0 p).raise F.VR_LINK_UP_CHG p).raise F.VR_EVENTS_LINK_DOWN_SEEN else s
def execRingLinkDown (port : Fin 2) (s : State) : Host.Outcome State Fault Refusal := .next (portDown s port.val)

/-- The markers of a port name a sender: a node other than the former neighbour is proof that the neighbour is in pass, where it is the
node beyond that one (R345, R346). -/
def peerSeen (s : State) (p n : Nat) : State :=
  let old := tget 0 s.ring.former p
  let s := setRing (s.poke F.VR_LINK_PEER n p) { s.ring with former := tset 0 s.ring.former p (n + 1) }
  if old = 0 ∨ old = n + 1 then s
  else
    let s := s.raise F.VR_EVENTS_PASS_PROOF
    let gone := old - 1
    if !(s.ring.order.contains gone) then s
    else if p = 1 then
      if n = prevOf s.ring.order gone ∧ gone ≠ s.nodeId then
        let s := setRing s { s.ring with passProof := true }
        if 2 ≤ s.ringState then takeOver s gone else dropNode s gone
      else s
    else if n = nextOf s.ring.order gone ∧ gone ≠ s.nodeId then
      let s := holderLost (if s.get F.VR_COPY_TARGET = gone then copyAbort s false else s) (fun h => decide (holderOf s h = gone + 1)) true
      copyStart (joinCheck (unfence (dropNode (setRing s { s.ring with leased := false }) gone)))
    else s

/-- ALIGNMENT_MARKER. -/
def alignMarker (p k pos : Nat) (m : Option Marker) (s : State) : State :=
  let s := setRing s { s.ring with lanes := tset Lane.zero s.ring.lanes (p * 4 + k) (laneStep (s.lane p k) pos m) }
  let s := s.poke F.VR_LINK_LOCK ((List.range 4).foldl (fun a j => a + (if (s.lane p j).locked then 2 ^ j else 0)) 0) p
  let up := portUp s p
  let s := if up = s.is F.VR_LINK_UP p then s
    else if up then (s.put F.VR_LINK_UP 1 p).raise F.VR_LINK_UP_CHG p
    else portDown s p
  if up ∧ (s.lane p 0).node < 16 then peerSeen s p (s.lane p 0).node else s
def execAlignmentMarker (port : Fin 2) (lane : Fin 4) (pos : Nat) (m : Option Marker) (s : State) : Host.Outcome State Fault Refusal :=
  .next (alignMarker port.val lane.val pos m s)

/-- RING_LINK_UP: the two ends authenticate, compare their tables and form the link keys (R331, R336). The west link of a ring clone
needs the vendor root alone (18 R453). A fenced node tells its predecessor again that it holds no mirror. -/
def linkUp (p : Nat) (serial cert digest secrets : Bytes) (s : State) : State :=
  if !(s.is F.VR_LINK_UP p) ∨ (s.rlink p).auth ∨ s.mirror ≠ 2 then s
  else if s.get F.DEV_START_STAGE = 4 then
    if p = 1 ∧ Config.certChains cert Config.vendorRoot then setRLink s p { RLink.zero with auth := true, serial := serial } else event s 5 evLinkAuth 134
  else if !(Config.certChains cert s.ring.root) ∨ (memberOf s (fun x => decide (x = serial))).isNone then event s 5 evLinkAuth 134
  else if digest ≠ s.ring.digest then event s 4 evTable 134
  else
    let serials := if p = 0 then Config.serial ++ serial else serial ++ Config.serial
    let key := fun (d : Nat) => kdf secrets "PH64-LINK" (serials ++ leBytes 1 d)
    let s := setRLink s p { RLink.zero with auth := true, serial := serial, txKey := key p, rxKey := key (1 - p) }
    let s := if p = 1 ∧ s.ringState = 3 then ringSend s 1 rkHolderLost s.pred (leBytes 1 s.pred) else s
    copyStart (joinStart s)
def execRingLinkUp (port : Fin 2) (serial cert digest secrets : List (BitVec 8)) (s : State) : Host.Outcome State Fault Refusal :=
  .next (linkUp port.val serial cert digest secrets s)

/-- LINK_REKEY: the sender names, in a LINK_ACK, the sequence number at which its direction moves to the next key. -/
def execLinkRekey (port : Fin 2) (at_ : Nat) (s : State) : Host.Outcome State Fault Refusal :=
  .next (
    let l := s.rlink port.val
    if !l.auth ∨ at_ ≤ l.txSeq ∨ l.rekeyAt.isSome then s
    else
      let s := linkMsg s port.val rkAck (leBytes 8 l.rxSeq ++ leBytes 8 at_)
      setRLink s port.val { s.rlink port.val with rekeyAt := some at_, sinceAck := 0 })

/-- LINK_ACK_SEND: 64 frames or 100 ns have passed. -/
def execLinkAckSend (port : Fin 2) (s : State) : Host.Outcome State Fault Refusal :=
  .next (
    let l := s.rlink port.val
    if l.sinceAck = 0 then s
    else linkMsg (setRLink s port.val { l with sinceAck := 0 }) port.val rkAck (leBytes 8 l.rxSeq))

/-- LINK_ACK: every frame below `acked` leaves the retry buffer. -/
def linkAcked (p acked : Nat) (rekey : Option Nat) (s : State) : State :=
  let l := s.rlink p
  let s := setRLink s p { l with retry := l.retry.filter (fun f => decide (acked ≤ f.seq)), rxRekeyAt := rekey.or l.rxRekeyAt }
  linkDrain l.queue.length s p
def execLinkAck (h : RHead) (acked : Nat) (rekey : Option Nat) (s : State) : Host.Outcome State Fault Refusal :=
  .next (match linkTake s h with
    | (true, (s : State)) => linkAcked h.port.val acked rekey s
    | (false, s) => s)

/-- LINK_NAK: resend from the named frame in order. A frame resent 8 times is not sent again. -/
def linkResend (p first : Nat) (s : State) : State :=
  let l := s.rlink p
  let again := fun (f : RFrame) => decide (first ≤ f.seq) && decide (f.resent < 8)
  let s := setRLink s p { l with retry := l.retry.map (fun f => if again f then { f with resent := f.resent + 1 } else f) }
  { s with sent := s.sent ++ (l.retry.filter again).map (fun f => .ring (decide (p = 0)) f.kind f.bytes) }
def execLinkNak (h : RHead) (first : Nat) (s : State) : Host.Outcome State Fault Refusal :=
  .next (match linkTake s h with
    | (true, (s : State)) => linkResend h.port.val first s
    | (false, s) => s)

/-! ## Mirroring (13 R342, R343) -/

/-- The half that keeps a set for a copier. -/
def halfFor (s : State) (src home : Nat) : Option Nat := (halvesOf s (fun h => decide (h.src = src) && decide (h.home = some home))).getLast?

/-- MIRROR: the entry is stored and acknowledged. -/
def mirrorIn (src home n kind key : Nat) (data : Bytes) (s : State) : State :=
  match (halvesOf s (fun h => decide (h.src = src) && decide (h.home = some home))) with
  | [] => s
  | l => ringSend (l.foldl (fun (s : State) k => setHalf s k { halfStore (s.half k) kind key data with mseq := n + 1 }) s) 1 rkMirrorAck src (leBytes 8 n)
def execMirror (h : RHead) (home : Fin 16) (n : Nat) (kind : Fin 9) (key : Nat) (data : List (BitVec 8)) (s : State) :
    Host.Outcome State Fault Refusal :=
  .next (ringTake s h rkMirror (leBytes 1 home.val ++ leBytes 8 n ++ leBytes 1 kind.val ++ leBytes 8 key ++ data)
    (mirrorIn h.src.val home.val n kind.val key data))

/-- One acknowledged entry meets what waits for it: an acceptance, a completion, a release mark. -/
def ackOne (s : State) (w : Nat × Nat × Nat × Nat) : State :=
  match w.2.1 with
  | 0 => match tget none s.jr.recs w.2.2.1 with
    | some r => acceptQueue (jrSet s w.2.2.1 (some { r with accAck := true })) r.ctx
    | none => s
  | 1 => compSettle (jrMod s w.2.2.1 (fun r => { r with compAck := true })) w.2.2.1
  | _ => releaseSettle (modQueue s w.2.2.1 (fun q => { q with relAck := max q.relAck w.2.2.2 })) w.2.2.1

/-- The set of an entry that waits. -/
def waitHome (s : State) (w : Nat × Nat × Nat × Nat) : Nat :=
  homeOf s (if w.2.1 = 2 then s.ctxOwner w.2.2.1 else match tget none s.jr.recs w.2.2.1 with
    | some r => r.owner
    | none => 0)

/-- MIRROR_ACK: entries are acknowledged in order, up to `n`. -/
def mirrorAck (src n : Nat) (s : State) : State :=
  let hit := fun (w : Nat × Nat × Nat × Nat) => decide (w.1 ≤ n) && decide (holderOf s (waitHome s w) = src + 1)
  let l := s.ring.mwait.filter hit
  let s := setRing s { s.ring with
    mwait := s.ring.mwait.filter (fun w => !(hit w)), macked := max s.ring.macked (n + 1)
    copyAck := if s.get F.VR_COPY_TARGET = src then max s.ring.copyAck (n + 1) else s.ring.copyAck }
  copySealTry (l.foldl ackOne s)
def execMirrorAck (h : RHead) (n : Nat) (s : State) : Host.Outcome State Fault Refusal :=
  .next (ringTake s h rkMirrorAck (leBytes 8 n) (mirrorAck h.src.val n))

/-- HOLDER_LOST for a set: its holder no longer holds it; or its copier has another holder, and the half is freed (R343, R353). A fenced
node's successor that sends it is fenced itself (R345). -/
def holderLostMsg (src home : Nat) (s : State) : State :=
  if holderOf s home = src + 1 then
    let s := if s.get F.VR_COPY_TARGET = src then copyAbort s false else s
    holderLost s (fun h => h == home) true
  else match halfFor s src home with
    | some k => setHalf s k Half.zero
    | none => if src = s.succ then unfence (setRing s { s.ring with leased := false }) else s
def execHolderLost (h : RHead) (home : Fin 16) (s : State) : Host.Outcome State Fault Refusal :=
  .next (ringTake s h rkHolderLost (leBytes 1 home.val) (holderLostMsg h.src.val home.val))

/-- HOLDER_PORT_TIMEOUT: the east port has been down for 100 µs. The holder may still take the set over, so the lease stands. -/
def execHolderPortTimeout (s : State) : Host.Outcome State Fault Refusal :=
  .next (if (s.rlink 0).auth then s else holderLost s (fun _ => true) false)

/-! ## Leases (13 R344) -/

/-- LEASE_REQ_TIMER. -/
def execLeaseReqTimer (s : State) : Host.Outcome State Fault Refusal :=
  .next (if 2 ≤ s.ringState ∧ s.hasSucc ∧ !s.rst.pfail then
      ringBoth s rkLeaseReq (if s.ring.holder = 0 then s.succ else s.ring.holder - 1) []
    else s)

/-- LEASE_REQ: a MEMBER that holds a sealed epoch of the sender's set grants. -/
def leaseReq (src : Nat) (s : State) : State :=
  if s.ringState = 2 ∧ !s.rst.pfail ∧ halvesOf s (fun h => h.sealed_ && decide (h.src = src) && decide (h.home = some src)) ≠ [] then
    let n := s.ring.grants + 1
    ringBoth (setRing s { s.ring with granted := src + 1, grants := n }) rkLeaseGrant src (leBytes 8 n)
  else s
def execLeaseReq (h : RHead) (s : State) : Host.Outcome State Fault Refusal := .next (ringTake s h rkLeaseReq [] (leaseReq h.src.val))

/-- LEASE_GRANT. -/
def leaseGrant (src : Nat) (s : State) : State :=
  if (s.ring.holder = src + 1 ∨ src = s.succ) ∧ 2 ≤ s.ringState then unfence (setRing s { s.ring with leased := true }) else s
def execLeaseGrant (h : RHead) (count : Nat) (s : State) : Host.Outcome State Fault Refusal :=
  .next (ringTake s h rkLeaseGrant (leBytes 8 count) (leaseGrant h.src.val))

/-! ## Copies at either end (13 R350, R351) -/

/-- COPY_DATA: into the half of its epoch, else into a free half; with none, the holder abandons the epoch. -/
def copyData (src home epoch kind key : Nat) (data : Bytes) (s : State) : State :=
  match halvesOf s (fun h => decide (h.src = src) && decide (h.home = some home) && !h.sealed_) with
  | k :: _ =>
    let h := s.half k
    setHalf s k (halfStore (if h.epoch = epoch then h else { Half.zero with home := some home, src := src, epoch := epoch }) kind key data)
  | [] =>
    match [0, 1].find? (fun k => (s.half k).home.isNone) with
    | some k => setHalf s k (halfStore { Half.zero with home := some home, src := src, epoch := epoch } kind key data)
    | none => ringSend s 1 rkCopyAbort src (leBytes 4 epoch ++ [0])
def execCopyData (h : RHead) (home : Fin 16) (epoch : Nat) (kind : Fin 9) (key : Nat) (data : List (BitVec 8)) (s : State) :
    Host.Outcome State Fault Refusal :=
  .next (ringTake s h rkCopyData (leBytes 1 home.val ++ leBytes 4 epoch ++ leBytes 1 kind.val ++ leBytes 8 key ++ data)
    (copyData h.src.val home.val epoch kind.val key data))

/-- A sealed epoch lets an agreed version change take effect (R339). -/
def versionStep (s : State) : State :=
  if s.ring.nextVersion = 0 then s
  else sendMembers (setRing (s.poke F.VR_VERSION_IN_USE s.ring.nextVersion) { s.ring with nextVersion := 0 })

/-- A half for the end of an epoch that had no entry. -/
def copyOpen (s : State) (src home epoch : Nat) : State :=
  if halvesOf s (fun h => decide (h.src = src) && decide (h.home = some home) && !h.sealed_) ≠ [] then s
  else match [0, 1].find? (fun k => (s.half k).home.isNone) with
    | some k => setHalf s k { Half.zero with home := some home, src := src, epoch := epoch }
    | none => s

/-- COPY_SEAL: the digest holds, and the epoch is sealed; an older half of the same set goes. -/
def copySeal (src home epoch n : Nat) (digest : Bytes) (s : State) : State :=
  let s := copyOpen s src home epoch
  match halvesOf s (fun h => decide (h.src = src) && decide (h.epoch = epoch) && !h.sealed_) with
  | [] => ringSend s 1 rkCopyAbort src (leBytes 4 epoch ++ [0])
  | k :: _ =>
    let h := s.half k
    if storeDigest h.store = digest then
      let old := (halvesOf s (fun x => x.sealed_ && decide (x.src = src) && decide (x.home = h.home)))
      let s := old.foldl (fun s j => setHalf s j Half.zero) s
      let s := setHalf s k { h with sealed_ := true, mseq := max h.mseq n }
      versionStep (joinCheck (ringSend s 1 rkCopySealAck src (leBytes 4 epoch)))
    else ringSend (setHalf s k Half.zero) 1 rkCopyAbort src (leBytes 4 epoch ++ [1])
def execCopySeal (h : RHead) (home : Fin 16) (epoch n : Nat) (digest : List (BitVec 8)) (s : State) : Host.Outcome State Fault Refusal :=
  .next (ringTake s h rkCopySeal (leBytes 1 home.val ++ leBytes 4 epoch ++ leBytes 8 n ++ digest) (copySeal h.src.val home.val epoch n digest))

/-- COPY_SEAL_ACK: the set has its holder; the former one is told (R350 step 5, R353). -/
def copySealed (src epoch : Nat) (s : State) : State :=
  if s.get F.VR_COPY_TARGET ≠ src ∨ s.ring.copyEpoch ≠ epoch ∨ s.get F.VR_COPY_STATE ≠ 2 then s
  else
    let k := s.ring.copySet
    let home := if k = 0 then s.nodeId else k - 1
    let old := holderOf s home
    let s := setRing (s.put F.VR_COPY_STATE 3) { s.ring with
      copyFails := 0
      holder := if k = 0 then src + 1 else s.ring.holder
      taken := s.ring.taken.map (fun t => if t.home + 1 = k then { t with holder := src + 1 } else t) }
    let s := if k = 0 then s.put F.VR_STATE_HELD 1 else s
    let s := if old = 0 then s else ringSend s 0 rkHolderLost (old - 1) (leBytes 1 home)
    let s := (s.jr.queues.map Prod.fst).foldl showQueue s
    copyStart (versionStep s)
def execCopySealAck (h : RHead) (epoch : Nat) (s : State) : Host.Outcome State Fault Refusal :=
  .next (ringTake s h rkCopySealAck (leBytes 4 epoch) (copySealed h.src.val epoch))

/-- COPY_ABORT, from the copier or from the holder. -/
def copyAbortMsg (src epoch : Nat) (digestFail : Bool) (s : State) : State :=
  match halvesOf s (fun h => decide (h.src = src) && decide (h.epoch = epoch) && !h.sealed_) with
  | k :: _ => freeHalf s k false
  | [] => if s.get F.VR_COPY_TARGET = src ∧ s.ring.copyEpoch = epoch then copyAbort s digestFail else s
def execCopyAbort (h : RHead) (epoch : Nat) (digestFail : Bool) (s : State) : Host.Outcome State Fault Refusal :=
  .next (ringTake s h rkCopyAbort (leBytes 4 epoch ++ leBytes 1 (b2n digestFail)) (copyAbortMsg h.src.val epoch digestFail))

/-- COPY_LINK_TIMEOUT: a link of a copy epoch has stayed down for 100 µs. -/
def execCopyLinkTimeout (s : State) : Host.Outcome State Fault Refusal :=
  .next (
    let s := if (s.rlink 0).auth then s else copyAbort s false
    if (s.rlink 1).auth then s else (halvesOf s (fun h => !h.sealed_)).foldl (fun s k => freeHalf s k false) s)

/-! ## Records on request (04 R107) -/

/-- The records of a page as a sealed half holds them, and as the node that serves the set holds them. -/
def halfPage (s : State) (k i : Nat) : Bytes :=
  (List.range 32).flatMap (fun j => fitBytes 128 (tget [] (s.half k).store (storeKey 3 (i / 32 * 32 + j))))
def ownPage (s : State) (sp i : Nat) : Bytes := (List.range 32).flatMap (fun j =>
  let x := i / 32 * 32 + j
  let r := s.krec (sp * 33554432 + x)
  if mirrored x r then recBytes r (x * 128) else List.replicate 128 0)

/-- RECORD_REQ: the holder answers from its sealed half, the node that serves a set from its records, another with nothing (04 R107). -/
def recordReq (src sp i : Nat) (s : State) : State :=
  let home := if sp = 0 then src else sp - 1
  let page := match halvesOf s (fun h => h.sealed_ && decide (h.src = src) && decide (h.home = some home)) with
    | k :: _ => halfPage s k i
    | [] => if home = s.nodeId then ownPage s 0 i
      else if s.ring.taken.any (fun t => decide (t.home = home)) then ownPage s sp i else List.replicate 4096 0
  if s.get F.VR_VERSION_IN_USE = 1 then s else ringSend s 1 rkRecordData src (leBytes 1 sp ++ leBytes 4 i ++ page)
def execRecordReq (h : RHead) (space : Fin 17) (index : Fin 33554432) (s : State) : Host.Outcome State Fault Refusal :=
  .next (ringTake s h rkRecordReq (leBytes 1 space.val ++ leBytes 4 index.val) (recordReq h.src.val space.val index.val))

/-- A stale page of a half takes its records anew; what else the half knows of them stands. -/
def halfRestore (h : Half) (p : Nat) (data : Bytes) : Half :=
  let h := (List.range 32).foldl (fun (h : Half) j =>
    let key := p * 32 + j
    halfStore h 3 key (sliceBytes data (j * 128) 128 ++ fitBytes 8 ((tget [] h.store (storeKey 3 key)).drop 128))) h
  { h with stale := sdel h.stale p }

/-- RECORD_DATA: poisoned records of the page, or all of a page that is lost, poisoned whole or of a failed group, return; R94 applies. A
group whose pages have all returned is live. What did not return is asked of the host (04 R107). A page of a half that was stale is stored
again. -/
def recordData (i : Nat) (data : Bytes) (s : State) : State :=
  let p := pageOf i
  match halvesOf s (fun h => decide (h.home.getD 0 + 1 = pageSpace p) && h.stale.contains (p % 1048576)) with
  | k :: _ => setHalf s k (halfRestore (s.half k) (p % 1048576) data)
  | [] =>
    let l := s.leaf p
    let recs := (List.range 32).map (fun k => recParse (sliceBytes data (k * 128) 128))
    let whole := (l.pois || l.lost || l.gfail) && recs.any (fun r => r.live)
    let s := if whole then setLeaf s p { l with gfail := false, owner := (match recs.find? (fun r => r.live) with
        | some r => if p % 1048576 < 128 then 0 else r.owner
        | none => l.owner) } else s
    let s := restorePage s p recs whole
    let s := if l.gfail ∧ whole ∧ (List.range 16).all (fun k => !(s.leaf (p / 16 * 16 + k)).gfail) then
      setKs s { s.ks with groups := sput s.ks.groups (p / 16) } else s
    if !(s.leaf p).gfail ∧ ((s.leaf p).lost ∨ (List.range 32).any (fun k => isPoisoned s (p * 32 + k))) then pageRequest s p else s
def execRecordData (h : RHead) (space : Fin 17) (index : Fin 33554432) (data : List (BitVec 8)) (s : State) :
    Host.Outcome State Fault Refusal :=
  .next (ringTake s h rkRecordData (leBytes 1 space.val ++ leBytes 4 index.val ++ data) (recordData (space.val * 33554432 + index.val) data))

/-! ## The pass mirror and the registers (13 R332, R338, R340, R354) -/

/-- The mirror may insert: ENABLE = 1, step 6 has begun, and the table names this node (R331, R332). -/
def ringInsert (s : State) : State :=
  if s.is F.VR_CFG_ENABLE ∧ 6 ≤ s.get F.DEV_START_STAGE ∧ s.rst.begun ∧ s.mirror = 0 ∧
      (memberOf s (fun x => decide (x = Config.serial))).isSome then setMirror s 1
  else s
def execPassMirrorInserted (s : State) : Host.Outcome State Fault Refusal :=
  .next (if s.mirror = 1 then joinStart (setMirror s 2) else s)
def execPassMirrorPassed (s : State) : Host.Outcome State Fault Refusal := .next (if s.mirror = 3 then ringInsert (setMirror s 0) else s)
def execPassMirrorTimeout (s : State) : Host.Outcome State Fault Refusal :=
  .next (if s.mirror = 1 ∨ s.mirror = 3 then event (setMirror s 4) 4 evMirrorFault 134 else s)

/-- A VR write from a function other than the primary PF. -/
def ringDenied (s : State) : State := event s 2 evRingWriter 134

/-- FORCE_OPEN. -/
def forceOpen (a : Agent) (s : State) : State := if s.outOfReach a 0xA0000 then s else if !(s.isPrimary a) then ringDenied s else openWaiting s
def execForceOpen (a : Agent) (s : State) : Host.Outcome State Fault Refusal := .next (forceOpen a s)

/-- RING_ENABLE_WRITE. -/
def ringEnable (a : Agent) (v : Word) (s : State) : State :=
  if s.outOfReach a 0xA0000 then s
  else if !(s.isPrimary a) then ringDenied s
  else
    let s := if v.getLsbD 30 then openWaiting s else s
    if v.getLsbD 31 then
      (if s.ring.table = [] then s else ringInsert (s.poke F.VR_CFG_ENABLE 1))
    else mirrorRelease (leaveRing (s.poke F.VR_CFG_ENABLE 0))
def execRingEnableWrite (a : Agent) (v : Word) (s : State) : Host.Outcome State Fault Refusal := .next (ringEnable a v s)

/-! ## Ring time (13 R333, 10 R285, R286) -/

/-- A sample of ring time: in ACQUIRING an offset below −1 µs steps time forward, any other is slewed off; the node reports the source's
state once 16 samples in a row lie within ±100 ns. -/
def ringSample (s : State) (at_ : Nat) (src : Int) (disc : Nat) : State :=
  let s := timeAt s at_
  let off : Int := (s.now : Int) - src
  let step := decide (s.foc.ringRun < 16) && decide (off < -1000)
  let s := setFoc (setOffset s off) { s.foc with slew := if step then 0 else off }
  let s := if step then timeAt s src.toNat else s
  let n := if 16 ≤ s.foc.ringRun then 16 else if -100 ≤ off ∧ off ≤ 100 then s.foc.ringRun + 1 else 0
  showDisc (setFoc s { s.foc with ringRun := n }) (if n = 16 then disc else 1)

/-- TIME_BLOCK. A block of another source than the last is an election; the additions in transit go to a new source. -/
def timeBlock (b : TimeBlock) (s : State) : State :=
  let p := b.port.val
  if !b.ok ∨ !(s.lane p b.lane.val).locked ∨ !(s.rlink p).auth ∨ s.ringState = 0 ∨ b.node.val = s.nodeId then s
  else if before3 (timeRank s.foc.own) (s.get F.FOC_TCFG_PRIORITY) s.nodeId (timeRank b.disc.val) b.prio.val b.node.val then
    if s.is F.FOC_TSTAT_RING_SRC then s else becomeSource s
  else
    let changed := s.is F.FOC_TSTAT_RING_SRC || decide (sourceNode s ≠ b.node.val)
    let s := setFoc (s.poke F.FOC_TSTAT_RING_SRC 0) { s.foc with
      src := tset none (if changed then [] else s.foc.src) p (some (b.node.val, b.disc.val, b.hops, b.prio.val))
      ringRun := if changed then 0 else s.foc.ringRun }
    let s := if changed then fwdAgain s else s
    let use := match tget none s.foc.src (1 - p) with
      | some o => decide (b.hops < o.2.2.1) || (decide (b.hops = o.2.2.1) && decide (p = 1))
      | none => true
    if use then ringSample s b.arrival ((b.depart : Int) + b.corr + b.delay) b.disc.val else s
def execTimeBlock (b : TimeBlock) (s : State) : Host.Outcome State Fault Refusal := .next (timeBlock b s)

/-- The time block that a port sends (13 Table 13.4): of the source; of a node that knows none, itself. The GMAC's counter is the
management tick count (log entry 227). -/
def timeBlockBytes (s : State) (p : Nat) : Bytes :=
  let own := (s.nodeId, s.foc.own, 0)
  let x := if s.is F.FOC_TSTAT_RING_SRC then own
    else match (tget none s.foc.src (1 - p)).or (sourceInfo s) with
      | some y => (y.1, y.2.1, y.2.2.1 + 1)
      | none => own
  let b := [0x66] ++ beBytes 1 x.1 ++ beBytes 1 x.2.1 ++ beBytes 1 x.2.2 ++ beBytes 6 (s.now / secNs) ++ beBytes 4 (s.now % secNs) ++ [0, 0, 0, 0]
  let c := b ++ (gcmTag 3 (s.rlink p).txKey (beBytes 12 s.mtick) b []).take 12
  c ++ beBytes 2 (checkValue 3 none c)

/-- Every active node passes the time on in both ring directions (10 R285). -/
def timeBlocks (s : State) : State :=
  [0, 1].foldl (fun (s : State) p => if s.ringState ≠ 0 ∧ (s.rlink p).auth then
    { s with sent := s.sent ++ [.ring (decide (p = 0)) 0x66 (timeBlockBytes s p)] } else s) s

end Sys2Proof.Machine
end

