-- ==== Sys2Proof/Machine/Image.lean ====
section
/-! DEFINITION. Machine/Image.lean: the Tyusk image: its layout, the checks of 18 Table 18.14, and what an accepted image installs (18 R453
to R456, R463). -/

namespace Sys2Proof.Machine

open Sys2Proof

/-- An owner entry of an image is skipped (03 R67). -/
def evProgSkipped : Nat := 0x0201

/-! ## Layout (18 Tables 18.12 and 18.13) -/

def allZero (b : Bytes) : Bool := b.all (fun x => decide (x = 0))

/-- A little-endian field of `k` bytes at `o`. -/
def imgNat (b : Bytes) (o k : Nat) : Nat := leNat (sliceBytes b o k)
def imgCount (b : Bytes) : Nat := imgNat b 10 2

/-- Where the signature block starts, and how long it is. -/
def imgTable (b : Bytes) : Nat := 256 + 64 * imgCount b
def imgBlock (b : Bytes) : Nat := 8 + imgNat b (imgTable b + 4) 4

/-- The segment table: index and entry. -/
def imgSegs (b : Bytes) : List (Nat × Bytes) := (List.range (imgCount b)).map (fun k => (k, sliceBytes b (256 + 64 * k) 64))
def segBytes (b e : Bytes) : Bytes := (b.drop (imgNat e 4 4)).take (imgNat e 8 4)

/-- Is a segment type one of this image's format (18 R454)? -/
def segKnown (b : Bytes) (typ : Nat) : Bool := decide (1 ≤ typ) && decide (typ ≤ 12) && (decide (typ ≠ 7) || decide (imgNat b 4 2 = 2))

/-- The segment of a type; the first, where the table lists more. -/
def segOf (b : Bytes) (typ : Nat) : Option Bytes :=
  if segKnown b typ then ((imgSegs b).find? (fun e => imgNat e.2 0 2 == typ)).map (fun e => segBytes b e.2) else none

/-! ## Checks 1 to 5 (18 Table 18.14) -/

/-- Check 1. -/
def imgShape (b : Bytes) : Bool :=
  decide (256 ≤ b.length) && decide (imgNat b 0 4 = 0x4B535954) && (decide (imgNat b 4 2 = 1) || decide (imgNat b 4 2 = 2)) &&
    decide (imgNat b 6 2 = 256) && decide (2 ≤ imgCount b) && decide (imgCount b ≤ 64) && decide (imgNat b 12 4 = b.length) &&
    decide (b.length ≤ 536870912) && decide (imgTable b + imgBlock b ≤ b.length) &&
    (imgSegs b).all (fun e => decide (imgTable b + imgBlock b ≤ imgNat e.2 4 4) && decide (imgNat e.2 4 4 + imgNat e.2 8 4 ≤ b.length) &&
      (segKnown b (imgNat e.2 0 2) || !((imgNat e.2 2 2).testBit 0))) &&
    [1, 2, 3, 9, 12].all (fun t => (segOf b t).isSome)

/-- Check 2, with the table digest of the header. -/
def imgSigned (b : Bytes) : Bool :=
  let blk := sliceBytes b (imgTable b) (imgBlock b)
  decide (leNat (sliceBytes blk 0 2) = 1) && sigBlockOk Config.vendorImageKey blk (b.take (imgTable b)) &&
    decide (sha384 (sliceBytes b 256 (64 * imgCount b)) = sliceBytes b 32 48)

/-- Check 3. -/
def imgBound (b : Bytes) : Bool := allZero (sliceBytes b 16 16) || decide (sliceBytes b 16 16 = Config.serial)

/-- Check 5: the CRC-32 of a segment with its index as context, and its SHA-384. -/
def imgIntact (b : Bytes) : Bool := (imgSegs b).all (fun e =>
  decide (checkValue 1 (some e.1) (segBytes b e.2) = imgNat e.2 12 4) && decide (sha384 (segBytes b e.2) = sliceBytes e.2 16 48))

/-! ## Check 6: the segments (18 R463) -/

/-- Does a register image leave the reserved bits of its register 0? -/
def regClean (off : Nat) (w : Nat) : Bool :=
  match regRow off with
  | none => decide (w = 0)
  | some r => buildWord r.fields (fun f => bitsOf (BitVec.ofNat 32 w) f.lo (f.hi - f.lo + 1)) == BitVec.ofNat 32 w

/-- The program entries of a segment, each padded with zeros to a multiple of 8 bytes. -/
def progEntries (fuel : Nat) (b : Bytes) : Option (List Bytes) :=
  match fuel with
  | 0 => if b = [] then some [] else none
  | f + 1 =>
    if b = [] then some []
    else
      let n := 128 + 4 * imgNat b 18 2 + imgNat b 20 4
      let l := n + 8 + imgNat b (n + 4) 4
      if b.length < l ∨ !(allZero ((b.drop l).take (pad8 l - l))) then none
      else (progEntries f (b.drop (pad8 l))).map (fun r => b.take l :: r)

/-- Install an entry of an image, when every check of 03 Table 03.8 passes. -/
def imgEntry (s : State) (b : Bytes) (owner : Bool) : Option State :=
  let g := (progParse b true).1
  if decide (32768 ≤ g.entry.signer) = owner ∧ (installChecks s b false).all (fun c => c.1) then
    some (setProg s (progKey g.entry.signer g.entry.id) (some g))
  else none

/-- The vendor library, installed; none where an entry fails. -/
def vendorLibrary (s : State) (b : Bytes) : Option State := match progEntries b.length b with
  | none => none
  | some l => l.foldl (fun (acc : Option State) e => acc.bind (fun s => imgEntry s e false)) (some s)

/-- The image owner record of an owner. -/
def imgOwner (seg : Bytes) (o : Nat) : Bytes := sliceBytes seg (64 * o) 64

def imgOwnerOk (s : State) (seg : Bytes) (o : Nat) : Bool :=
  let r := imgOwner seg o
  let p := byteAt r 0
  decide (p ≤ 2) && decide (crc32c o (r.take 60) = imgNat r 60 4) && decide (byteAt r 5 = 0) && zeroAt r 40 60 &&
    (decide (o ≠ 0) || decide (p = 1)) &&
    (decide (p = 0) || (ownerRanges s o (if byteAt r 1 = 0xFF then spliceBytes r 1 [0] else r)).all (fun f => f.2.2))

/-- Gate entries name vendor entries of class CUSTODY. -/
def imgGatesOk (s : State) (seg : Bytes) : Bool :=
  decide (seg.length = 256) && (pieces 4 seg).all (fun g =>
    decide (byteAt g 2 ≤ 1) && decide (byteAt g 3 = 0) && (decide (byteAt g 2 = 0) ||
      (match tget none s.progs (imgNat g 0 2) with
        | some x => decide (x.entry.cls = 15)
        | none => false)))

def imgPort (seg : Bytes) (n : Nat) : Bytes := sliceBytes seg (64 * n) 64
def imgTemplate (seg : Bytes) (n t : Nat) : Bytes := sliceBytes seg (1024 + 64 * (16 * n + t)) 64

def imgPortsOk (seg : Bytes) : Bool :=
  decide (seg.length = 17408) && (List.range 16).all (fun n =>
    let r := imgPort seg n
    decide (byteAt r 4 ≤ 1) && zeroAt r 5 6 && zeroAt r 8 64 && regClean 0xC0000 (imgNat r 0 4) &&
      (List.range 16).all (fun t =>
        let e := imgTemplate seg n t
        decide (byteAt e 14 < 4) && decide (byteAt e 17 < 16) && zeroAt e 56 64))

/-- The member entries of a ring segment: serial, node ID, certificate. -/
def ringMembers (seg : Bytes) : List (Bytes × Nat × Bytes) := (List.range (byteAt seg 0)).map (fun k =>
  let e := sliceBytes seg (8 + 4096 * k) 4096
  (sliceBytes e 0 16, byteAt e 16, sliceBytes e 32 (imgNat e 24 4)))

/-- The home node of an owner; none for 0xFF. -/
def ringHome (seg : Bytes) (o : Nat) : Option Nat :=
  let h := byteAt seg (8 + 4096 * byteAt seg 0 + imgNat seg 4 4 + o)
  if h = 0xFF then none else some h

def imgRingOk (seg : Bytes) : Bool :=
  let m := byteAt seg 0
  let l := ringMembers seg
  decide (2 ≤ m) && decide (m ≤ 16) && zeroAt seg 1 4 && decide (seg.length = 8 + 4096 * m + imgNat seg 4 4 + 4096) &&
    (List.range m).all (fun k =>
      let e := sliceBytes seg (8 + 4096 * k) 4096
      decide (byteAt e 16 < 16) && zeroAt e 17 24 && zeroAt e 28 32 && decide (imgNat e 24 4 ≤ 4064) && zeroAt e (32 + imgNat e 24 4) 4096) &&
    decide ((l.map (fun e => e.1)).eraseDups.length = m) && decide ((l.map (fun e => e.2.1)).eraseDups.length = m) &&
    l.any (fun e => decide (e.1 = Config.serial)) && decide (ringHome seg 0 = none) &&
    (List.range 4096).all (fun o => (ringHome seg o).all (fun h => decide (h < 16)))

/-- The focus defaults: types, state and outcome, ranges. A PROGRAM_SWAP's entries are looked for when it is added. -/
def imgFocusOk (s : State) (seg : Bytes) : Bool :=
  let n := imgNat seg 4 2
  decide (seg.length = 16 + 64 * n) && zeroAt seg 6 16 && regClean 0x80010 (imgNat seg 0 4) && (List.range n).all (fun k =>
    let e := sliceBytes seg (16 + 64 * k) 64
    let p := sliceBytes e 16 48
    decide (2 ≤ byteAt e 0) && decide (byteAt e 0 ≤ 6) && decide (byteAt e 1 = 0) && decide (imgNat e 2 2 < 4096) &&
      decide (imgNat e 10 4 < secNs) && decide (byteAt e 14 < 16) && decide (byteAt e 15 = 0) &&
      (if byteAt e 0 = 5 then decide (1 ≤ byteAt p 0) && decide (byteAt p 0 ≤ 16) && zeroAt p 1 2 && zeroAt p (2 + 2 * byteAt p 0) 48
       else paramsOk s 0 (byteAt e 0) p))

/-- The aperture tables in the staged registers. -/
def imgStage (s : State) (seg : Bytes) : State :=
  (List.range 384).foldl (fun (s : State) k =>
    let off := 0x200000 + k / 32 * 0x400 + k % 32 * 8
    (s.setReg off (BitVec.ofNat 32 (imgNat seg (8 * k) 4))).setReg (off + 4) (BitVec.ofNat 32 (imgNat seg (8 * k + 4) 4))) s

def imgAptOk (s : State) (seg : Bytes) : Bool :=
  decide (seg.length = 3104) && (List.range 384).all (fun k =>
    regClean (0x200004 + k / 32 * 0x400 + k % 32 * 8) (imgNat seg (8 * k + 4) 4)) &&
    (List.range 12).all (fun u => decide ((stagedFault (imgStage s seg) u).1 = 0)) &&
    (List.range 8).all (fun a => regClean (0x204000 + a * 0x20) (imgNat seg (3072 + 4 * a) 4))

def imgEventsOk (seg : Bytes) : Bool :=
  decide (seg.length = 4256) && (seg.take 2048).all (fun x => decide (x.toNat < 64)) && decide (byteAt seg 4100 ≤ 7) &&
    decide (byteAt seg 4101 ≤ 5) && decide (byteAt seg 4102 ≤ 1) && decide (byteAt seg 4103 = 0) &&
    (List.range 6).all (fun t => regClean (0x6000 + t * 0x100) (imgNat seg (4232 + 4 * t) 4) &&
      ((decide (1 ≤ t) && decide (t ≤ 4)) || decide (imgNat seg (4232 + 4 * t) 4 % 2048 = 0)))

/-- The credential items: type, owner and body. -/
def credItems (fuel : Nat) (b : Bytes) : Option (List (Nat × Nat × Bytes)) :=
  match fuel with
  | 0 => if b = [] then some [] else none
  | f + 1 =>
    if b = [] then some []
    else
      let n := imgNat b 4 4
      if b.length < 8 + pad8 n ∨ byteAt b 1 ≠ 0 ∨ !(zeroAt b (8 + n) (8 + pad8 n)) then none
      else (credItems f (b.drop (8 + pad8 n))).map (fun r => (byteAt b 0, imgNat b 2 2, sliceBytes b 8 n) :: r)

/-- Does a policy keep the floors of 05 Table 05.3? -/
def policyOk (b : Bytes) : Bool :=
  decide (b.length = 16) && decide (byteAt b 0 = 0) && zeroAt b 9 16 &&
    (List.range 8).all (fun c => decide (policyFloor.getD (c + 1) 0 ≤ byteAt b (c + 1)) && decide (byteAt b (c + 1) ≤ 8))

def credItemOk (x : Nat × Nat × Bytes) : Bool :=
  let b := x.2.2
  decide (x.2.1 < 4096) && (match x.1 with
    | 1 => decide (b.length = 8 + imgNat b 4 2) && decide (byteAt b 0 < 8) && decide (imgNat b 2 2 % 2 = 0) && decide (imgNat b 2 2 < 512) &&
        zeroAt b 6 8 && credentialOk (byteAt b 1) (b.drop 8)
    | 2 => policyOk b
    | 3 => decide (b.length = 8 + imgNat b 2 2) && decide (byteAt b 1 = 0) && zeroAt b 4 8 && decide (byteAt b 0 ≠ 0x39) &&
        credentialOk (byteAt b 0) (b.drop 8)
    | 4 => decide (x.2.1 = 0) && decide (b.length = 2688)
    | _ => false)

/-- The items of an image, and its owner-0 debug root. -/
def imgCreds (b : Bytes) : Option (List (Nat × Nat × Bytes)) := match segOf b 11 with
  | some seg => credItems seg.length seg
  | none => some []
def imgRoot (b : Bytes) : Option Bytes := ((imgCreds b).getD []).find? (fun x => x.1 == 4) |>.map (fun x => sha384 x.2.2)

/-- The debug root once programmed is the one that every later image carries (17 R430). -/
def imgRootOk (s : State) (b : Bytes) : Bool := match s.lc.debugRoot with
  | some d => decide (imgRoot b = some d)
  | none => true

/-- The role of a logical facet in the role map of device settings. -/
def imgRole (seg : Bytes) (n : Nat) : Nat := imgNat seg 12 16 / 4 ^ n % 4

/-- A port binding record, a VF's owner, and a queue-context record. -/
def imgBind (seg : Bytes) (p : Nat) : Bytes := sliceBytes seg (64 + 2056 * p) 2056
def imgFnOwner (seg : Bytes) (p : Nat) (vf : Option Nat) : Nat := match vf with
  | none => imgNat (imgBind seg p) 0 2
  | some v => imgNat (imgBind seg p) (8 + 2 * v) 2
def imgTotal (seg : Bytes) (p : Nat) : Nat := imgNat (imgBind seg p) 2 2
def imgCtx (seg : Bytes) (c : Nat) : Bytes := sliceBytes seg (64 + 4 * 2056 + 8 * c) 8
def ctxVf (r : Bytes) : Option Nat := if byteAt r 2 = 0 then none else some (imgNat r 4 2)

def imgCtxOk (seg : Bytes) (c : Nat) : Bool :=
  let r := imgCtx seg c
  if !((byteAt r 0).testBit 0) then allZero r
  else decide (byteAt r 0 < 4) && decide (byteAt r 1 < 4) && zeroAt r 6 8 &&
    (if byteAt r 2 = 0 then decide (byteAt r 3 < 64) && decide (imgNat r 4 2 = 0)
     else decide (byteAt r 2 = 1) && decide (byteAt r 3 < 8) && decide (imgNat r 4 2 < imgTotal seg (byteAt r 1)))

/-- The bound queue-context records. -/
def imgBoundCtxs (seg : Bytes) : List Bytes := ((List.range 16384).map (imgCtx seg)).filter (fun r => (byteAt r 0).testBit 0)

/-- May a function belong to its owner: presence 1, or presence 2 with standby contexts only? -/
def imgFnOk (owners seg : Bytes) (p : Nat) (vf : Option Nat) : Bool :=
  let o := imgFnOwner seg p vf
  let pres := byteAt (imgOwner owners o) 0
  decide (o < 4096) && (decide (pres = 1) || (decide (pres = 2) &&
    (imgBoundCtxs seg).all (fun r => decide (byteAt r 1 ≠ p) || decide (ctxVf r ≠ vf) || (byteAt r 0).testBit 1)))

def imgSettingsOk (owners seg : Bytes) : Bool :=
  let fns := imgBoundCtxs seg
  decide (seg.length = 139360) && decide (byteAt seg 0 < 4) && decide (byteAt seg 1 ≤ 2) && decide (byteAt seg 2 ≤ 1) &&
    decide (byteAt seg 3 % 4 = 3) && regClean 0x3000 (imgNat seg 4 4) && zeroAt seg 28 64 &&
    (List.range 64).all (fun n => decide (imgRole seg n ≤ 2)) &&
    decide (2 ≤ ((List.range 64).filter (fun n => imgRole seg n == 2)).length) &&
    (List.range 4).all (fun p => decide (imgTotal seg p ≤ 1024) && zeroAt (imgBind seg p) 4 8 && imgFnOk owners seg p none &&
      (List.range 1024).all (fun v => if v < imgTotal seg p then imgFnOk owners seg p (some v) else decide (imgFnOwner seg p (some v) = 0xFFFF))) &&
    (List.range 16384).all (imgCtxOk seg) && decide ((fns.map (fun r => r.drop 1)).eraseDups.length = fns.length) &&
    decide (imgFnOwner seg (byteAt seg 0) none = 0)

/-- Check 6. -/
def imgContent (s : State) (b : Bytes) : Bool :=
  let opt := fun (typ : Nat) (ok : Bytes → Bool) => (segOf b typ).all ok
  match segOf b 2, segOf b 3, segOf b 9, segOf b 12 with
  | some lib, some owners, some apt, some set =>
    (match vendorLibrary s lib with
      | none => false
      | some s' => opt 5 (imgGatesOk s')) &&
    decide (owners.length = 262144) && (List.range 4096).all (imgOwnerOk s owners) &&
    opt 4 (fun seg => (progEntries seg.length seg).isSome) && opt 6 imgPortsOk && opt 7 imgRingOk && opt 8 (imgFocusOk s) &&
    imgAptOk s apt && opt 10 imgEventsOk && ((imgCreds b).map (fun l => l.all credItemOk)).getD false && imgRootOk s b &&
    imgSettingsOk owners set
  | _, _, _, _ => false

/-- The first failing check of 18 Table 18.14; 0 where every check passes. -/
def imageCheck (s : State) (b : Bytes) : Nat :=
  if !(imgShape b) then 1
  else if !(imgSigned b) then 2
  else if !(imgBound b) then 3
  else if byteAt b 8 < s.lc.floor then 4
  else if !(imgIntact b) then 5
  else if !(imgContent s b) then 6
  else 0

/-! ## What an image installs -/

/-- An owner of the image that this node does not hold yet (14 Table 14.2). -/
def imgPutOwner (owners : Bytes) (home : Nat → Option Nat) (s : State) (o : Nat) : State :=
  let r := imgOwner owners o
  let p := byteAt r 0
  if p = 0 ∨ (s.owner o).state ≠ oAbsent then s
  else
    let mode := if byteAt r 1 ≠ 0xFF then byteAt r 1 else if s.is F.STRAP_CAPTURE_DURMODE then 2 else 1
    setOwner s o { ownerFields (s.owner o) r with
      mode := mode, cred := 0, home := (home o).getD s.nodeId, state := if p = 1 then oActive else oStandby }

/-- Both buckets are full at start, and nothing waits (14 R363). -/
def ownerFresh (x : Owner) : Owner :=
  { x with cmdTok := x.cmdDepth * tokenUnit, byteTok := ((x.byteDepth * tokenUnit : Nat) : Int), deficit := 0, hxDeficit := 0 }

/-- The functions of a port and their owners. -/
def imgPutPort (seg : Bytes) (s : State) (p : Nat) : State :=
  let s := setFn s (p * 2048) { FnSt.zero with owner := imgFnOwner seg p none }
  (List.range (imgTotal seg p)).foldl (fun (s : State) v => setFn s (p * 2048 + v + 1) { FnSt.zero with owner := imgFnOwner seg p (some v) }) s

/-- A queue context's binding; a format-1 image binds no standby context (18 R454). -/
def imgPutCtx (fmt : Nat) (seg : Bytes) (s : State) (c : Nat) : State :=
  let r := imgCtx seg c
  let standby := (byteAt r 0).testBit 1
  if !((byteAt r 0).testBit 0) ∨ (standby ∧ fmt = 1) then s
  else
    let s := ((s.poke F.QP_ID_PORT (byteAt r 1) c).poke F.QP_ID_KIND (byteAt r 2) c).poke F.QP_ID_VF (imgNat r 4 2) c
    let s := (s.poke F.QP_ID_QPN (byteAt r 3) c).poke F.QP_ID_OWNER (imgFnOwner seg (byteAt r 1) (ctxVf r)) c
    modQueue s c (fun q => { q with bound := true, standby := standby })

/-- The functions and the contexts bound to each owner (14 Table 14.1). -/
def imgCountOwners (fmt : Nat) (seg : Bytes) (s : State) : State :=
  let fnOwners := (List.range 4).flatMap (fun p => imgFnOwner seg p none ::
    (List.range (imgTotal seg p)).map (fun v => imgFnOwner seg p (some v)))
  let ctxOwners := ((imgBoundCtxs seg).filter (fun r => decide (fmt = 2) || !((byteAt r 0).testBit 1))).map (fun r => imgFnOwner seg (byteAt r 1) (ctxVf r))
  { s with own := tmap Owner.absent (fun o x => ownerFresh { x with
      fns := (fnOwners.filter (fun k => k == o)).length, qcs := (ctxOwners.filter (fun k => k == o)).length }) s.own }

/-- Write a word, its out-of-range values as the register's table gives. -/
def imgSpCfg (s : State) (n w : Nat) (strap : Bool) : State :=
  let v := BitVec.ofNat 32 w
  let brk := if strap then s.get F.STRAP_CAPTURE_SPORTMAP else bitsOf v 28 2
  let max := bitsOf v 0 14
  let s := ((s.poke F.SP_CFG_SIDE (bitsOf v 30 1) n).poke F.SP_CFG_BREAKOUT (if brk = 3 then 0 else brk) n).poke F.SP_CFG_PEER (bitsOf v 24 4) n
  s.poke F.SP_CFG_MAX_FRAME (if 64 ≤ max ∧ max ≤ 9600 then max else 9600) n

/-- Port defaults and templates, without ENABLE, which step 7 sets (09 R241). -/
def imgPutPorts (b : Bytes) (s : State) : State :=
  match segOf b 6 with
  | none => { s with rst := { s.rst with portEnable := [] } }
  | some seg =>
    let s := (List.range 16).foldl (fun (s : State) n =>
      let r := imgPort seg n
      let s := (imgSpCfg s n (imgNat r 0 4) (decide (byteAt r 4 = 1))).poke F.SP_SF_UDP_PORT (imgNat r 6 2) n
      (List.range 256).foldl (fun (s : State) k =>
        s.setReg (0xC0800 + n * 0x1000 + 4 * k) (BitVec.ofNat 32 (imgNat seg (1024 + 1024 * n + 4 * k) 4))) s) s
    { s with rst := { s.rst with portEnable := (List.range 16).filter (fun n => (imgNat (imgPort seg n) 0 4).testBit 31) } }

/-- The ring segment; without it the node runs alone and VR_CFG.ENABLE is held at 0. -/
def imgPutRing (b : Bytes) (s : State) : State :=
  match segOf b 7 with
  | none => setRing (s.poke F.VR_CFG_ENABLE 0) { s.ring with table := [], digest := [], root := [] }
  | some seg =>
    let l := ringMembers seg
    let id := ((l.find? (fun e => decide (e.1 = Config.serial))).map (fun e => e.2.1)).getD 0
    setRing (s.poke F.VR_STATE_NODE_ID id) { s.ring with
      table := l, digest := sha384 seg, root := sliceBytes seg (8 + 4096 * l.length) (imgNat seg 4 4) }

/-- Focus settings and defaults. -/
def imgPutFocus (b : Bytes) (s : State) : State :=
  match segOf b 8 with
  | none => { s with rst := { s.rst with focusDefaults := [] } }
  | some seg =>
    let s := timeSourceWrite .steward (BitVec.ofNat 32 (imgNat seg 0 4)) s
    { s with rst := { s.rst with focusDefaults := pieces 64 (seg.drop 16) } }

/-- Prolith time is loaded where it does not run: SRC = 0 takes the floor's seconds and 2 s (10 R283). -/
def imgPutTime (s : State) : State :=
  if s.foc.runs then s
  else
    let s := setNow s (if s.get F.FOC_TCFG_SRC = 0 then (s.foc.floor / secNs + 2) * secNs else 0)
    setFoc s { s.foc with runs := true }

/-- Aperture tables and arbiter settings. -/
def imgPutApt (seg : Bytes) (s : State) : State :=
  let s := (List.range 12).foldl (fun (s : State) u => (aptApply s u).2) (imgStage s seg)
  (List.range 8).foldl (fun (s : State) a =>
    let v := BitVec.ofNat 32 (imgNat seg (3072 + 4 * a) 4)
    (s.poke F.ARB_CFG_BURST (max 1 (bitsOf v 16 8)) a).poke F.ARB_CFG_HOLD (max 16 (bitsOf v 0 16)) a) s

/-- Event routing; priority mode is entered when the segment asks for it and the table passes its check (16 R412). -/
def imgPutEvents (b : Bytes) (s : State) : State :=
  match segOf b 10 with
  | none => s
  | some seg =>
    let word := fun (o : Nat) => BitVec.ofNat 32 (imgNat seg o 4)
    let s := (List.range 512).foldl (fun (s : State) k => (s.setReg (0x5000 + 4 * k) (word (4 * k))).setReg (0x4800 + 4 * k) (word (2048 + 4 * k))) s
    let s := (s.poke F.EVR_PRIO_CV (imgNat seg 4096 4)).poke F.LOG_CTRL_IRQ_SEV (byteAt seg 4101)
    let s := (List.range 64).foldl (fun (s : State) g => s.poke F.EVR_HOLDOFF_TIME (imgNat seg (4104 + 2 * g) 2) g) s
    let s := (List.range 6).foldl (fun (s : State) t => s.setReg (0x6000 + 0x100 * t) (word (4232 + 4 * t))) s
    let s := s.poke F.EVR_PRIGROUP_G (byteAt seg 4100)
    let s := evSettle { s with evr := { s.evr with gWait := some (byteAt seg 4100) } }
    if byteAt seg 4102 = 1 then prioEnable .steward s else s

/-- Gates, and the prism's entry of each suite. -/
def imgPutGates (b : Bytes) (s : State) : State :=
  let gates := match segOf b 5 with
    | none => []
    | some seg => (List.range 64).foldl (fun (t : Tab (Option Nat)) g =>
        if byteAt seg (4 * g + 2) = 1 then tset none t g (some (imgNat seg (4 * g) 2)) else t) []
  let suites := (List.range 6).foldl (fun (t : Tab Nat) k =>
    match tget none s.progs (Config.suiteEntry k) with
    | some g => if g.entry.cls = 12 then tset 0 t k (Config.suiteEntry k + 1) else t
    | none => t) []
  { s with gates := gates, streamEnt := suites }

/-- Device settings (18 Table 18.26). -/
def imgPutSettings (b seg : Bytes) (s : State) : State :=
  let s := (s.poke F.RST_CTRL_PERST0 (byteAt seg 1)).setReg 0x3000 (BitVec.ofNat 32 (imgNat seg 4 4))
  let s := (s.poke F.HX_CFG_QUANTUM (max 4 (min 4096 (imgNat seg 8 2)))).poke F.PRM_LAG_LIMIT_LIMIT (max 10 (min 2000 (imgNat seg 10 2)))
  let s := (if s.is F.TMP_CFG_LOCK then s else s.poke F.TMP_CFG_ERASE (byteAt seg 3)).poke F.TMP_CFG_LOCK 1
  { s with primary := byteAt seg 0
           rst := { s.rst with ringEnable := decide (byteAt seg 2 = 1) && (segOf b 7).isSome
                               totals := (List.range 4).map (imgTotal seg)
                               roles := (List.range 64).foldl (fun t n => tset 0 t n (imgRole seg n)) [] } }

/-- The image comes into force: its tables and entries are loaded, and step 4 ends (18 Table 18.9). -/
def imageInstall (s : State) (b : Bytes) (source : Nat) : State :=
  let fmt := imgNat b 4 2
  let seg := fun (typ : Nat) => (segOf b typ).getD []
  let owners := seg 3
  let set := seg 12
  let home := fun (o : Nat) => (segOf b 7).bind (fun r => ringHome r o)
  let s := imgPutGates b ((vendorLibrary s (seg 2)).getD s)
  let s := imgPutRing b (imgPutSettings b set s)
  let s := (List.range 4096).foldl (imgPutOwner owners home) s
  let s := (List.range 4).foldl (imgPutPort set) s
  let s := (List.range 16384).foldl (imgPutCtx fmt set) s
  let s := imgCountOwners fmt set s
  let s := imgPutPorts b s
  let s := imgPutEvents b (imgPutApt (seg 9) s)
  let s := imgPutTime (imgPutFocus b s)
  let creds := (imgCreds b).getD []
  let s := { s with rst := { s.rst with
    credentials := creds, ownerProgs := ((segOf b 4).bind (fun x => progEntries x.length x)).getD []
    secVersion := byteAt b 8, advanceFloor := (byteAt b 9) % 2 = 1, format := fmt
    imageDigest := sha384 b, libDigest := sha384 (seg 2), imageBuf := [] } }
  let s := if s.lcState = 2 ∧ s.lc.debugRoot.isNone then { s with lc := { s.lc with debugRoot := imgRoot b } } else s
  ((s.poke F.DEV_START_SOURCE source).poke F.DEV_START_RECOVERY 0).poke F.DEV_START_FAIL 0

end Sys2Proof.Machine
end

