-- ==== Sys2Proof/Machine/Reset.lean ====
section
/-! DEFINITION. Machine/Reset.lean: reset sources and what each reset level does (18 R440 to R450). -/

namespace Sys2Proof.Machine

open Sys2Proof

/-- Events of 18, in the order of its rules: a writer refused, an image check failed, a floor bit failed, a power failure, VHOLD low, a focus
default skipped. -/
def evRstWriter : Nat := 0x1001
def evImage : Nat := 0x1002
def evPowerFail : Nat := 0x1004
def evHoldLow : Nat := 0x1005
def evFocusSkipped : Nat := 0x1006

def setRst (s : State) (r : RstSt) : State := { s with rst := r }

/-! ## What survives in MRAM (18 Table 18.5; 06 R170) -/

/-- Does a journal record stand in MRAM: a command with a slot whose acceptance half has committed? Recovery finds whether it had been accepted. -/
def JRec.inMram (r : JRec) : Bool := !r.answer && r.slot.isSome && r.accMram

/-- The record as its MRAM halves give it. -/
def JRec.fromMram (r : JRec) : JRec :=
  let comp := if r.compMram then r.comp else none
  { r with st := if comp.isSome then .recDone else .recAccepted, comp := comp, sub := [], result := [], held := false, pre := none, cq := none
           facet := 0, parked := false, again := false, ahNext := 0, flr := false, recovered := false, accAck := false, compAck := false }

/-- The journal after HBM is lost. -/
def jrLostHbm (j : JrSt) : JrSt :=
  { JrSt.zero with durable := j.durable, changes := j.changes
                   recs := tmap none (fun _ e => e.bind (fun r => if r.inMram then some r.fromMram else none)) j.recs }

/-- The key store after HBM is lost: MRAM holds marks, the tree's upper levels and the root slots. -/
def ksLostHbm (k : KsSt) : KsSt :=
  { KsSt.zero with marks := k.marks, tree := k.tree, roots := k.roots, log := k.log, epoch := k.epoch, kekCheck := k.kekCheck }

/-- The MRAM range of 03 Table 03.1. -/
def inMram (a : Nat) : Bool := decide (0x2200000000 ≤ a) && decide (a ≤ 0x2203FFFFFF)

/-- The focus table after a reset: an ADDING entry is FREE (10 R527). -/
def focLost (f : FocSt) (time : Bool) : FocSt :=
  { f with table := tmap none (fun _ e => e.bind (fun x => if x.st = fAdding then none else some x)) f.table
           fwd := [], removing := [], src := [], run := 0, ringRun := 0, own := 0, slew := 0, freq := 0, ptp := PtpSt.zero
           ppsUntil := 0, copied := [], tableIn := false
           runs := f.runs && !time, edge := if time then 0 else f.edge, tod := if time then none else f.tod }

/-- An owner after a reset: its durable state stays (14 R370). -/
def ownerLost (x : Owner) : Owner :=
  { x with waiters := [], deficit := 0, hxDeficit := 0, waiting := false, accLast := 0, dspLast := 0 }

/-! ## S-reset and P-reset -/

/-- The mirror's drive is removed; FAULT ends when the sensor reports PASS (13 Table 13.1). -/
def mirrorAfter (m : Nat) (pass : Bool) : Nat := if m = 1 ∨ m = 2 then 3 else if m = 4 ∧ pass then 0 else m

/-- DEV_WEAR and FCT_AGE.CAUSE as the retirement record gives them (20 Tables 20.7 and 20.8). -/
def wearShow (s : State) : State :=
  let s := s.wear.retired.foldl (fun (s : State) e => s.poke F.FCT_AGE_CAUSE e.2 e.1) s
  let serve := 64 - s.wear.removed.length
  let s := (s.poke F.DEV_WEAR_RETIRED s.wear.retired.length).poke F.DEV_WEAR_IN_SERVICE serve
  (s.poke F.DEV_WEAR_SPARES (min 8 (72 - s.wear.retired.length - serve))).poke F.DEV_WEAR_DEGRADED (b2n (decide (serve < 64)))

/-- The defaults that straps fix (18 Table 18.1). -/
def strapDefaults (s : State) : State :=
  let s := s.poke F.VR_CFG_ENABLE (s.get F.STRAP_CAPTURE_RINGEN)
  let brk := s.get F.STRAP_CAPTURE_SPORTMAP
  (List.range 16).foldl (fun (s : State) n => s.poke F.SP_CFG_BREAKOUT (if brk = 3 then 0 else brk) n) s

/-- Live bits that a reset does not change: sensors and cells, the mirror, the supplies. -/
def liveBits (old s : State) (pass : Bool) : State :=
  let s := s.poke F.TMP_STATUS_LIVE (s.lc.alarms.foldl (fun a n => a ||| 2 ^ n) 0)
  let s := setMirror (s.poke F.TMP_STATUS_CELL_LOW (old.get F.TMP_STATUS_CELL_LOW)) (mirrorAfter old.mirror pass)
  let s := (s.poke F.PWR_STATUS_VIN_OK (old.get F.PWR_STATUS_VIN_OK)).poke F.PWR_STATUS_PFAIL_PIN (old.get F.PWR_STATUS_PFAIL_PIN)
  (s.poke F.PWR_STATUS_VHOLD_READY (old.get F.PWR_STATUS_VHOLD_READY)).poke F.FOC_TSTAT_ENTRIES s.foc.table.length

/-- What an S-reset (`lv` = 1) and a P-reset (`lv` = 2) both do: HBM is zeroised, every unit but the tamper die and the auxiliary island is
reset, and the register fields of the level return to their reset values (18 Table 18.5). -/
def resetDie (lv : Nat) (pass : Bool) (s : State) : State :=
  let old := s
  let s := rngRestart { s with
    regs := resetRegs lv s.regs, latches := [], evr := { EvrSt.zero with avail := if s.is F.PSC_CFG_ALERT_EN then [0, 5] else [0] }, log := { s.log with buf := [] }, apt := AptSt.zero, arb := [], cv := none
    gmem := s.gmem.filter (fun c => inMram c.1), facets := [], progs := [], ks := ksLostHbm s.ks, jr := jrLostHbm s.jr
    own := tmap Owner.absent (fun _ x => ownerLost x) s.own, sessions := [], sec := { s.sec with root := none }, ownKeys := []
    gates := [], streamEnt := [], ring := { RingSt.zero with taken := s.ring.taken.map (fun t => { t with holder := 0 }) }
    foc := focLost s.foc (decide (lv = 2)), hx := HxSt.zero, fns := [], hports := [], hbmBad := [], marked := []
    wear := { s.wear with
      sub := none, queue := []
      pend := s.wear.pend ++ (s.wear.queue.filter (fun p => s.is F.FCT_MAP_VALID p)).map (fun p => s.get F.FCT_MAP_LOGICAL p) }
    lc := { s.lc with advance := 0 }
    rst := { s.rst with begun := true, accOpen := false, stopped := false, noFlush := false, pllTries := 0, imageBuf := []
                        credentials := [], ownerProgs := [], focusDefaults := [], portEnable := [], totals := [] } }
  let s := liveBits old s pass
  let s := s.poke F.TMP_OTP_COUNT_COUNT (min 1024 (s.get F.TMP_OTP_COUNT_COUNT + old.lc.advance))
  let s := otpLowShow s
  strapDefaults (wearShow s)

/-- Stream frames in flight are lost and reported by one event (09 R271); the ring is told; the buffer is flushed (18 R449). -/
def beforeReset2 (tell flush : Bool) (s : State) : State :=
  let s := streamReset (if tell then leaveRing s else s)
  if flush then logFlush s else s

/-- S_RESET. A hold at step 1 keeps the compute die in reset (17 R435). -/
def sReset (pass : Bool) (s : State) : State :=
  if s.rst.level ≠ 2 ∨ s.rst.begun ∨ s.rst.pfail then s
  else
    let lock := s.is F.CLK_STATUS_LOCK
    let s := resetDie 1 pass (beforeReset2 (decide (s.rst.src ≠ 5)) (decide (s.rst.src ≠ 4) && !s.rst.noFlush) s)
    let s := setRst (s.poke F.RST_CAUSE_LEVEL 2) { s.rst with escStart := false, recovery := true }
    let s := otpLowStart s
    if s.lc.loupeHold then s
    else if s.lc.alarms ≠ [] ∨ s.lcState = 3 ∨ s.counterSpent then
      ((s.poke F.TMP_STATUS_HOLD (b2n (decide (s.lc.alarms ≠ [])))).poke F.DEV_START_STAGE 1).poke F.DEV_START_FAIL 12
    else s.poke F.DEV_START_STAGE (if lock then 3 else 2)
def execSReset (mirrorPass : Bool) (s : State) : Host.Outcome State Fault Refusal := .next (sReset mirrorPass s)

/-- The straps are sampled, and what they fix follows (18 R440, Table 18.3; 19 R465). -/
def sampleStraps (s : State) : State :=
  let s := s.setReg (F.STRAP_CAPTURE_BOOTSRC.at 0 0) (BitVec.ofNat 32 (s.rst.straps % 4096))
  strapDefaults (s.poke F.PSC_STATUS_STATIC_ADDR (0x40 + s.get F.STRAP_CAPTURE_PERI_ADDR))

/-- The powered-time count at a P-reset: one that the steward foresees writes it to steward scratch; after another it resumes from what
was last written (01 R23; log entry 177). -/
def powerCount (soft : Bool) (s : State) : State :=
  let n := if soft then s.wear.mramAge else s.wear.mramKept
  { s with wear := { s.wear with mramAge := n, mramKept := n } }

/-- P_RESET. While a pad or a rail holds the reset, step 1 waits for PWRGOOD_RISE. -/
def pReset (pass : Bool) (s : State) : State :=
  if s.rst.level ≠ 3 ∨ s.rst.begun ∨ (s.rst.pfail ∧ s.rst.src ≠ 0) then s
  else
    let soft := decide (s.rst.src = 3) || decide (s.rst.src = 7) || decide (s.rst.src = 8)
    let old := s.rst
    let s := powerCount soft (resetDie 2 pass (beforeReset2 soft soft s))
    let s := ((s.poke F.RST_CAUSE_SOURCES old.joined).poke F.RST_CAUSE_ESCALATED (b2n old.esc)).poke F.RST_CAUSE_PFAIL (b2n (old.pfEnd || old.pfail))
    let s := { s with
      lc := { s.lc with challenge := none, certBuf := [], mismatches := [], trace := 0, stewardHalt := false }
      rst := { s.rst with escStart := old.esc, recovery := false, pfail := false, pfEnd := false } }
    if s.rst.padsHold then s else (sampleStraps s).poke F.DEV_START_STAGE 1
def execPReset (mirrorPass : Bool) (s : State) : Host.Outcome State Fault Refusal := .next (pReset mirrorPass s)

/-! ## C-reset (18 R445) -/

/-- Records in execution return to ACCEPTED, and run again under their work tags (06 Table 06.16, R159): a completion half whose condition does not hold
yet is as never written. What a command waits for stands in the key store, the ring or the owner table, and it waits on when it is
dispatched again. -/
def jrCReset (s : State) : State :=
  let again := fun (r : JRec) => if r.st = .executing then
      { r with st := .accepted, facet := 0, parked := false, comp := none, compMram := false, compAck := false, result := [], held := false }
    else r
  let s := setJr s { s.jr with recs := tmap none (fun _ e => e.map again) s.jr.recs }
  setRing s { s.ring with mwait := s.ring.mwait.filter (fun w => decide (w.2.1 ≠ 1) || ((tget none s.jr.recs w.2.2.1).any (fun r => r.comp.isSome))) }

/-- A spare in TEST returns to SPARE, and its substitution starts again (20 Table 20.3). -/
def substitutionAgain (s : State) : State := match s.wear.sub with
  | none => s
  | some x => wearUpdate ({ s with wear := { s.wear with sub := none } }.poke F.FCT_MAP_STATE mapSpare x.spare)

/-- C_RESET: `digestOk` says whether the steward firmware and the vendor library agree with the loader's digests. -/
def cReset (digestOk : Bool) (s : State) : State :=
  if s.rst.level ≠ 1 ∨ s.rst.begun ∨ s.rst.pfail then s
  else
    let s := substitutionAgain (streamCReset (hxCReset (jrCReset s)))
    let s := { s with
      facets := tmap Facet.zero (fun _ f => { Facet.zero with nextRole := f.nextRole, halt := f.halt }) s.facets
      regs := resetRegs 0 s.regs, cv := none, rng := { s.rng with waiting := [] }, ks := { s.ks with fills := [], leaseWait := [] } }
    let s := evSettle { loadSets (markShow s) with
      latches := [], apt := { s.apt with slots := [] }
      evr := { s.evr with claims := tset [] s.evr.claims 0 [], held := s.evr.held.filter (fun x => !((s.evStack 0).contains x)), woken := false } }
    let s := s.poke F.RST_CAUSE_LEVEL 1
    if digestOk then setRst s { s.rst with level := 0, begun := true } else critical (setRst s { s.rst with begun := true }) 8
def execCReset (digestOk : Bool) (s : State) : Host.Outcome State Fault Refusal := .next (cReset digestOk s)

/-! ## Reset sources (18 R446) -/

/-- A pad or a rail asks for P-reset at once and holds it: a P-reset in progress starts over when the hold ends. -/
def holdReset (src : Nat) (rails : Bool) (s : State) : State :=
  let s := requestReset s src 3
  { s with mainPower := s.mainPower && rails, rst := { s.rst with padsHold := true, begun := false } }
def execPwrgoodLow (s : State) : Host.Outcome State Fault Refusal := .next (holdReset 0 false s)
/-- SUPPLY_POR: masked during a power-fail sequence (22 R511). -/
def execSupplyPor (s : State) : Host.Outcome State Fault Refusal := .next (if s.rst.pfail then s else holdReset 1 false s)
def execRstNAssert (s : State) : Host.Outcome State Fault Refusal := .next (holdReset 2 true s)

/-- PWRGOOD_RISE: PWRGOOD rises or RST_N is released: the P-reset is released, the straps are sampled and step 1 begins (18 R440). -/
def pwrgoodRise (straps : Nat) (s : State) : State :=
  if !s.rst.padsHold ∨ !s.vaux then s
  else
    let s := { s with mainPower := true, rst := { s.rst with padsHold := false, straps := straps } }
    let s := (s.poke F.PWR_STATUS_VIN_OK 1).poke F.PWR_STATUS_VHOLD_READY 1
    if s.rst.level = 3 ∧ s.rst.begun then (sampleStraps s).poke F.DEV_START_STAGE 1 else s
def execPwrgoodRise (straps : BitVec 12) (s : State) : Host.Outcome State Fault Refusal := .next (pwrgoodRise straps.toNat s)

/-- PERST_ASSERT: a link-down of its own port; on H0 a device reset where RST_CTRL.PERST0 says so. -/
def perst (p : Nat) (s : State) : State :=
  let c := s.get F.RST_CTRL_PERST0
  if p = 0 ∧ (c = 1 ∨ c = 2) then requestReset s 3 (c + 1) else hotReset p s
def execPerstAssert (port : Fin 4) (s : State) : Host.Outcome State Fault Refusal := .next (perst port.val s)

/-- HOST_LINK_UP: the port's PHY is powered (18 R452). -/
def hostLinkUp (p : Nat) (s : State) : State :=
  if !(s.domainOn (96 + p)) ∨ (s.hport p).up then s else evLatch (setHport s p { s.hport p with up := true }) (116 + p)
def execHostLinkUp (port : Fin 4) (s : State) : Host.Outcome State Fault Refusal := .next (hostLinkUp port.val s)

/-- WATCHDOG_EXPIRY: from the end of step 4. -/
def execWatchdogExpiry (s : State) : Host.Outcome State Fault Refusal :=
  .next (if 5 ≤ s.get F.DEV_START_STAGE then requestReset s 4 2 else s)

/-- CRITICAL_STATE_ERROR: a row of 20 Table 20.2. -/
def execCriticalStateError (row : Fin 10) (s : State) : Host.Outcome State Fault Refusal := .next (critical s (row.val + 1))

/-- A write of RST_CTRL.REQ (18 R446, R450). -/
def softReset (a : Agent) (lv : Nat) (s : State) : State :=
  if s.outOfReach a 0x1000 then s else if !(s.isPrimary a) then event s 2 evRstWriter stewardSrc else requestReset s 7 lv
def execSoftwareCReset (a : Agent) (s : State) : Host.Outcome State Fault Refusal := .next (softReset a 1 s)
def execSoftwareSReset (a : Agent) (s : State) : Host.Outcome State Fault Refusal := .next (softReset a 2 s)
def execSoftwarePReset (a : Agent) (s : State) : Host.Outcome State Fault Refusal := .next (softReset a 3 s)

/-- RING_FENCING_RESET: a TAKEOVER named this node while it was MEMBER. -/
def execRingFencingReset (s : State) : Host.Outcome State Fault Refusal :=
  .next (if s.ring.fenceReset then requestReset (setRing s { s.ring with fenceReset := false }) 9 2 else s)

/-! ## The auxiliary island's supply (18 R457, 19 R466, 22 R509) -/

/-- VAUX_FALL: P-reset is held, and the auxiliary island stops; a power-fail sequence ends with it. -/
def vauxFall (s : State) : State :=
  let s := setRst s { s.rst with pfail := false, pfEnd := s.rst.pfEnd || s.rst.pfail }
  { holdReset 1 false s with vaux := false }
def execVauxFall (s : State) : Host.Outcome State Fault Refusal := .next (if s.vaux then vauxFall s else s)

/-- VAUX_RISE: the Periscope port returns to SMBus mode, without a dynamic address or an endpoint ID. -/
def vauxRise (s : State) : State :=
  if s.vaux then s
  else
    let s := (({ s with vaux := true, psc := PscSt.zero }.setReg 0x3000 (resetWord 0x3000)).setReg 0x3008 (resetWord 0x3008))
    targetGone 5 (((s.poke F.PSC_STATUS_MODE 0).poke F.PSC_STATUS_DYN_ADDR 0).poke F.PSC_STATUS_EID 0)
def execVauxRise (s : State) : Host.Outcome State Fault Refusal := .next (vauxRise s)

/-! ## Ticks -/

/-- Facet cycles of one mt in the clock mode in force (01 R12; test clocking as its 4.8 GHz root, 18 Table 18.2). -/
def mtCycles (s : State) : Nat := if 2 ≤ s.get F.CLK_STATUS_MODE then 750000 else 1000000

/-- What counts while a domain is on: facet cycles and powered hours, and idle cycles of arrays (21 Tables 21.6, 21.9). -/
def tickCounters (s : State) : State :=
  let s := (List.range 72).foldl (fun (s : State) p =>
    if s.domainOn p then
      let n := tget 0 s.wear.powered p + 1
      let s := { s with wear := { s.wear with powered := tset 0 s.wear.powered p n } }
      (s.add64 F.FCT_CYC_LO (mtCycles s) p).poke F.FCT_HOURS (n / 5760000) p
    else s) s
  (List.range 8).foldl (fun (s : State) a =>
    if s.domainOn (72 + a) && !(s.is F.HX_ASTAT_OFFLINE a) && !(s.is F.HX_ASTAT_BUSY a) then s.add64 F.HX_AIDLE_LO (mtCycles s / 2) a else s) s

/-- 30 days of powered time in management ticks (01 R12, R23). -/
def mramDue : Nat := 30 * 86400 * 1600

/-- Every MRAM word is rewritten, with the value it holds: the powered time since counts from 0. A rewrite that meets a power-fail flush is
deferred (01 R23). -/
def mramRewrite (s : State) : State :=
  if s.rst.pfail then s else { s with wear := { s.wear with mramAge := 0, mramKept := 0 } }

/-- MRAM_REWRITE. -/
def execMramRewrite (s : State) : Host.Outcome State Fault Refusal := .next (mramRewrite s)

/-- The mt counter has counted a tick of powered time; the steward, once it runs, rewrites MRAM when 30 days have passed. -/
def mramTick (s : State) : State :=
  let s := { s with wear := { s.wear with mramAge := s.wear.mramAge + 1 } }
  if mramDue ≤ s.wear.mramAge ∧ s.mainUp then mramRewrite s else s

/-- MANAGEMENT_TICK: the count runs from step 2's lock on (18 Table 18.9); the auxiliary oscillator runs with VAUX; Prolith time has passed
625 µs (01 R12, R13); and ring ports have sent their time blocks (log entry 227). -/
def managementTick (s : State) : State :=
  let s := if 3 ≤ s.get F.DEV_START_STAGE then mramTick (s.add64 F.DEV_MTICK_LO 1) else s
  let s := { s with auxTick := if s.vaux then s.auxTick + 1 else s.auxTick }
  timeBlocks (timeTick (tickCounters s))
def execManagementTick (s : State) : Host.Outcome State Fault Refusal := .next (managementTick s)

end Sys2Proof.Machine
end

