-- ==== Sys2Proof/Machine/Start.lean ====
section
/-! DEFINITION. Machine/Start.lean: the release order, the image sources, power failure, and the end of a life-cycle transition (17 R422, R425,
R438; 18 R443, R451 to R462). -/

namespace Sys2Proof.Machine

open Sys2Proof

/-- An image floor bit did not program (18 R456). -/
def evFloorBit : Nat := 0x1003

def State.stage (s : State) : Nat := s.get F.DEV_START_STAGE

/-- Is step `n` in progress, with nothing that stopped or holds it? -/
def State.atStep (s : State) (n : Nat) : Bool := decide (s.stage = n) && s.rst.begun && !s.rst.stopped && !s.rst.padsHold

def setStage (s : State) (n : Nat) : State := s.poke F.DEV_START_STAGE n

/-! ## Steps 1 to 3 -/

/-- START_STEP_1: life-cycle decode, the pending tamper count, the counter check (17 R422, R437, R438). `bad` counts the counter bits that
failed to program and were retried on the next bit. -/
def startStep1 (bad : Nat) (s : State) : State :=
  if !(s.atStep 1) ∨ s.get F.DEV_START_FAIL = 12 then s
  else
    let d := lcDecode s.lc.copies
    let s := ((s.poke F.LC_STATE_STATE d.1).poke F.LC_STATE_FORCED (b2n d.2.1)).poke F.LC_STATE_INTERRUPTED (b2n d.2.2.1.isSome)
    let s := s.poke F.LC_STATE_DISAGREE d.2.2.2
    let s := if d.2.1 then event s 5 evLcForced stewardSrc else s
    let s := if d.2.2.1 = some 3 then { s with lc := { s.lc with copies := List.replicate 3 (lcCode 3) } } else s
    let clk := s.get F.STRAP_CAPTURE_CLKMODE
    let s := s.poke F.CLK_STATUS_MODE (if clk = 3 ∧ 2 ≤ d.1 then 2 else clk)
    let n := s.get F.TMP_OTP_COUNT_PENDING
    let s := (s.poke F.TMP_OTP_COUNT_COUNT (min 1024 (s.get F.TMP_OTP_COUNT_COUNT + n))).poke F.TMP_OTP_COUNT_PENDING 0
    let s := if n = 15 then event s 4 evPendingFull tmpSrc else s
    let s := if bad = 0 then s else event s 4 evOtpBit tmpSrc
    let s := otpLowStart s
    let s := s.poke F.TMP_STATUS_HOLD (b2n (decide (s.lc.alarms ≠ [])))
    if s.lc.alarms ≠ [] ∨ d.1 = 3 ∨ s.counterSpent then s.poke F.DEV_START_FAIL 12 else setStage s 2
def execStartStep1 (bad : Nat) (s : State) : Host.Outcome State Fault Refusal := .next (startStep1 bad s)

/-- PLL_LOCKED: step 2 ends. -/
def pllLocked (s : State) : State :=
  if !(s.atStep 2) ∨ s.get F.DEV_START_FAIL = 8 then s
  else
    let s := setDomains (setDomain (setDomains s 96 99 true) 112 true) 114 115 true
    let s := (s.poke F.CLK_STATUS_LOCK 1).poke F.CLK_STATUS_REFCLK_OK 1
    setStage (setRst s { s.rst with pllTries := 0 }) 3
def execPllLocked (s : State) : Host.Outcome State Fault Refusal := .next (pllLocked s)

/-- PLL_LOCK_TIMEOUT: the third failure leaves the part at step 2 (18 R443). -/
def pllTimeout (s : State) : State :=
  if !(s.atStep 2) ∨ s.is F.CLK_STATUS_LOCK then s
  else
    let n := s.rst.pllTries + 1
    let s := setRst s { s.rst with pllTries := n }
    if 3 ≤ n then s.poke F.DEV_START_FAIL 8 else s
def execPllLockTimeout (s : State) : Host.Outcome State Fault Refusal := .next (pllTimeout s)

/-- PLL_LOSS_OF_LOCK: a critical-state error. -/
def pllLost (s : State) : State :=
  if !(s.is F.CLK_STATUS_LOCK) then s else critical ((s.poke F.CLK_STATUS_LOCK 0).poke F.CLK_STATUS_LOCK_LOST_SEEN 1) 7
def execPllLossOfLock (s : State) : Host.Outcome State Fault Refusal := .next (pllLost s)

/-- The next sequence number follows the highest of the MRAM log (16 R419). -/
def logScan (s : State) : State :=
  let n := s.log.mram.foldl (fun (n : Nat) e => ((e.2).map (fun r => max n (r.seq + 1))).getD n) 1
  let n := s.log.buf.foldl (fun n r => max n (r.seq + 1)) n
  { s with log := { s.log with next := n } }

/-- START_STEP_3: HBM trained and zeroed, MRAM up; the clean mark is noted and erased (18 R459). -/
def startStep3 (hbmOk mramOk : Bool) (s : State) : State :=
  if !(s.atStep 3) then s
  else if !hbmOk then critical (s.poke F.DEV_START_FAIL 9) 9
  else if !mramOk then critical (s.poke F.DEV_START_FAIL 10) 10
  else
    let s := setDomain (setDomain (setDomain (setDomains (setDomains s 100 101 true) 104 107 true) 110 true) 113 true) 111 true
    let s := logScan (s.poke F.KS_SCRUB_STATUS_RUNNING 1)
    let s := if s.rst.clean then s.poke F.RST_CAUSE_FLUSHED 1 else s
    setStage ((setRst s { s.rst with clean := false }).poke F.DEV_START_FAIL 0) 4
def execStartStep3 (hbmOk mramOk : Bool) (s : State) : Host.Outcome State Fault Refusal := .next (startStep3 hbmOk mramOk s)

/-! ## Step 4 (18 R453 to R455) -/

/-- An image is refused: the loader waits for a replacement (18 R455). -/
def imageRefused (s : State) (k : Nat) : State :=
  event ((s.poke F.DEV_START_FAIL k).poke F.DEV_START_RECOVERY 1) 4 evImage stewardSrc 0xFFFF (leBytes 1 k)

/-- Does step 4 take images: it is in progress, and the state boots from one (17 Table 17.2)? -/
def State.loads (s : State) : Bool := s.atStep 4 && (decide (s.lcState = 1) || decide (s.lcState = 2))

/-- The loader has an image from a source. Fewer than 2 facets left cannot keep the custody role (20 R489). -/
def bootImage (raw : Bytes) (source : Nat) (s : State) : State :=
  let b := raw.take (imgNat raw 12 4)
  let k := imageCheck s b
  if k ≠ 0 then imageRefused s k
  else
    let s := imageInstall s b source
    if 72 - s.wear.retired.length < 2 then setRst (s.poke F.DEV_START_FAIL 13) { s.rst with stopped := true } else setStage s 5

/-- START_STEP_4: xSPI flash, or a ring clone, whose mirror inserts first; the other sources deliver the image by their own commands. -/
def startStep4 (image : Bytes) (s : State) : State :=
  let src := s.get F.STRAP_CAPTURE_BOOTSRC
  if !s.loads ∨ s.is F.DEV_START_RECOVERY then s
  else if src = 0 then bootImage image 0 s
  else if src ≠ 3 then s
  else if !(s.is F.STRAP_CAPTURE_RINGEN) then imageRefused s 7
  else if s.mirror = 2 then
    if (s.rlink 1).auth then bootImage image 3 (setRLink s 1 RLink.zero) else s
  else
    let s := setDomains s 102 103 true
    if s.mirror = 0 then setMirror s 1 else s
def execStartStep4 (image : List (BitVec 8)) (s : State) : Host.Outcome State Fault Refusal := .next (startStep4 image s)

/-- DEV_BOOT_GO: only the H0 PF, during step 4, as the image source or with a replacement. `image` is what the loader reads from the address
of DEV_BOOT_ADDR. -/
def bootGo (a : Agent) (image : Bytes) (s : State) : State :=
  match a with
  | .fn f =>
    if f.port.val ≠ 0 ∨ f.vf.isSome ∨ !s.loads ∨ !(s.is F.DEV_START_RECOVERY || decide (s.get F.STRAP_CAPTURE_BOOTSRC = 1)) then s
    else bootImage (image.take (s.get F.DEV_BOOT_LEN)) 1 s
  | _ => s
def execDevBootGo (a : Agent) (image : List (BitVec 8)) (s : State) : Host.Outcome State Fault Refusal := .next (bootGo a image s)

/-- IMAGE_SOURCE_TIMEOUT: no image header within 2 s. -/
def execImageSourceTimeout (s : State) : Host.Outcome State Fault Refusal :=
  .next (if s.loads ∧ !(s.is F.DEV_START_RECOVERY) ∧ s.rst.imageBuf = [] then imageRefused s 7 else s)

/-! ## Step 5 (18 Table 18.9; 05 R145; 04 R102 to R104) -/

/-- An empty tree under the KEK in force, in epoch 1 (04 R102). -/
def treeEmpty (s : State) : State :=
  rootAdvance (setKs s { s.ks with
    tree := s.ks.tree.filter (fun e => decide (65536 ≤ e.1)), marks := s.ks.marks.filter (fun e => decide (4294967296 ≤ e.1))
    roots := (RootSlot.zero, RootSlot.zero), log := s.ks.log.filter (fun e => decide (1048576 ≤ e.page)), epoch := 1, kekCheck := kekCheckOf s }) 0

/-- A new share, and what goes with the old one (05 R145). -/
def shareDraw (s : State) : State :=
  let d := drawBytes s 32
  treeEmpty { formKeys { d.2 with sec := { d.2.sec with share := some d.1 } } with
    own := tmap Owner.absent (fun _ x => { x with custodians := [], policy := [], challenges := [] }) d.2.own }

/-- Does the root slot of the higher sequence hold the digest that levels 2 to 5 yield (04 R102)? -/
def rootGood (s : State) : Bool := decide ((rootLast s.ks.roots).digest = treeRoot s.ks.tree 0)

/-- Owners of the node that have no live root record draw one (05 R111, R145). -/
def rootDraw (s : State) : State :=
  s.own.foldl (fun (s : State) e =>
    let i := spaceOf s e.1 * 33554432 + e.1
    if (s.owner e.1).state = oAbsent ∨ (s.krec i).live then s
    else
      let d := drawBytes s 32
      deriveOwnerKey (changeRec d.2 i (rootRec e.1 d.1)) e.1) s

/-- A VERIFY extended record for a credential of the image. -/
def credRecord (s : State) (o alg : Nat) (pub : Bytes) : Option (Nat × State) :=
  (createRec s ⟨o, 9, 0, alg, 0, 0, 0, 0, List.replicate 8 0, [], some ⟨[], pub⟩⟩).map (fun r => ((r.2.krec r.1).handle, r.2))

/-- Does an owner's program-signing handle name a live record with this public key? -/
def credStands (s : State) (o : Nat) (pub : Bytes) : Bool :=
  let h := (s.owner o).cred
  decide (h ≠ 0) && decide ((keyFind s o false h).1 = sOk) && ((tget none s.ks.bodies (kidx s o h)).any (fun b => decide (b.pub = pub)))

/-- One credential item of the image, for an owner that the node holds: custodians where the owner had none at the start (05 R114), the quorum
policy where it has none, and the program-signing credential (18 Table 18.25). -/
def credEnrol (bare : Nat → Bool) (s : State) (x : Nat × Nat × Bytes) : State :=
  let o := x.2.1
  let b := x.2.2
  let y := s.owner o
  if y.state = oAbsent then s
  else if x.1 = 1 ∧ bare o then
    match credRecord s o (byteAt b 1) (b.drop 8) with
    | some (h, (s : State)) =>
      let y := s.owner o
      setCustody s o { y with custodians := tset none y.custodians (byteAt b 0) (some ⟨h, imgNat b 2 2, s.nowSec⟩) }
    | none => s
  else if x.1 = 2 ∧ y.policy = [] then setCustody s o { y with policy := b }
  else if x.1 = 3 ∧ !(credStands s o (b.drop 8)) then
    match credRecord s o (byteAt b 0) (b.drop 8) with
    | some (h, (s : State)) => writeOwner s o { s.owner o with cred := h }
    | none => s
  else s

/-- The items of a kind that the image carries, for owners that had no custodian. -/
def imageCreds (s : State) (l : List (Nat × Nat × Bytes)) : State :=
  let old := s.own
  l.foldl (credEnrol (fun o => (tget Owner.absent old o).custodians.isEmpty)) s

/-- START_STEP_5: keys are formed, a share is drawn where there is none, the tree is validated, and the reload starts. While the entropy
source is stopped a start that needs a share stays (12 R321). The root slot must agree with the root recomputed from levels 2 to 5 (04 R102);
`treeOk` says whether MRAM gave the slot and the levels without an error. -/
def startStep5 (treeOk : Bool) (s : State) : State :=
  if !(s.atStep 5) ∨ s.get F.KS_STATUS_RELOAD ≠ 0 ∨ (s.sec.share.isNone ∧ s.rngStopped) then s
  else
    let fresh := s.sec.share.isNone
    let s := if fresh then shareDraw s else formKeys s
    if !fresh ∧ kekCheckOf s = s.ks.kekCheck ∧ !(treeOk && rootGood s) then critical s 3
    else
      let s := if fresh then s else if kekCheckOf s = s.ks.kekCheck then rootAdvance (setEpoch s 0 (s.ks.epoch + 1)) 0 else treeEmpty s
      let s := if s.ks.tree.any (fun e => decide (e.1 < 65536)) then s else rootDraw s
      let s := if fresh then imageCreds s (s.rst.credentials.filter (fun x => decide (x.1 = 1))) else s
      s.poke F.KS_STATUS_RELOAD (if (List.range 8).all (groupLive s) then 2 else 1)
def execStartStep5 (treeOk : Bool) (s : State) : Host.Outcome State Fault Refusal := .next (startStep5 treeOk s)

/-- Live extended records whose body never came are poisoned. -/
def bodiesMissing (s : State) : State :=
  s.ks.recs.foldl (fun (s : State) e =>
    if (s.krec e.1).live ∧ (s.krec e.1).ext ∧ (tget none s.ks.bodies e.1).isNone then poisonRec s e.1 3 else s) s

/-- Custodians, policies and credentials of the image, then its owner program entries (03 R67). -/
def credsEnrol (s : State) : State :=
  let s := imageCreds s s.rst.credentials
  s.rst.ownerProgs.foldl (fun (s : State) b => match imgEntry s b true with
    | some (s : State) => s
    | none => event s 3 evProgSkipped stewardSrc) s

/-! ### FCT_MAP (02 R50, 20 R488, R489) -/

/-- The number that goes for one facet that no spare replaces: its own, or for a custody number the highest transaction number in service, else
the highest stream number. -/
def numberToGo (s : State) (n : Nat) : Nat :=
  let role := fun (k : Nat) => tget 0 s.rst.roles k
  let high := fun (r : Nat) => ((List.range 64).filter (fun k => !(s.wear.removed.contains k) && decide (role k = r))).getLast?
  if role n = 2 then ((high 1).or (high 0)).getD n else n

/-- Remove the surplus numbers. -/
def surplusGo (fuel : Nat) (s : State) (l : List Nat) : State :=
  match fuel with
  | 0 => s
  | f + 1 =>
    if 64 - s.wear.removed.length ≤ 72 - s.wear.retired.length then s
    else match l with
      | n :: r => surplusGo f (removeLogical s (numberToGo s n)) r
      | [] => match ((List.range 64).filter (fun k => !(s.wear.removed.contains k))).getLast? with
        | some n => surplusGo f (removeLogical s (numberToGo s n)) []
        | none => s

/-- Assign the numbers in order to the lowest facets that are not RETIRED; the rest are SPARE. The spares left replace the facets decided
first (20 Table 20.3), so the last decided ones give up their numbers (20 R488). -/
def facetMap (s : State) : State :=
  let k := (64 - s.wear.removed.length) - (72 - s.wear.retired.length)
  let s := surplusGo 64 s (s.wear.pend.drop (s.wear.pend.length - k))
  let good := (List.range 72).filter (fun p => decide (tget 0 s.wear.retired p = 0))
  let nums := (List.range 64).filter (fun n => !(s.wear.removed.contains n))
  let s := (List.range 72).foldl (fun (s : State) p =>
    setDomain ((s.poke F.FCT_MAP_VALID 0 p).poke F.FCT_MAP_STATE (if tget 0 s.wear.retired p = 0 then mapSpare else mapRetired) p) p false) s
  let s := (good.zip nums).foldl (fun (s : State) e =>
    let s := (s.poke F.FCT_MAP_LOGICAL e.2 e.1).poke F.FCT_MAP_ROLE (tget 0 s.rst.roles e.2) e.1
    setDomain ((s.poke F.FCT_MAP_VALID 1 e.1).poke F.FCT_MAP_STATE mapActive e.1) e.1 true) s
  wearUpdate (loadSets { s with wear := { s.wear with pend := [] } })

/-- RELOAD_END (04 R104): groups that have not verified fail; a failure of the first pages stops the start. Else READY, and step 5 ends. -/
def reloadEnd (a : Agent) (s : State) : State :=
  if s.outOfReach a 0x50000 then s
  else if !(s.isPrimary a) then ksDenied s
  else if !(s.atStep 5) ∨ !(s.get F.KS_STATUS_RELOAD = 1 ∨ s.get F.KS_STATUS_RELOAD = 2) then s
  else
    let miss := groupsMissing s
    let s := miss.foldl groupFail s
    let s := if miss = [] then s else s.poke F.KS_STATUS_GROUP_FAIL 1
    if miss.any (fun g => decide (g < 8)) then
      setRst ((s.poke F.KS_STATUS_RELOAD 4).poke F.DEV_START_FAIL 11) { s.rst with stopped := true }
    else
      let s := credsEnrol (rootDraw (reloadFinish (bodiesMissing s)))
      let s := s.put F.KS_STATUS_READY 1
      let s := facetMap (s.poke F.KS_STATUS_RELOAD 3)
      setStage (setDomains (setDomains s 72 79 true) 108 109 true) 6
def execReloadEnd (a : Agent) (s : State) : Host.Outcome State Fault Refusal := .next (reloadEnd a s)

/-! ## Steps 6 and 7 -/

/-- A focus default of the image, as an addition of owner 0 (18 R463). -/
def focusDefault (k : Nat) (b : Bytes) (s : State) : State :=
  let t := imgNat b 4 6 * secNs + imgNat b 10 4
  if t < s.now + 2 * mtNs then event s 2 evFocusSkipped stewardSrc
  else (focusAdd s { typ := byteAt b 0, st := fAdding, owner := 0, instant := t, node := s.nodeId, outcome := 0, params := sliceBytes b 16 48
                     tag := 281474976710656 + k, holders := [] }).getD s

/-- Install the focus defaults on a node whose table is empty. -/
def focusDefaults (s : State) : State :=
  if s.foc.table ≠ [] then s
  else ((List.range s.rst.focusDefaults.length).zip s.rst.focusDefaults).foldl (fun (s : State) e => focusDefault e.1 e.2 s) s

/-- The known-answer tests of the start on every array (11 R306): byte `a` of `kat` is the number of the first test that array `a` fails, 0 when it
passes them all. -/
def arraysTested (kat : Bytes) (s : State) : State :=
  (List.range 8).foldl (fun (s : State) a =>
    if s.is F.HX_AKAT_DONE a then s
    else
      let k := byteAt kat a
      let s := ((s.poke F.HX_AKAT_DONE 1 a).poke F.HX_AKAT_PASS (b2n (decide (k = 0))) a).poke F.HX_AKAT_FIRST_FAIL k a
      if k = 0 then s else event (arrayOffline s a) 4 evHxOff (72 + a) 0xFFFF (leBytes 1 a)) s

/-- START_STEP_6: the image's setting of VR_CFG.ENABLE applies and the mirror inserts; the step ends once the node is JOINING and has copied the focus
table (10 R290), or runs alone.
`late` says that 100 ms have passed after INSERT with no port UP. -/
def startStep6 (late : Bool) (kat : Bytes) (s : State) : State :=
  if !(s.atStep 6) then s
  else
    let s := arraysTested kat s
    let on := s.rst.ringEnable && decide (s.ring.table ≠ [])
    let s := s.poke F.VR_CFG_ENABLE (b2n on)
    let s := if on then joinStart (ringInsert (setDomains s 102 103 true)) else mirrorRelease (setDomains s 102 103 false)
    if !on ∨ (s.ringState ≠ 0 ∧ s.foc.tableIn) ∨ (late ∧ s.mirror = 2) then setStage (focusDefaults s) 7 else s
def execStartStep6 (late : Bool) (kat : List (BitVec 8)) (s : State) : Host.Outcome State Fault Refusal := .next (startStep6 late kat s)

/-- Recovery of one queue from MRAM (06 R170). -/
def queueRecover (s : State) (c : Nat) : State :=
  let l := s.jr.recs.filterMap (fun e => e.2.bind (fun r => if r.ctx = c then some r else none))
  let s := setJr s { s.jr with recs := tmap none (fun _ e => e.bind (fun r => if r.ctx = c then none else some r)) s.jr.recs }
  recoverQueue (s.poke F.QP_STATUS_RECOVER_LEFT 0 c) c (tget QDur.zero s.jr.durable c) l

/-- Every queue that MRAM knows, and those that the image binds. -/
def queuesRecover (s : State) : State :=
  let cs := s.jr.durable.map Prod.fst ++ s.jr.recs.filterMap (fun e => e.2.map (fun r => r.ctx)) ++ s.jr.queues.map Prod.fst
  (cs.foldl sput []).foldl queueRecover s

/-- The owners that resume a squash drop their recovered records (14 R370). -/
def resumeResets (s : State) : State :=
  s.own.foldl (fun (s : State) e => if e.2.state = oResetting ∧ e.2.squash then dropRecovered s e.1 true else s) s

/-- Owners of mode 2 or 3 wait until the node knows which of them were taken over (13 R340). -/
def waitOwners (s : State) : State :=
  if s.ring.table = [] ∨ s.ring.known then s
  else
    let s := { s with own := tmap Owner.absent (fun _ x => { x with waiting := decide (2 ≤ x.mode) && decide (x.state ≠ oAbsent) }) s.own }
    s.poke F.VR_STATE_OPEN_WAIT (b2n (s.own.any (fun e => e.2.waiting)))

/-- Stream ports are enabled, unless SAFEMODE was sampled as 1 (09 R241). -/
def portsEnable (s : State) : State :=
  if s.is F.STRAP_CAPTURE_SAFEMODE then s
  else portUpdate (s.rst.portEnable.foldl (fun (s : State) n => setDomain (s.poke F.SP_CFG_ENABLE 1 n) (80 + n) true) s)

/-- The image floor advances (18 R456); `bad` says that a bit failed to program. -/
def floorAdvance (bad : Bool) (s : State) : State :=
  if !s.rst.advanceFloor ∨ s.rst.secVersion ≤ s.lc.floor then s
  else if bad then event s 4 evFloorBit stewardSrc
  else { s with lc := { s.lc with floor := s.rst.secVersion } }

/-! ## Power failure (18 R458 to R462) -/

/-- What the sequence writes of the journal: halves of accepted and of finished records; of an entry not
accepted it writes nothing, and a half that has committed before stands (06 R173). -/
def jrPowerFail (j : JrSt) : JrSt :=
  let f : Option JRec → Option JRec := fun e => e.bind (fun r =>
    if r.st = .stamped then (if r.accMram && r.slot.isSome then some r else none)
    else some { r with accMram := r.accMram || r.slot.isSome, compMram := r.compMram || (r.slot.isSome && r.comp.isSome) })
  { j with recs := tmap none (fun _ e => f e) j.recs }

/-- The power-fail sequence (18 Table 18.19): journal halves, release marks, the lease marks that are due (04 R93), the powered-time count, the
time floor, the event. -/
def powerFail (s : State) : State :=
  if s.rst.pfail then s
  else
    let s := s.put F.PWR_STATUS_PFAIL 1
    let s := lcStop (leaveRing (setRst s { s.rst with pfail := true, accOpen := false, joined := 0, clean := false }))
    let s := setDomain (setDomains (setDomains (setDomains (goDark s) 72 79 false) 96 99 false) 108 109 false) 111 false
    let s := arbPreempt (setJr s (jrPowerFail s.jr))
    let s := (s.jr.queues.map Prod.fst).foldl (fun (s : State) c => if (s.queue c).relDue then writeMark s c else s) s
    let s := s.ks.advance.foldl (fun (s : State) i => if markFull s i || s.fenced (s.krec i).owner then s else markWrite s i) s
    let s := { s with wear := { s.wear with mramKept := s.wear.mramAge } }
    let s := event (floorWrite s) 4 evPowerFail 138 0xFFFF (leBytes 4 (framesInFlight s))
    let s := logFlush (setStr s StrSt.zero)
    setRst s { s.rst with clean := true }

/-- POWER_FAIL_TRIGGER: VIN low (`vin`), or PFAIL_N, which acts from the beginning of step 7 on (18 R458). -/
def powerFailTrigger (vin : Bool) (s : State) : State :=
  if !s.mainPower then s
  else
    let s := if vin then s.poke F.PWR_STATUS_VIN_OK 0 else s.put F.PWR_STATUS_PFAIL_PIN 1
    if vin ∨ 7 ≤ s.stage then powerFail s else s
def execPowerFailTrigger (vin : Bool) (s : State) : Host.Outcome State Fault Refusal := .next (powerFailTrigger vin s)

/-- POWER_FAIL_END: P-reset from the supply monitor, held where the rails collapse (18 R459). -/
def powerFailEnd (collapse : Bool) (s : State) : State :=
  if !s.rst.pfail then s
  else
    let j := s.rst.joined
    let s := requestReset (setRst s { s.rst with pfail := false, level := 0 }) 1 3
    let s := { s with mainPower := !collapse, rst := { s.rst with joined := s.rst.joined ||| j, pfEnd := true, padsHold := s.rst.padsHold || collapse } }
    let s := s.poke F.PWR_STATUS_PFAIL 0
    if collapse then s.poke F.PWR_STATUS_VIN_OK 0 else (s.poke F.PWR_STATUS_VIN_OK 1).poke F.PWR_STATUS_PFAIL_PIN 0
def execPowerFailEnd (collapse : Bool) (s : State) : Host.Outcome State Fault Refusal := .next (powerFailEnd collapse s)

/-- VHOLD_LOW: the part keeps running (18 R462). -/
def vholdLow (s : State) : State :=
  if s.stage ≠ 8 then s else event ((s.poke F.PWR_STATUS_VHOLD_READY 0).raise F.PWR_STATUS_VHOLD_LOW_SEEN) 4 evHoldLow 138
def execVholdLow (s : State) : Host.Outcome State Fault Refusal := .next (vholdLow s)

/-- START_STEP_7: VFs appear, journals are recovered, ports and acceptance open; the release path ends (18 R447, R451, R452). A PFAIL_N that is
low starts the power-fail sequence. -/
def startStep7 (floorBad : Bool) (s : State) : State :=
  if !(s.atStep 7) then s
  else
    let s := (List.range 4).foldl (fun (s : State) p => setHport s p { s.hport p with total := s.rst.totals.getD p 0 }) s
    let s := waitOwners (resumeResets (queuesRecover s))
    let s := floorAdvance floorBad (portsEnable s)
    let s := setStage (setRst s { s.rst with level := 0, recovery := false, escStart := false, critStage := 0 }) 8
    let s := if (s.reg 0x2100).toNat &&& 0xE000FF00 ≠ 0 then evLatch s tmpSrc else s
    let s := openAcceptance s
    if s.is F.PWR_STATUS_PFAIL_PIN then powerFail s else s
def execStartStep7 (floorBad : Bool) (s : State) : Host.Outcome State Fault Refusal := .next (startStep7 floorBad s)

/-! ## The end of a life-cycle transition (17 R425, Table 17.3) -/

/-- MRAM regions that Test → Production clears: journal, tree, lease marks, owner state, event log. -/
def mramClear (s : State) : State :=
  let s := { s with own := [], slots := [], blobIds := [], log := { s.log with mram := [] } }
  let s := setJr s { s.jr with recs := [], durable := [], changes := [] }
  setKs s { s.ks with marks := [], tree := [], roots := (RootSlot.zero, RootSlot.zero), log := [], epoch := 0, kekCheck := 0 }

/-- All of MRAM. -/
def mramClearAll (s : State) : State :=
  let s := setRing (mramClear s) { s.ring with taken := [] }
  { s with wear := WearSt.zero, foc := { s.foc with table := [], cuts := [], floor := 0 }, acted := [], gmem := s.gmem.filter (fun c => !(inMram c.1))
           rst := { s.rst with clean := false } }

/-- LC_PROGRAMMING_COMPLETE: the transition's effects, then P-reset; no source of 18 Table 18.6 asks for it, so no bit is set. -/
def lcComplete (ok : Bool) (s : State) : State :=
  match s.lc.prog with
  | none => s
  | some t =>
    let s := if !ok then event ((lcStop s).poke F.LC_CMD_RESULT 5) 4 evLcProgFail stewardSrc
      else
        let s := { s with lc := { s.lc with copies := List.replicate 3 (lcCode t), prog := none } }
        if t = 3 then mramClearAll s
        else
          let s := { s with sec := { s.sec with seed := Config.rootSeed t } }
          if t = 2 then mramClear s else s
    let s := s.poke F.LC_CMD_BUSY 0
    if s.rst.pfail then s
    else if s.rst.level = 3 ∧ !s.rst.begun then s
    else setRst s { s.rst with level := 3, begun := false, src := 10, joined := 0, esc := false }
def execLcProgrammingComplete (ok : Bool) (s : State) : Host.Outcome State Fault Refusal := .next (lcComplete ok s)

end Sys2Proof.Machine
end

