-- ==== Sys2Proof/Machine/Periscope.lean ====
section
/-! DEFINITION. Machine/Periscope.lean: the Periscope side-band port (19 R464 to R479). -/

namespace Sys2Proof.Machine

open Sys2Proof

def evPscWriter : Nat := 0x1101

def setPsc (s : State) (p : PscSt) : State := { s with psc := p }

/-- The port sends bytes. -/
def pscSend (s : State) (b : Bytes) : State := { s with out := b, sent := s.sent ++ [.psc b] }

/-- The island runs from VAUX alone: without it the port is dead. -/
def onIsland (s : State) (k : State → State) : State := if s.vaux then k s else s

/-! ## Bus modes (19 R464 to R466) -/

def State.i3c (s : State) : Bool := s.is F.PSC_STATUS_MODE
def State.dynAddr (s : State) : Nat := s.get F.PSC_STATUS_DYN_ADDR

/-- Enter I3C mode under a dynamic address. -/
def i3cEnter (s : State) (d : Nat) : State := (s.poke F.PSC_STATUS_MODE 1).poke F.PSC_STATUS_DYN_ADDR d

/-- ENTDAA: only a target without a dynamic address takes part. -/
def execEntdaa (addr : BitVec 7) (s : State) : Host.Outcome State Fault Refusal :=
  .next (onIsland s (fun s => if s.i3c then s else i3cEnter s addr.toNat))
/-- SETDASA, addressed to the static address. -/
def execSetdasa (static dyn : BitVec 7) (s : State) : Host.Outcome State Fault Refusal :=
  .next (onIsland s (fun s => if s.i3c ∨ static.toNat ≠ s.get F.PSC_STATUS_STATIC_ADDR then s else i3cEnter s dyn.toNat))
def execSetnewda (old new : BitVec 7) (s : State) : Host.Outcome State Fault Refusal :=
  .next (onIsland s (fun s => if s.i3c ∧ old.toNat = s.dynAddr then s.poke F.PSC_STATUS_DYN_ADDR new.toNat else s))
/-- RSTDAA: back to SMBus mode. -/
def execRstdaa (s : State) : Host.Outcome State Fault Refusal :=
  .next (onIsland s (fun s => (s.poke F.PSC_STATUS_MODE 0).poke F.PSC_STATUS_DYN_ADDR 0))

/-- Does a CCC reach the port: broadcast, or addressed to its dynamic address? -/
def State.cccHits (s : State) (target : Option (BitVec 7)) : Bool :=
  s.i3c && (match target with
    | none => true
    | some a => decide (a.toNat = s.dynAddr))

def execEnec (target : Option (BitVec 7)) (events : BitVec 8) (s : State) : Host.Outcome State Fault Refusal :=
  .next (onIsland s (fun s => if s.cccHits target ∧ events.getLsbD 0 then setPsc s { s.psc with ibi := true } else s))
def execDisec (target : Option (BitVec 7)) (events : BitVec 8) (s : State) : Host.Outcome State Fault Refusal :=
  .next (onIsland s (fun s => if s.cccHits target ∧ events.getLsbD 0 then setPsc s { s.psc with ibi := false } else s))

/-- A read CCC: the port answers at its dynamic address. -/
def cccRead (s : State) (target : BitVec 7) (b : State → Bytes) : State :=
  onIsland s (fun s => if s.cccHits (some target) then pscSend s (b s) else s)

/-- The provisioned ID, 48 bits, first byte highest (19 R465). -/
def State.pid (s : State) : Nat := Config.mipiId.toNat * 2 ^ 33 + 0x6400 * 65536 + s.get F.STRAP_CAPTURE_PERI_ADDR
def execGetpid (target : BitVec 7) (s : State) : Host.Outcome State Fault Refusal := .next (cccRead s target (fun s => beBytes 6 s.pid))
def execGetbcr (target : BitVec 7) (s : State) : Host.Outcome State Fault Refusal := .next (cccRead s target (fun _ => [0x06]))
def execGetdcr (target : BitVec 7) (s : State) : Host.Outcome State Fault Refusal := .next (cccRead s target (fun _ => [0x00]))
/-- GETSTATUS: bits [3:0] the pending interrupt, 1 while a claimed alert waits (PRESUMED from I3C Basic). -/
def execGetstatus (target : BitVec 7) (s : State) : Host.Outcome State Fault Refusal :=
  .next (cccRead s target (fun s => beBytes 2 (b2n (decide (s.evStack 5 ≠ [])))))
def execGetmrl (target : BitVec 7) (s : State) : Host.Outcome State Fault Refusal := .next (cccRead s target (fun s => beBytes 2 s.psc.mrl))
def execSetmrl (target : Option (BitVec 7)) (n : BitVec 16) (s : State) : Host.Outcome State Fault Refusal :=
  .next (onIsland s (fun s => if s.cccHits target then setPsc s { s.psc with mrl := min 256 n.toNat } else s))

/-- SMBUS_TIMEOUT: SCL held low for 25 ms; the packet in progress is discarded (19 R469). -/
def execSmbusTimeout (s : State) : Host.Outcome State Fault Refusal :=
  .next (onIsland s (fun s => if s.i3c then s else s.incSat F.PSC_ERRORS_TIMEOUTS))

/-! ## MCTP (19 R469 to R471) -/

/-- A message arrives: a packet whose PEC fails is discarded in SMBus mode; a message over 1,088 bytes, or beyond four at once, is dropped. -/
def receive (p : Packet) (s : State) (k : State → State) : State :=
  onIsland s (fun s =>
    if !s.i3c ∧ !p.pecOk then s.incSat F.PSC_ERRORS_PEC_FAIL
    else if 1088 < p.size ∨ 4 ≤ p.others then s.incSat F.PSC_ERRORS_DROPPED
    else k s)

/-- An MCTP control response: command, completion code, data (PRESUMED from DSP0236). -/
def mctpReply (s : State) (cmd cc : Nat) (d : Bytes) : State := pscSend s ([0x00, 0x00] ++ leBytes 1 cmd ++ leBytes 1 cc ++ d)

/-- Set Endpoint ID: 0 set and 1 force assign it; 0x00 and 0xFF are no endpoint IDs; 2 and 3 are not supported. -/
def execSetEndpointId (h : Packet) (op : BitVec 2) (eid : BitVec 8) (s : State) : Host.Outcome State Fault Refusal :=
  .next (receive h s (fun s =>
    if 2 ≤ op.toNat ∨ eid = 0 ∨ eid = 0xFF then mctpReply s 1 2 []
    else mctpReply (s.poke F.PSC_STATUS_EID eid.toNat) 1 0 ([0x00] ++ leBytes 1 eid.toNat ++ [0x00])))
def execGetEndpointId (h : Packet) (s : State) : Host.Outcome State Fault Refusal :=
  .next (receive h s (fun s => mctpReply s 2 0 (leBytes 1 (s.get F.PSC_STATUS_EID) ++ [0x00, 0x00])))
def execGetEndpointUuid (h : Packet) (s : State) : Host.Outcome State Fault Refusal :=
  .next (receive h s (fun s => mctpReply s 3 0 (fitBytes 16 Config.endpointUuid)))
/-- Get MCTP Version Support: 1.3, for a message type that the port serves now. -/
def State.typesServed (s : State) : Bytes := if s.mainUp then [0x00, 0x01, 0x05, 0x06, 0x7E] else [0x00, 0x01, 0x7E]
def execGetMctpVersionSupport (h : Packet) (sel : BitVec 8) (s : State) : Host.Outcome State Fault Refusal :=
  .next (receive h s (fun s =>
    if sel = 0xFF ∨ s.typesServed.contains sel then mctpReply s 4 0 [0x01, 0xF1, 0xF3, 0xFF, 0x00] else mctpReply s 4 0x80 []))
def execGetMessageTypeSupport (h : Packet) (s : State) : Host.Outcome State Fault Refusal :=
  .next (receive h s (fun s => mctpReply s 5 0 (leBytes 1 s.typesServed.length ++ s.typesServed)))
/-- Get Vendor Defined Message Support: one set, PCI format, message version 1. -/
def execGetVendorMessageSupport (h : Packet) (sel : BitVec 8) (s : State) : Host.Outcome State Fault Refusal :=
  .next (receive h s (fun s =>
    if sel = 0 then mctpReply s 6 0 ([0xFF, 0x00] ++ beBytes 2 Config.pciVendor.toNat ++ [0x00, 0x01]) else mctpReply s 6 2 []))

/-! ## PLDM (19 R472, Table 19.4) -/

/-- Does the platform repository hold a sensor now? Sensors in the order of Table 19.4: die temperature, module power, VIN, VHOLD, VAUX, VBAT_A,
VBAT_B, life-cycle state, tamper hold, start stage, ring state. -/
def State.sensorHeld (s : State) (n : Nat) : Bool := s.mainUp || (decide (4 ≤ n) && decide (n ≤ 8))

/-- The state that a state sensor shows. -/
def State.sensorState (s : State) (n : Nat) : Nat := match n with
  | 7 => s.lcState
  | 8 => s.get F.TMP_STATUS_HOLD
  | 9 => s.get F.DEV_START_STAGE
  | _ => s.ringState

/-- A PLDM request: type 0 or 2; a sensor must be in the repository. Data that no rule gives are free. -/
def pldmServe (typ cmd inst : Nat) (sensor : Option (Fin 11)) (d : Bytes) (s : State) : State :=
  let head := [0x01] ++ leBytes 1 (inst % 32) ++ leBytes 1 typ ++ leBytes 1 cmd
  if typ ≠ 0 ∧ typ ≠ 2 then pscSend s (head ++ [0x20])
  else
    let r := s.free
    let body := fun (b : Bytes) => pscSend r.2 (head ++ [0x00] ++ b)
    match sensor with
    | none => body (Config.pldmData typ cmd d s.freeCtr)
    | some n =>
      if !(s.sensorHeld n.val) then pscSend s (head ++ [0x80])
      else if 7 ≤ n.val then body (leBytes 1 (s.sensorState n.val) ++ Config.pldmData typ cmd d s.freeCtr)
      else body (Config.pldmData typ cmd d s.freeCtr)
def execPldmMessage (h : Packet) (typ cmd inst : BitVec 8) (sensor : Option (Fin 11)) (data : List (BitVec 8)) (s : State) :
    Host.Outcome State Fault Refusal :=
  .next (receive h s (pldmServe typ.toNat cmd.toNat inst.toNat sensor data))

/-- PLDM_SENSOR_EVENT: a PlatformEventMessage, when the port's alerts are enabled. -/
def sensorEvent (n : Nat) (s : State) : State :=
  if s.is F.PSC_CFG_ALERT_EN ∧ s.sensorHeld n then
    pscSend s.free.2 ([0x01, 0x80, 0x02, 0x0A, 0x01, 0x00, 0x00] ++ leBytes 2 n ++ Config.pldmData 2 10 [] s.freeCtr)
  else s
def execPldmSensorEvent (sensor : Fin 11) (s : State) : Host.Outcome State Fault Refusal := .next (onIsland s (sensorEvent sensor.val))

/-! ## Vendor messages (19 R473 to R476) -/

/-- The response to a vendor request (19 Table 19.6), after the type byte and the vendor ID. -/
def vendorReply (s : State) (op : Nat) (h : VendorHead) (st : Nat) (b : Bytes) : State :=
  pscSend s ([0x7E] ++ beBytes 2 Config.pciVendor.toNat ++ [0x01] ++ leBytes 1 op ++ leBytes 1 h.tag.toNat ++ [0x01] ++ leBytes 2 st ++
    leBytes 2 b.length ++ b)

/-- A vendor request is answered once: another version, a body that breaks Table 19.5 (`good`: the fields that the body's length `len` does
not decide), a main-side opcode without the main side, else what the opcode gives. -/
def vendor (op : Nat) (main : Bool) (len : Nat) (good : Bool) (h : VendorHead) (s : State) (k : State → Nat × Bytes × State) : State :=
  receive h.pkt s (fun s =>
    if h.version ≠ 1 then vendorReply s op h sUnsupported [1, 1]
    else if h.flags ≠ 0 ∨ h.status ≠ 0 ∨ h.bodyLen.toNat ≠ len ∨ !good then vendorReply s op h sMalformed []
    else if main ∧ !s.mainUp then vendorReply s op h sDenied []
    else
      let r := k s
      vendorReply r.2.2 op h r.1 r.2.1)

def execPscVersion (h : VendorHead) (s : State) : Host.Outcome State Fault Refusal := .next (vendor 1 false 0 true h s (fun s => (sOk, [1, 1], s)))

/-- STATUS: the upper half of the main-present word names the source that an asserted PSC_ALERT_N stands for (19 R477). -/
def pscStatus (s : State) : Bytes :=
  let w := fun (off : Nat) => leBytes 4 (s.reg off).toNat
  let m := fun (off : Nat) => if s.mainPower then w off else [0, 0, 0, 0]
  w 0x2000 ++ w 0x2100 ++ w 0x2108 ++ w 0x1000 ++ m 0x10 ++ w 0x1004 ++ m 0x1200 ++
    leBytes 2 (b2n s.mainPower) ++ leBytes 2 (s.psc.named.getD 0)
def execPscStatus (h : VendorHead) (s : State) : Host.Outcome State Fault Refusal :=
  .next (vendor 2 false 0 true h s (fun s => (sOk, pscStatus s, s)))

/-- The record of a sequence number in the MRAM log alone. -/
def mramFind (s : State) (q : Nat) : Option Bytes := logFind { s with log := { s.log with buf := [] } } q

/-- LOG_READ: of the `count` numbers from `seq` on, the records found. -/
def logRead (seq count : Nat) (s : State) : Bytes :=
  ((List.range count).map (fun k => ((if s.mainUp then logFind s (seq + k) else mramFind s (seq + k)).getD []))).flatten
def execLogRead (h : VendorHead) (seq : BitVec 64) (count : BitVec 8) (s : State) : Host.Outcome State Fault Refusal :=
  .next (vendor 3 false 9 (decide (1 ≤ count.toNat) && decide (count.toNat ≤ 16)) h s (fun s => (sOk, logRead seq.toNat count.toNat s, s)))

/-- The length of a region that REGION_READ serves. -/
def regionSize (r : Nat) : Nat := match r with
  | 0 => 0x100000
  | 1 => 0x200000
  | 2 => 0x800000
  | _ => 0
def regionRead (r off len : Nat) (s : State) : Bytes :=
  (List.range len).map (fun i => match r with
    | 0 => logByte s (off + i)
    | 1 => leaseByte s (off + i)
    | _ => durByte s (off + i))
def execRegionRead (h : VendorHead) (region : BitVec 8) (zeros : BitVec 24) (off len : BitVec 32) (s : State) : Host.Outcome State Fault Refusal :=
  .next (vendor 4 false 12 (decide (zeros = 0) && decide (1 ≤ len.toNat) && decide (len.toNat ≤ 1024) &&
      decide (off.toNat + len.toNat ≤ regionSize region.toNat)) h s
    (fun s => (sOk, regionRead region.toNat off.toNat len.toNat s, s.free.2)))

/-- RESET: the port responds S_OK, and the request is raised as source 8 (19 R474). -/
def pscReset (lv : Nat) (s : State) : Nat × Bytes × State :=
  if s.is F.PSC_CFG_RESET_EN then (sOk, [], requestReset s 8 lv) else (sDenied, [], s)
def execPscReset (h : VendorHead) (level : BitVec 8) (s : State) : Host.Outcome State Fault Refusal :=
  .next (vendor 5 true 1 (decide (1 ≤ level.toNat) && decide (level.toNat ≤ 3)) h s (pscReset level.toNat))

/-- LC_TRANSITION: the outcome stands in the body; a transition in progress denies it (19 R475). -/
def execLcTransition (h : VendorHead) (target : BitVec 8) (zeros : BitVec 24) (token : List (BitVec 8)) (s : State) :
    Host.Outcome State Fault Refusal :=
  .next (vendor 6 true 36 (decide (zeros = 0) && decide (token.length = 32)) h s (fun s =>
    if s.is F.LC_CMD_BUSY then (sDenied, [], s)
    else
      let r := lcRequest s target.toNat token
      (sOk, leBytes 1 r.1, r.2)))

/-- DBG_CHALLENGE: the one challenge outstanding, whether Periscope or Loupe draws it. -/
def execDbgChallenge (h : VendorHead) (s : State) : Host.Outcome State Fault Refusal :=
  .next (vendor 7 true 0 true h s (fun s =>
    let r := drawChallenge s
    (sOk, r.1, r.2)))

/-- DBG_CERT: parts at consecutive offsets; another offset discards the parts received. -/
def certPart (off : Nat) (final : Bool) (d : Bytes) (s : State) : Nat × Bytes × State :=
  if off ≠ s.lc.certBuf.length then (sMalformed, [], { s with lc := { s.lc with certBuf := [] } })
  else if !final then (sOk, [], { s with lc := { s.lc with certBuf := s.lc.certBuf ++ d } })
  else
    let c := s.lc.certBuf ++ d
    let s := presentCert { s with lc := { s.lc with certBuf := [] } } c
    (sOk, leBytes 1 (s.get F.LC_DEBUG_LAST), s)
def execPscDbgCert (h : VendorHead) (off : BitVec 32) (final : BitVec 8) (zeros : BitVec 24) (data : List (BitVec 8)) (s : State) :
    Host.Outcome State Fault Refusal :=
  .next (vendor 8 true (8 + data.length) (decide (zeros = 0) && decide (final.toNat ≤ 1) && decide (data.length ≤ 1024)) h s
    (certPart off.toNat (decide (final = 1)) data))

/-- IMAGE_CHUNK: only during step 4, with Periscope as the source or with a replacement due; a chunk out of order keeps what was received, and the
final one starts the checks (19 R476). -/
def imageChunk (off : Nat) (final : Bool) (d : Bytes) (s : State) : Nat × Bytes × State :=
  if !s.loads ∨ !(s.is F.DEV_START_RECOVERY || decide (s.get F.STRAP_CAPTURE_BOOTSRC = 2)) then (sDenied, [], s)
  else if off ≠ s.rst.imageBuf.length then (sMalformed, [], s)
  else
    let b := s.rst.imageBuf ++ d
    if final then (sOk, [], bootImage b 2 (setRst s { s.rst with imageBuf := [] })) else (sOk, [], setRst s { s.rst with imageBuf := b })
def execImageChunk (h : VendorHead) (off : BitVec 32) (final : BitVec 8) (zeros : BitVec 24) (data : List (BitVec 8)) (s : State) :
    Host.Outcome State Fault Refusal :=
  .next (vendor 9 true (8 + data.length) (decide (zeros = 0) && decide (final.toNat ≤ 1) && decide (data.length ≤ 1024)) h s
    (imageChunk off.toNat (decide (final = 1)) data))

/-! ## PSC_CFG and alerts (19 R477 to R479) -/

/-- A write of PSC_CFG: target 5 of the router is available while ALERT_EN is 1. -/
def pscCfg (v : Word) (s : State) : State :=
  let s := s.setReg 0x3000 (v &&& 0xE000007F)
  if v.getLsbD 31 then targetCome 5 s else targetGone 5 s
def execAlertCfg (h : VendorHead) (v : Word) (s : State) : Host.Outcome State Fault Refusal :=
  .next (vendor 11 false 4 true h s (fun s => (sOk, [], pscCfg v s)))

/-- PSC_ALERT_N is asserted for a source. -/
def alertAssert (s : State) (src : Nat) : State :=
  setPsc { s with sent := s.sent ++ [.pulse 1] } { s.psc with alertN := true, named := some src, notify := none }

/-- The notification goes to OWNER_ADDR as a response with opcode 0x0A. -/
def notifySend (s : State) (src : Nat) : State :=
  setPsc { s with sent := s.sent ++ [.psc (leBytes 1 (s.get F.PSC_CFG_OWNER_ADDR) ++ [0x7E] ++ beBytes 2 Config.pciVendor.toNat ++
    [0x01, 0x0A, 0x00, 0x01, 0x00, 0x00, 0x02, 0x00] ++ leBytes 2 src)] } { s.psc with notify := none }

/-- One attempt of a notification; after 8 lost arbitrations PSC_ALERT_N is asserted instead (19 R467, R477). -/
def notifyTry (s : State) (src losses : Nat) (lost : Bool) : State :=
  if !lost then notifySend s src
  else
    let s := s.incSat F.PSC_ERRORS_ARB_LOST
    if 8 ≤ losses + 1 then alertAssert s src else setPsc s { s.psc with notify := some (src, losses + 1) }

/-- Announce a source in the way of the port's mode. -/
def announce (s : State) (src : Nat) (lost : Bool) : State :=
  if s.i3c then (if s.psc.ibi then { s with sent := s.sent ++ [.psc ([0xE1] ++ leBytes 2 src)] } else s)
  else if s.is F.PSC_CFG_NOTIFY_EN then notifyTry s src 0 lost
  else alertAssert s src

/-- PSC_ALERT_OFFER: the controller claims what target 5 is offered, and announces it. `lost` says that a notification loses arbitration. -/
def alertOffer (lost : Bool) (s : State) : State :=
  if tget 0 s.evr.offer 5 = 0 then s
  else
    let src := tget 0 s.evr.offer 5 - 1
    announce (claimRead .psc 5 s) src lost
def execPscAlertOffer (lost : Bool) (s : State) : Host.Outcome State Fault Refusal := .next (onIsland s (alertOffer lost))

/-- PSC_NOTIFY_RETRY: the bus is free again. -/
def execPscNotifyRetry (lost : Bool) (s : State) : Host.Outcome State Fault Refusal :=
  .next (onIsland s (fun s => match s.psc.notify with
    | some (src, n) => notifyTry s src n lost
    | none => s))

/-- ALERT_RESPONSE_READ: the static address is returned, and PSC_ALERT_N is released. -/
def execAlertResponseRead (s : State) : Host.Outcome State Fault Refusal :=
  .next (onIsland s (fun s => if s.psc.alertN ∧ !s.i3c then
      pscSend (setPsc s { s.psc with alertN := false }) (leBytes 1 (s.get F.PSC_STATUS_STATIC_ADDR))
    else s))

/-- MAIN_RAIL_ALERT: the island's own alert 138, without a claim (19 R478). -/
def execMainRailAlert (lost : Bool) (s : State) : Host.Outcome State Fault Refusal := .next (onIsland s (fun s => announce s 138 lost))

/-- ALERT_ACK: the claim ends when the message names its source (19 R477, 16 R408). -/
def alertAck (src : Nat) (s : State) : Nat × Bytes × State :=
  match s.evStack 5 with
  | top :: _ =>
    if top = src then
      let s := completeWrite .psc 5 src s
      (sOk, [], setPsc s { s.psc with alertN := false, named := none, notify := none })
    else (sMalformed, [], s)
  | [] => (sMalformed, [], s)
def execAlertAck (h : VendorHead) (src : BitVec 16) (s : State) : Host.Outcome State Fault Refusal :=
  .next (vendor 10 true 2 true h s (alertAck src.toNat))

end Sys2Proof.Machine
end

