-- ==== Sys2Proof/Machine/Registers.lean ====
section
/-! DEFINITION. Machine/Registers.lean: reads and writes of the register map that have no row of their own (00 R4, 21 R494 to R505). -/

namespace Sys2Proof.Machine

open Sys2Proof

/-- The event of an access that is not 4 or 8 bytes long and aligned (21 R495). -/
def evAccess : Nat := 0x1401
def badAccess (s : State) : State := event s 2 evAccess stewardSrc

/-! ## Reading (21 R494, R496, R497) -/

/-- Word `k` of an array of bits. -/
def bitWord (f : Nat → Bool) (k : Nat) : Word :=
  BitVec.ofNat 32 ((List.range 32).foldl (fun w j => if f (32 * k + j) then w + 2 ^ j else w) 0)

/-- The oldest sequence number held in the buffer or the log; 0 when none is. -/
def logTail (s : State) : Nat :=
  let l := s.log.buf.map (fun r => r.seq) ++ s.log.mram.filterMap (fun e => e.2.map (fun r => r.seq))
  l.foldl (fun a q => if a = 0 ∨ q < a then q else a) 0

/-- EVR_TSTAT of a target (16 Table 16.5). -/
def evTstat (s : State) (t : Nat) : Nat :=
  let st := s.evStack t
  let off := tget 0 s.evr.offer t
  st.length * 268435456 + b2n (s.evr.avail.contains t) * 134217728 + (if off = 0 then 2047 else off - 1) * 65536 +
    (match st with
      | x :: _ => s.evPrio x
      | [] => 255) * 256

/-- What a register shows: live arrays and windows computed, write-only fields 0. -/
def State.shown (s : State) (off : Nat) : Word :=
  let word := fun (b : Bytes) (k : Nat) => BitVec.ofNat 32 (leNat (sliceBytes b k 4))
  if 0x30 ≤ off ∧ off < 0x40 then word Config.serial (off - 0x30)
  else if off = 0x2104 then (if s.lcState = 1 then s.reg off else s.reg off &&& 0xFFFF00FF)
  else if off = 0x4010 then bitWord s.evr.latched.contains 62
  else if 0x4100 ≤ off ∧ off < 0x4200 then bitWord s.evLive ((off - 0x4100) / 4)
  else if 0x4200 ≤ off ∧ off < 0x4300 then bitWord s.evr.latched.contains ((off - 0x4200) / 4)
  else if 0x6000 ≤ off ∧ off < 0x6600 ∧ off % 256 = 0xC then BitVec.ofNat 32 (evTstat s (off % 0x1000 / 256))
  else if off = 0x8004 then BitVec.ofNat 32 ((s.reg off).toNat / 16384 * 16384 + (s.log.buf.filter (fun r => !r.flushed)).length)
  else if off = 0x8010 then BitVec.ofNat 32 (s.log.next - 1)
  else if off = 0x8014 then BitVec.ofNat 32 ((s.log.next - 1) / 4294967296)
  else if off = 0x8018 then BitVec.ofNat 32 (logTail s)
  else if off = 0x801C then BitVec.ofNat 32 (logTail s / 4294967296)
  else if 0x10000 ≤ off ∧ off < 0x50000 then
    let o := (off - 0x10000) / 64
    if (s.owner o).state = oAbsent then 0 else word (ownerEntry o (s.owner o)) (off % 64)
  else if 0x60000 ≤ off ∧ off < 0x60800 ∧ off % 256 = 0x50 then (Config.arrayTemp ((off - 0x60000) / 256) s.mtick).setWidth 32
  else if 0x81000 ≤ off ∧ off < 0x91000 then match tget none s.foc.table ((off - 0x81000) / 16) with
    | some x => word (entryBytes x) (off % 16)
    | none => 0
  else if 0x200000 ≤ off ∧ off < 0x203000 ∧ off % 0x400 = 0x100 then
    let u := (off - 0x200000) / 0x400
    (s.poke F.APT_STATUS_PENDING (b2n (aptPending s u)) u).reg off
  else if off = 0x203000 then BitVec.ofNat 32 s.apt.refused
  else if 0x400000 ≤ off ∧ off < 0x500000 ∧ off % 64 = 0x28 ∧ (s.queue ((off - 0x400000) / 64)).bound then
    (showQueue s ((off - 0x400000) / 64)).reg off
  else match regRow off with
    | some r => buildWord r.fields (fun f => if f.acc = .wo then 0 else bitsOf (s.reg off) f.lo (f.hi - f.lo + 1))
    | none => if 0xC0000 ≤ off ∧ off < 0xD0000 ∧ 0x800 ≤ off % 0x1000 ∧ off % 0x1000 < 0xC00 then s.reg off else 0

/-- The HI registers that a read of a LO register latches (21 R497, 10 R275). -/
def latchOf (off : Nat) : List Nat :=
  if off = 0x40 ∨ off = 0x8010 ∨ off = 0x8018 ∨ off = 0x70810 then [off + 4]
  else if off = 0x80000 then [0x80004, 0x80008]
  else if 0x60000 ≤ off ∧ off < 0x60800 then
    (if off % 256 = 8 ∨ off % 256 = 0x10 ∨ off % 256 = 0x54 then [off + 4] else [])
  else if 0xC0000 ≤ off ∧ off < 0xD0000 then
    let m := off % 0x1000
    if m % 8 = 0 ∧ ((0x100 ≤ m ∧ m < 0x148) ∨ (0x200 ≤ m ∧ m < 0x300 ∧ m % 64 < 0x20)) then [off + 4] else []
  else if 0x100000 ≤ off ∧ off < 0x148000 then (if off % 0x1000 = 0x50 ∨ off % 0x1000 = 0x58 then [off + 4] else [])
  else if 0x200000 ≤ off ∧ off < 0x203000 then (if off % 0x400 = 0x104 then [off + 4] else [])
  else if 0x400000 ≤ off ∧ off < 0x500000 then (if off % 64 = 0x30 then [off + 4] else [])
  else []

/-- Does an 8-byte read return both halves of the pair at once, latching nothing (21 R497)? FOC_NOW_NS is no LO register: its
8-byte read is two 4-byte reads (10 R275). -/
def pairAt (off : Nat) : Bool := decide (latchOf off ≠ []) && decide (off ≠ 0x80000)

def latchKey (a : Agent) (off : Nat) : Nat := agentNum a * 16777216 + off

/-- The RC fields of a register are cleared by its read (00 R4). -/
def rcClear (s : State) (off : Nat) : State := match regRow off with
  | some r => if r.fields.any (fun f => f.acc = .rc) then
      s.setReg off (buildWord r.fields (fun f => if f.acc = .rc then 0 else bitsOf (s.reg off) f.lo (f.hi - f.lo + 1)))
    else s
  | none => s

/-- A 4-byte read of a register by an agent that may read it: EVR_CLAIM claims, a pending copy is consumed, a LO register latches, RC clears. -/
def regRead (a : Agent) (off : Nat) (s : State) : Word × State :=
  if 0x6000 ≤ off ∧ off < 0x6600 ∧ off % 256 = 4 then
    let s := claimRead a (off % 0x1000 / 256) s
    (s.rdata.setWidth 32, s)
  else match tget none s.latches (latchKey a off) with
    | some w => (w, { s with latches := tset none s.latches (latchKey a off) none })
    | none =>
      let v := s.shown off
      let s' := { s with latches := (latchOf off).foldl (fun t h => tset none t (latchKey a h) (some (s.shown h))) s.latches }
      (v, rcClear s' off)

/-- Is the TDI of a function CONFIG_LOCKED or RUN (14 R380)? -/
def State.tdiLocked (s : State) (fn : Nat) : Bool := decide ((s.fn fn).tdi = 1) || decide ((s.fn fn).tdi = 2)

/-- May the agent read an offset of PF BAR0 (18 R452, 19 R479, 21 R496, 14 R380)? -/
def State.mayRead (s : State) (a : Agent) (off : Nat) : Bool :=
  match a with
  | .fn f =>
    f.vf.isNone && !(s.outOfReach a off) &&
      (if 0x3000 ≤ off ∧ off < 0x3100 then decide (s.get F.DEV_START_STAGE = 8)
       else if 0x400000 ≤ off then
        let fn := s.ctxFn ((off - 0x400000) / 64)
        if s.isPrimary a then !(s.tdiLocked fn) else (s.queue ((off - 0x400000) / 64)).bound && decide (fn / 2048 = f.port.val)
       else true)
  | _ => true

/-- The queue context behind a function's window for a queue-pair number. -/
def fnCtx (s : State) (fn q : Nat) : Option Nat :=
  (s.jr.queues.find? (fun e => e.2.bound && decide (s.ctxFn e.1 = fn) && decide (s.get F.QP_ID_QPN e.1 = q))).map Prod.fst

/-- FN_ID of a function (21 Table 21.4). -/
def fnId (s : State) (f : FnId) : Word :=
  let fn := fnNum f
  let n := (s.jr.queues.filter (fun e => e.2.bound && decide (s.ctxFn e.1 = fn))).length
  BitVec.ofNat 32 (f.port.val * 1073741824 + b2n f.vf.isSome * 536870912 + (f.vf.map (fun v => v.val)).getD 0 * 524288 + n % 128 * 4096 +
    (s.fn fn).owner)

/-- Where the MSI-X table of a function's page starts and ends (21 Table 21.3). -/
def msixBase (f : FnId) : Nat := if f.vf.isNone then 0x8000 else 0x2000
def msixEnd (f : FnId) : Nat := if f.vf.isNone then 0x10000 else 0x2080

/-- A 4-byte read of a doorbell page. -/
def pageRead (a : Agent) (f : FnId) (off : Nat) (s : State) : Word × State :=
  let fn := fnNum f
  if off < 0x1000 then match fnCtx s fn (off / 64) with
    | some c => regRead a (0x400000 + c * 64 + off % 64) s
    | none => (0, s)
  else if off = 0x1000 then (ownFstat s fn, s)
  else if off = 0x1004 then (fnId s f, s)
  else if 0x3000 ≤ off ∧ off < 0x3100 then (tget 0 (s.fn fn).pba (off - 0x3000), s)
  else if msixBase f ≤ off ∧ off < msixEnd f then ((s.fn fn).msixWord (off - msixBase f), s)
  else (0, s)

/-- A read as two 4-byte reads, lower address first. -/
def readTwo (rd : Nat → State → Word × State) (off : Nat) (s : State) : BitVec 64 × State :=
  let x := rd off s
  let y := rd (off + 4) x.2
  (BitVec.ofNat 64 (x.1.toNat + y.1.toNat * 4294967296), y.2)

/-- A register read. The primary PF also reads the context windows of the others (06 R146). The value goes to `rdata` (21 R495, R497). -/
def readAccess (a : Agent) (r : RegAddr) (len : Nat) (s : State) : State :=
  let give := fun (x : BitVec 64 × State) => { x.2 with rdata := x.1 }
  let run := fun (off : Nat) (rd : Nat → State → Word × State) =>
    if !((len = 4 ∨ len = 8) ∧ off % len = 0) then { badAccess s with rdata := 0 }
    else if len = 8 then give (readTwo rd off s)
    else give ((rd off s).1.setWidth 64, (rd off s).2)
  match r with
  | .bar0 off =>
    if 16777216 ≤ off ∨ !(s.mayRead a off) then { s with rdata := 0 }
    else if len = 8 ∧ off % 8 = 0 ∧ pairAt off then
      { s with rdata := BitVec.ofNat 64 ((s.shown off).toNat + (s.shown (off + 4)).toNat * 4294967296) }
    else run off (regRead a)
  | .page f off =>
    if !(decide (a = .fn f) || (s.isPrimary a && decide (off < 0x1000) && !(s.tdiLocked (fnNum f)))) ∨ s.outOfReach a 0x400000 then { s with rdata := 0 }
    else match (if len = 8 ∧ off < 0x1000 ∧ off % 64 = 0x30 then fnCtx s (fnNum f) (off / 64) else none) with
      | some c => { s with rdata := BitVec.ofNat 64 (s.get64 F.QP_ASEQ_LO c) }
      | none => run off (pageRead a f)
  | .cfg f => { s with rdata := if a = .fn f then BitVec.ofNat 64 (s.fn (fnNum f)).cfg else 0 }

/-- LATCHING_LO_READ. -/
def execLatchingLoRead (a : Agent) (r : RegAddr) (len : Nat) (s : State) : Host.Outcome State Fault Refusal := .next (readAccess a r len s)
/-- LATCHED_HI_READ. -/
def execLatchedHiRead (a : Agent) (r : RegAddr) (len : Nat) (s : State) : Host.Outcome State Fault Refusal := .next (readAccess a r len s)
/-- RC_READ. -/
def execRcRead (a : Agent) (r : RegAddr) (len : Nat) (s : State) : Host.Outcome State Fault Refusal := .next (readAccess a r len s)

/-! ## Writing (00 R4, 21 R494 to R498) -/

/-- A write applied field by field by its access codes; `locked` holds the RWL fields. -/
def writtenWord (r : RegRow) (old v : Word) (locked : Bool) : Word :=
  buildWord r.fields (fun f =>
    let w := f.hi - f.lo + 1
    let o := bitsOf old f.lo w
    let n := bitsOf v f.lo w
    match f.acc with
    | .rw => n
    | .rwl => if locked then o else n
    | .w1c => o - (o &&& n)
    | .w1s => o ||| n
    | _ => o)
def rowWrite (s : State) (off : Nat) (v : Word) (locked : Bool := false) : State := match regRow off with
  | some r => s.setReg off (writtenWord r (s.reg off) v locked)
  | none => s

/-- The event of a write by a function that may not write a block (21 R496). -/
def blockDenied (off : Nat) (s : State) : State :=
  if off < 0x1000 then ctxDenied s
  else if off < 0x2000 then event s 2 evRstWriter stewardSrc
  else if off < 0x3000 then event s 2 evLcWriter stewardSrc
  else if off < 0x4000 then event s 2 evPscWriter stewardSrc
  else if off < 0x10000 then evrDenied s
  else if off < 0x50000 then ctxDenied s
  else if off < 0x60000 then ksDenied s
  else if off < 0x70000 then event s 2 evHxWriter stewardSrc
  else if off < 0x80000 then event s 2 evRngWriter stewardSrc
  else if off < 0xA0000 then event s 2 evFocWriter stewardSrc
  else if off < 0xB0000 then ringDenied s
  else if off < 0x100000 then event s 2 evStrWriter stewardSrc
  else if off < 0x200000 then ctxDenied s
  else if off < 0x400000 then aptDenied s
  else ctxDenied s

/-- TMP_CFG: ERASE bits 0 and 1 read 1, and LOCK holds ERASE (17 R433). -/
def tmpCfg (v : Word) (s : State) : State :=
  let s := rowWrite s 0x2104 v (s.is F.TMP_CFG_LOCK)
  s.poke F.TMP_CFG_ERASE (s.get F.TMP_CFG_ERASE ||| 3)

/-- SP_CFG (09 Table 09.1). -/
def spCfg (n : Nat) (v : Word) (s : State) : State :=
  let s := rowWrite s (F.SP_CFG_ENABLE.at n 0) v (s.is F.SP_CFG_ENABLE n)
  let s := if s.get F.SP_CFG_BREAKOUT n = 3 then s.poke F.SP_CFG_BREAKOUT 0 n else s
  let m := s.get F.SP_CFG_MAX_FRAME n
  let s := if 64 ≤ m ∧ m ≤ 9600 then s else s.poke F.SP_CFG_MAX_FRAME 9600 n
  portUpdate (setDomain s (80 + n) (v.getLsbD 31))

/-- Zero the performance counters of a facet. -/
def perfClear (s : State) (p : Nat) : State := (List.range 16).foldl (fun (s : State) j => s.poke F.FCT_PERF 0 p j) s

/-- A ring size outside 6 to 16 is written as 6. -/
def ksSize (off : Nat) (v : Word) (locked : Bool) (s : State) : State :=
  rowWrite s off (if 6 ≤ v.toNat % 32 ∧ v.toNat % 32 ≤ 16 then v else 6) locked

/-- Fields with a range: a value outside is written as the nearest end. -/
def clampWord (lo hi : Nat) (v : Word) : Word := BitVec.ofNat 32 (max lo (min hi (v.toNat % 65536)))

/-- The blocks up to 0x8FFF: what a permitted write does beside its access codes. -/
def writeLow (a : Agent) (off : Nat) (v : Word) (s : State) : State :=
  if off = 0x1008 then
    let s := rowWrite s off (if v.toNat % 4 = 3 then v &&& 0xFFFFFFFC else v)
    if bitsOf v 30 2 = 0 then s else softReset a (bitsOf v 30 2) s
  else if off = 0x2004 then lcCmd a v s
  else if 0x2010 ≤ off ∧ off < 0x2030 then s.setReg off v
  else if off = 0x2104 then tmpCfg v s
  else if off = 0x3000 then pscCfg v s
  else if off = 0x4000 then (if v.getLsbD 31 then prioEnable a s else prioDisable a s)
  else if off = 0x4008 then prigroup a (BitVec.ofNat 3 v.toNat) s
  else if off = 0x4010 then swSet v s
  else if 0x4200 ≤ off ∧ off < 0x4300 then
    (List.range 32).foldl (fun (s : State) j => if v.getLsbD j then evClear s ((off - 0x4200) / 4 * 32 + j) else s) s
  else if off = 0x400C ∨ (0x4800 ≤ off ∧ off < 0x5000) then
    (if s.is F.EVR_CTRL_PRIO_EN then event s 2 evPrioLocked 140 else evSettle (s.setReg off v))
  else if 0x5000 ≤ off ∧ off < 0x5800 then evSettle (s.setReg off (v &&& 0x3F3F3F3F))
  else if off = 0x8000 then
    let s := s.poke F.LOG_CTRL_IRQ_SEV (min 5 (v.toNat % 8))
    if v.getLsbD 31 then logFlush s else s
  else if off = 0x8024 then logSelect v s
  else rowWrite s off v

/-- The blocks from KS to PRM. -/
def writeMid (a : Agent) (off : Nat) (v : Word) (s : State) : State :=
  if off = 0x50004 then
    let s := rowWrite s off v
    if v.getLsbD 2 then reloadEnd a s else s
  else if off = 0x50048 then ksSize off v (s.is F.KS_CTRL_EXP_EN) s
  else if off = 0x50068 then ksSize off v (s.is F.KS_CTRL_IMP_EN) s
  else if 0x50040 ≤ off ∧ off < 0x50048 then rowWrite s off v (s.is F.KS_CTRL_EXP_EN)
  else if 0x50060 ≤ off ∧ off < 0x50068 then rowWrite s off v (s.is F.KS_CTRL_IMP_EN)
  else if off = 0x50050 then exportAck a v.toNat s
  else if 0x60000 ≤ off ∧ off < 0x60800 ∧ off % 256 = 0x1C then (if v.getLsbD 31 then offlineReq a ((off - 0x60000) / 256) s else s)
  else if off = 0x60800 then rowWrite s off (clampWord 4 4096 v)
  else if off = 0x70800 then
    let s := rowWrite s off v
    if v.getLsbD 30 then cvuStart a s else s
  else if off = 0x7080C then cvuData a v s
  else if off = 0x80010 then timeSourceWrite a v s
  else if off = 0xA0004 then ringEnable a v s
  else if off = 0xB0004 then rowWrite s off (clampWord 10 2000 v)
  else rowWrite s off v

/-- The blocks from SP to ARB. -/
def writeHigh (a : Agent) (off : Nat) (v : Word) (s : State) : State :=
  if off < 0xD0000 then
    if off % 0x1000 = 0 then spCfg ((off - 0xC0000) / 0x1000) v s
    else if 0x800 ≤ off % 0x1000 ∧ off % 0x1000 < 0xC00 then s.setReg off v
    else rowWrite s off v
  else if off < 0x148000 then
    let p := (off - 0x100000) / 0x1000
    if off % 0x1000 = 0x3C then
      let s := rowWrite s off v
      if v.getLsbD 30 then perfClear s p else s
    else if 0x40 ≤ off % 0x1000 ∧ off % 0x1000 < 0x50 then
      s.setReg off (BitVec.ofNat 32 (leNat ((leBytes 4 v.toNat).map (fun b => if b.toNat < 0x10 then b else 0))))
    else rowWrite s off v
  else if off = 0x203000 then aptBar a (BitVec.ofNat 12 v.toNat) s
  else if off < 0x203000 then
    let u := (off - 0x200000) / 0x400
    if off % 0x400 = 0x110 then aptLock a u v s
    else if off % 0x400 < 0x100 ∧ (s.get F.APT_LOCK u).testBit (off % 0x400 / 8) then s
    else rowWrite s off v
  else if off % 0x20 = 0 then
    let burst := bitsOf v 16 8
    rowWrite s off (BitVec.ofNat 32 ((if burst = 0 then 1 else burst) * 65536 + max 16 (v.toNat % 65536)))
  else rowWrite s off v

/-- A target page of the router (16 R412). -/
def targetWrite (a : Agent) (off : Nat) (v : Word) (s : State) : State :=
  let t := off % 0x1000 / 256
  let may := evOwner t a || (decide (a ≠ .steward) && s.isPrimary a)
  if off % 256 = 8 then completeWrite a t (v.toNat % 2048) s
  else if !may then evrDenied s
  else if off % 256 = 0 then evSettle (s.setReg off (if 1 ≤ t ∧ t ≤ 4 then v &&& 0x800007FF else v &&& 0x80000000))
  else s

/-- A queue context: only the owning function writes it (06 R146). -/
def ctxWrite (a : Agent) (c m : Nat) (v : Word) (s : State) : State :=
  if 0x38 ≤ m then s
  else if !(s.ownsCtx a c) then ctxDenied s
  else if m = 0x10 then (if v.getLsbD 31 then qpEnable a c v s else qpDisable a c v s)
  else if m = 0x14 then sqDoorbell a c (v.toNat % 65536) s
  else if m = 0x18 then cqDoorbell a c (v.toNat % 65536) s
  else rowWrite s (0x400000 + c * 64 + m) v (s.is F.QP_CTRL_ENABLE c)

/-- The windows of 21 Table 21.2 that no function writes. -/
def readOnlyWindow (off : Nat) : Bool :=
  (decide (0x10000 ≤ off) && decide (off < 0x50000)) || (decide (0x81000 ≤ off) && decide (off < 0x91000)) ||
    (decide (0xB0800 ≤ off) && decide (off < 0xB0900) && (regRow off).isSome)

/-- Is there a register or template word at the offset? -/
def writable (off : Nat) : Bool :=
  (regRow off).isSome || (decide (0xC0000 ≤ off) && decide (off < 0xD0000) && decide (0x800 ≤ off % 0x1000) && decide (off % 0x1000 < 0xC00))

/-- DEV_BOOT registers: the H0 PF during step 4; every other write is ignored (18 Table 18.15). DEV_BOOT_GO is a command of its own. -/
def bootWrite (a : Agent) (off : Nat) (v : Word) (s : State) : State := match a with
  | .fn f => if f.port.val = 0 ∧ f.vf.isNone ∧ s.atStep 4 ∧ off ≠ 0x2C then rowWrite s off v else s
  | _ => s

/-- A 4-byte write to PF BAR0. -/
def regWrite (a : Agent) (off : Nat) (v : Word) (s : State) : State :=
  if s.outOfReach a off then s
  else if 0x400000 ≤ off then (if off < 0x500000 then ctxWrite a ((off - 0x400000) / 64) (off % 64) v s else s)
  else if 0x20 ≤ off ∧ off < 0x30 then bootWrite a off v s
  else if readOnlyWindow off then blockDenied off s
  else if !(writable off) then s
  else if 0x6000 ≤ off ∧ off < 0x6600 then targetWrite a off v s
  else if !(s.isPrimary a) ∨ (0x100000 ≤ off ∧ off < 0x148000 ∧ off % 0x1000 = 0 ∧ a ≠ .steward) then blockDenied off s
  else if off < 0x9000 then writeLow a off v s
  else if off < 0xC0000 then writeMid a off v s
  else writeHigh a off v s

/-- Messages pending on vectors that are no longer masked leave. -/
def msixFlush (s : State) (fn : Nat) : State :=
  let f := s.fn fn
  if !(f.cfg.testBit 0 && f.cfg.testBit 1) || f.cfg.testBit 2 then s
  else
    let due := f.pba.flatMap (fun e => ((List.range 32).map (fun j => e.1 * 8 + j)).filter (fun v => e.2.getLsbD (v % 32) && !((f.msixWord (16 * v + 12)).getLsbD 0)))
    due.foldl (fun (s : State) v =>
      let f := s.fn fn
      let k := v / 32 * 4
      raiseVector (setFn s fn { f with pba := tset 0 f.pba k (tget 0 f.pba k &&& ~~~(BitVec.ofNat 32 (2 ^ (v % 32)))) }) fn v) s

/-- A 4-byte write to a doorbell page. -/
def pageWrite (f : FnId) (off : Nat) (v : Word) (s : State) : State :=
  let fn := fnNum f
  let x := s.fn fn
  if off < 0x1000 then match fnCtx s fn (off / 64) with
    | some c => ctxWrite (.fn f) c (off % 64) v s
    | none => s
  else if off = 0x1000 then (if v.getLsbD 24 then setFn s fn { x with chg := false } else s)
  else if msixBase f ≤ off ∧ off < msixEnd f then
    let k := off - msixBase f
    msixFlush (setFn s fn { x with msix := tset (if k % 16 = 12 then 1 else 0) x.msix k v }) fn
  else s

/-- A write of a function's configuration: a PF's target of the router is available while it may send messages (16 Table 16.2). -/
def cfgWrite (f : FnId) (v : Nat) (s : State) : State :=
  let fn := fnNum f
  let s := setFn s fn { s.fn fn with cfg := v % 8 }
  let s := if f.vf.isSome then s else if v % 8 = 3 then targetCome (f.port.val + 1) s else targetGone (f.port.val + 1) s
  msixFlush s fn

/-- The W1C bits of the register at an offset. -/
def w1cMask (off : Nat) : Word := match regRow off with
  | some r => buildWord r.fields (fun f => if f.acc = .w1c then 2 ^ (f.hi - f.lo + 1) - 1 else 0)
  | none => 0

/-- Two 4-byte writes in one fabric cycle, lower address first (21 R497). A W1C bit of register `h`, which the second write
reaches, that the first write's effect sets ends the cycle set (00 R5). -/
def writeTwo (wr : Nat → Word → State → State) (h : Option Nat) (off : Nat) (lo hi : Word) (s : State) : State :=
  let t := wr (off + 4) hi (wr off lo s)
  match h with
  | some h =>
    let m := w1cMask h
    let rose := (wr off lo (s.setReg h (s.reg h &&& ~~~m))).reg h &&& m
    if rose = 0 then t else t.setReg h (t.reg h ||| rose)
  | none => t

/-- REGISTER_WRITE: 4 bytes, or 8 bytes as two writes, lower address first (21 R495, R497). -/
def writeAccess (a : Agent) (r : RegAddr) (len : Nat) (v : BitVec 64) (s : State) : State :=
  let lo : Word := v.setWidth 32
  let hi : Word := (v >>> 32).setWidth 32
  let run := fun (off : Nat) (h : Option Nat) (wr : Nat → Word → State → State) =>
    if !((len = 4 ∨ len = 8) ∧ off % len = 0) then badAccess s
    else if len = 8 then writeTwo wr h off lo hi s else wr off lo s
  match r with
  | .bar0 off => if 16777216 ≤ off ∨ s.outOfReach a off then s else run off (some (off + 4)) (regWrite a)
  | .page f off =>
    if s.outOfReach a 0x400000 then s
    else if a ≠ .fn f then (if off < 0x1000 ∧ (fnCtx s (fnNum f) (off / 64)).isSome then ctxDenied s else s)
    else run off (if off < 0x1000 then (fnCtx s (fnNum f) (off / 64)).map (fun c => 0x400000 + c * 64 + (off + 4) % 64) else none) (pageWrite f)
  | .cfg f => if a ≠ .fn f ∨ s.outOfReach a 0 then s else cfgWrite f v.toNat s
def execRegisterWrite (a : Agent) (r : RegAddr) (len : Nat) (v : BitVec 64) (s : State) : Host.Outcome State Fault Refusal :=
  .next (writeAccess a r len v s)

/-- FCT_PERF_CLEAR. -/
def fctPerfClear (a : Agent) (p : Nat) (s : State) : State :=
  if s.outOfReach a 0x100000 then s else if s.isPrimary a then perfClear s p else blockDenied 0x100000 s
def execFctPerfClear (a : Agent) (p : Fin 72) (s : State) : Host.Outcome State Fault Refusal := .next (fctPerfClear a p.val s)

end Sys2Proof.Machine
end

