-- ==== Sys2Proof/Machine/Resume.lean ====
section
/-! DEFINITION. Machine/Resume.lean: COMMAND_RESUME: a command whose array operations have ended goes on (07 R195; 05 R121). -/

namespace Sys2Proof.Machine

open Sys2Proof

/-- A custody command goes on with the verdicts of its quorum. -/
def custodyAgain (op : Nat) (w : Work) (s : State) : State := match op with
  | 0x0101 => keyGenerate w s
  | 0x0102 => keyImport w s
  | 0x0104 => keyExport w s
  | 0x0105 => keyActivate w s
  | 0x0106 => keySchedule w s
  | 0x0107 => keyCancel w s
  | 0x0108 => keySetLimit w s
  | 0x0109 => keyDestroy w s
  | 0x0111 => compAdd w s
  | 0x0112 => compCombine w s
  | 0x0130 => custEnrol w s
  | 0x0131 => custRemove w s
  | 0x0132 => quorumPolicy w s
  | 0x0140 => ownerErase w s
  | 0x0141 => deviceErase w s
  | 0x0B01 => focusAddCmd w s
  | 0x0C10 => programInstall w s
  | _ => programRemove w s

/-- What an operation found of its signature. -/
def HxOp.verdict (x : HxOp) : Nat :=
  let st := x.result.getD sInternal
  if st ≠ sOk then st else if x.out = [1] then sOk else sVerifyFail

/-- The signatures of a custody command have been verified, by the operations `l`. -/
def judged (s : State) (l : List HxOp) (j : Judge) : State :=
  custodyAgain j.opcode j.w (setHx s { s.hx with
    verdicts := s.hx.verdicts ++ l.filterMap (fun x => x.judge.map (fun k => (x.owner, x.tag, k.slot, x.verdict))) })

/-- The command of a work tag takes a facet again. -/
def resumeOn (s : State) (p o t : Nat) : State := match jrRunning s o t with
  | some (i, r) =>
    let s := s.modFacet p (fun f => { f with work := .cmd r.ctx r.aseq, owner := o })
    jrMod s i (fun y => { y with facet := p + 1, parked := false })
  | none => s

/-- COMMAND_RESUME: a free transaction facet takes the oldest command whose array has finished. -/
def commandResume (p : Nat) (s : State) : State :=
  if !(facetFree s p 1) then s
  else match resumeReady s with
    | none => s
    | some (o, t) =>
      let s := { s with jr := { s.jr with resume := s.jr.resume.filter (fun y => y != (o, t)) } }
      let l := s.hx.ops.filter (fun x => decide (x.owner = o) && decide (x.tag = t))
      match l.head? with
      | none => s
      | some x =>
        match x.result with
        | none => s
        | some st =>
          let s := resumeOn (l.foldl opDone s) p o t
          match x.judge with
          | none => resumeEnd s x st
          | some j => judged s l j
def execCommandResume (p : Fin 72) (s : State) : Host.Outcome State Fault Refusal := .next (commandResume p.val s)

end Sys2Proof.Machine
end

