-- ==== Sys2Proof/Machine/Dispatch.lean ====
section
/-! DEFINITION. Machine/Dispatch.lean: one arm per command. -/

namespace Sys2Proof.Machine

open Sys2Proof

def exec (i : Instr) (s : State) : Host.Outcome State Fault Refusal :=
  match i with
  | .add h d s1 s2 => Sys2Proof.Machine.execAdd h d s1 s2 s
  | .sub h d s1 s2 => Sys2Proof.Machine.execSub h d s1 s2 s
  | .addc h d s1 s2 => Sys2Proof.Machine.execAddc h d s1 s2 s
  | .subb h d s1 s2 => Sys2Proof.Machine.execSubb h d s1 s2 s
  | .and h d s1 s2 => Sys2Proof.Machine.execAnd h d s1 s2 s
  | .or h d s1 s2 => Sys2Proof.Machine.execOr h d s1 s2 s
  | .xor h d s1 s2 => Sys2Proof.Machine.execXor h d s1 s2 s
  | .shl h d s1 s2 => Sys2Proof.Machine.execShl h d s1 s2 s
  | .shr h d s1 s2 => Sys2Proof.Machine.execShr h d s1 s2 s
  | .sar h d s1 s2 => Sys2Proof.Machine.execSar h d s1 s2 s
  | .slt h d s1 s2 => Sys2Proof.Machine.execSlt h d s1 s2 s
  | .sltu h d s1 s2 => Sys2Proof.Machine.execSltu h d s1 s2 s
  | .mul h d s1 s2 => Sys2Proof.Machine.execMul h d s1 s2 s
  | .mulh h d s1 s2 => Sys2Proof.Machine.execMulh h d s1 s2 s
  | .jr h s1 => Sys2Proof.Machine.execJr h s1 s
  | .addi h d s1 imm => Sys2Proof.Machine.execAddi h d s1 imm s
  | .andi h d s1 imm => Sys2Proof.Machine.execAndi h d s1 imm s
  | .ori h d s1 imm => Sys2Proof.Machine.execOri h d s1 imm s
  | .xori h d s1 imm => Sys2Proof.Machine.execXori h d s1 imm s
  | .slti h d s1 imm => Sys2Proof.Machine.execSlti h d s1 imm s
  | .lui h d imm => Sys2Proof.Machine.execLui h d imm s
  | .beq h s1 s2 off => Sys2Proof.Machine.execBeq h s1 s2 off s
  | .bne h s1 s2 off => Sys2Proof.Machine.execBne h s1 s2 off s
  | .blt h s1 s2 off => Sys2Proof.Machine.execBlt h s1 s2 off s
  | .bge h s1 s2 off => Sys2Proof.Machine.execBge h s1 s2 off s
  | .j h off => Sys2Proof.Machine.execJ h off s
  | .ldb h d s1 imm => Sys2Proof.Machine.execLdb h d s1 imm s
  | .ldh h d s1 imm => Sys2Proof.Machine.execLdh h d s1 imm s
  | .ldw h d s1 imm => Sys2Proof.Machine.execLdw h d s1 imm s
  | .ldd h d s1 imm => Sys2Proof.Machine.execLdd h d s1 imm s
  | .stb h d s1 imm => Sys2Proof.Machine.execStb h d s1 imm s
  | .sth h d s1 imm => Sys2Proof.Machine.execSth h d s1 imm s
  | .stw h d s1 imm => Sys2Proof.Machine.execStw h d s1 imm s
  | .std h d s1 imm => Sys2Proof.Machine.execStd h d s1 imm s
  | .vld h v s1 imm => Sys2Proof.Machine.execVld h v s1 imm s
  | .vst h v s1 imm => Sys2Proof.Machine.execVst h v s1 imm s
  | .bld h b s1 imm => Sys2Proof.Machine.execBld h b s1 imm s
  | .bst h b s1 imm => Sys2Proof.Machine.execBst h b s1 imm s
  | .amoswap h d s1 s2 => Sys2Proof.Machine.execAmoswap h d s1 s2 s
  | .amoadd h d s1 s2 => Sys2Proof.Machine.execAmoadd h d s1 s2 s
  | .amocas h d s1 s2 => Sys2Proof.Machine.execAmocas h d s1 s2 s
  | .fenceSl h => Sys2Proof.Machine.execFenceSl h s
  | .fenceSs h => Sys2Proof.Machine.execFenceSs h s
  | .fenceFull h => Sys2Proof.Machine.execFenceFull h s
  | .vxor h d s1 s2 => Sys2Proof.Machine.execVxor h d s1 s2 s
  | .vand h d s1 s2 => Sys2Proof.Machine.execVand h d s1 s2 s
  | .vadd h d s1 s2 => Sys2Proof.Machine.execVadd h d s1 s2 s
  | .vperm h d s1 s2 => Sys2Proof.Machine.execVperm h d s1 s2 s
  | .vmovg h toVector v g => Sys2Proof.Machine.execVmovg h toVector v g s
  | .lens h bd bs1 bs2 sel dir dest subj => Sys2Proof.Machine.execLens h bd bs1 bs2 sel dir dest subj s
  | .hset h => Sys2Proof.Machine.execHset h s
  | .bxor h bd bs1 bs2 => Sys2Proof.Machine.execBxor h bd bs1 bs2 s
  | .band h bd bs1 bs2 => Sys2Proof.Machine.execBand h bd bs1 bs2 s
  | .bshl h bd bs1 n => Sys2Proof.Machine.execBshl h bd bs1 n s
  | .bshr h bd bs1 n => Sys2Proof.Machine.execBshr h bd bs1 n s
  | .bmovb h bd bs1 dstByte srcByte => Sys2Proof.Machine.execBmovb h bd bs1 dstByte srcByte s
  | .bmovn h bd bs1 dstNib srcNib => Sys2Proof.Machine.execBmovn h bd bs1 dstNib srcNib s
  | .bctr h bd bs1 ctr => Sys2Proof.Machine.execBctr h bd bs1 ctr s
  | .bmulx h bd bs1 gcmOrder => Sys2Proof.Machine.execBmulx h bd bs1 gcmOrder s
  | .bcmp h bs1 bs2 => Sys2Proof.Machine.execBcmp h bs1 bs2 s
  | .bins h bd high g => Sys2Proof.Machine.execBins h bd high g s
  | .bext h g bs1 high => Sys2Proof.Machine.execBext h g bs1 high s
  | .pext h bd bs1 fmt => Sys2Proof.Machine.execPext h bd bs1 fmt s
  | .pins h bd bs1 fmt => Sys2Proof.Machine.execPins h bd bs1 fmt s
  | .pchk h bs1 fmt => Sys2Proof.Machine.execPchk h bs1 fmt s
  | .ppan h bd g fmt => Sys2Proof.Machine.execPpan h bd g fmt s
  | .gmul h bd bs1 bs2 => Sys2Proof.Machine.execGmul h bd bs1 bs2 s
  | .ghash h bs1 => Sys2Proof.Machine.execGhash h bs1 s
  | .tag h bd bs1 => Sys2Proof.Machine.execTag h bd bs1 s
  | .seqld h q s1 imm => Sys2Proof.Machine.execSeqld h q s1 imm s
  | .seqgo h q ctr count => Sys2Proof.Machine.execSeqgo h q ctr count s
  | .seqwait h q => Sys2Proof.Machine.execSeqwait h q s
  | .ldk h d s1 use => Sys2Proof.Machine.execLdk h d s1 use s
  | .kset h use alg => Sys2Proof.Machine.execKset h use alg s
  | .kvar h v => Sys2Proof.Machine.execKvar h v s
  | .kcommit h d attr => Sys2Proof.Machine.execKcommit h d attr s
  | .hinit h alg keyed => Sys2Proof.Machine.execHinit h alg keyed s
  | .hupd h src => Sys2Proof.Machine.execHupd h src s
  | .hfin h dst => Sys2Proof.Machine.execHfin h dst s
  | .hsave h s1 => Sys2Proof.Machine.execHsave h s1 s
  | .hrest h s1 => Sys2Proof.Machine.execHrest h s1 s
  | .cvinit h s1 s2 => Sys2Proof.Machine.execCvinit h s1 s2 s
  | .cvupd h s1 s2 => Sys2Proof.Machine.execCvupd h s1 s2 s
  | .cvfin h d => Sys2Proof.Machine.execCvfin h d s
  | .fld h dst off => Sys2Proof.Machine.execFld h dst off s
  | .fst h src off => Sys2Proof.Machine.execFst h src off s
  | .fdone h => Sys2Proof.Machine.execFdone h s
  | .cmdin h d s1 s2 s3 => Sys2Proof.Machine.execCmdin h d s1 s2 s3 s
  | .cmdout h d s1 s2 s3 => Sys2Proof.Machine.execCmdout h d s1 s2 s3 s
  | .done h => Sys2Proof.Machine.execDone h s
  | .wcall h n => Sys2Proof.Machine.execWcall h n s
  | .wret h => Sys2Proof.Machine.execWret h s
  | .ecall h id => Sys2Proof.Machine.execEcall h id s
  | .eret h => Sys2Proof.Machine.execEret h s
  | .rngld h d => Sys2Proof.Machine.execRngld h d s
  | .gateKeyInfo h => Sys2Proof.Machine.execGateKeyInfo h s
  | .gateOwnerInfo h => Sys2Proof.Machine.execGateOwnerInfo h s
  | .auditNote h => Sys2Proof.Machine.execAuditNote h s
  | .kcv h => Sys2Proof.Machine.execKcv h s
  | .ff1 h => Sys2Proof.Machine.execFf1 h s
  | .lensBlockRelease c good => Sys2Proof.Machine.execLensBlockRelease c good s
  | .lensSelfTest p lens good => Sys2Proof.Machine.execLensSelfTest p lens good s
  | .cycleBudgetExhausted c => Sys2Proof.Machine.execCycleBudgetExhausted c s
  | .facetHang p => Sys2Proof.Machine.execFacetHang p s
  | .cvuSelfTest which pass => Sys2Proof.Machine.execCvuSelfTest which pass s
  | .facetDrained p => Sys2Proof.Machine.execFacetDrained p s
  | .substitution => Sys2Proof.Machine.execSubstitution s
  | .spareTested pass => Sys2Proof.Machine.execSpareTested pass s
  | .ageingMeasurement ratios => Sys2Proof.Machine.execAgeingMeasurement ratios s
  | .keyGenerate w => Sys2Proof.Machine.execKeyGenerate w s
  | .keyImport w => Sys2Proof.Machine.execKeyImport w s
  | .keyImportWorking w => Sys2Proof.Machine.execKeyImportWorking w s
  | .keyExport w => Sys2Proof.Machine.execKeyExport w s
  | .keyActivate w => Sys2Proof.Machine.execKeyActivate w s
  | .keySchedule w => Sys2Proof.Machine.execKeySchedule w s
  | .keyCancel w => Sys2Proof.Machine.execKeyCancel w s
  | .keySetLimit w => Sys2Proof.Machine.execKeySetLimit w s
  | .keyDestroy w => Sys2Proof.Machine.execKeyDestroy w s
  | .compOpen w => Sys2Proof.Machine.execCompOpen w s
  | .compAdd w => Sys2Proof.Machine.execCompAdd w s
  | .compCombine w => Sys2Proof.Machine.execCompCombine w s
  | .quorumOpen w => Sys2Proof.Machine.execQuorumOpen w s
  | .custEnrol w => Sys2Proof.Machine.execCustEnrol w s
  | .custRemove w => Sys2Proof.Machine.execCustRemove w s
  | .quorumPolicy w => Sys2Proof.Machine.execQuorumPolicy w s
  | .ownerErase w => Sys2Proof.Machine.execOwnerErase w s
  | .deviceErase w => Sys2Proof.Machine.execDeviceErase w s
  | .encipher w => Sys2Proof.Machine.execEncipher w s
  | .decipher w => Sys2Proof.Machine.execDecipher w s
  | .translate w => Sys2Proof.Machine.execTranslate w s
  | .v1EncipherEcb w => Sys2Proof.Machine.execV1EncipherEcb w s
  | .v1EncipherCbc w => Sys2Proof.Machine.execV1EncipherCbc w s
  | .v1EncipherCtr w => Sys2Proof.Machine.execV1EncipherCtr w s
  | .v1DecipherEcb w => Sys2Proof.Machine.execV1DecipherEcb w s
  | .v1DecipherCbc w => Sys2Proof.Machine.execV1DecipherCbc w s
  | .v1DecipherCtr w => Sys2Proof.Machine.execV1DecipherCtr w s
  | .macGenerate w => Sys2Proof.Machine.execMacGenerate w s
  | .macVerify w => Sys2Proof.Machine.execMacVerify w s
  | .pinTranslate w => Sys2Proof.Machine.execPinTranslate w s
  | .pinVerifyOffset w => Sys2Proof.Machine.execPinVerifyOffset w s
  | .pinVerifyPvv w => Sys2Proof.Machine.execPinVerifyPvv w s
  | .pinGenerate w => Sys2Proof.Machine.execPinGenerate w s
  | .pinOffsetGenerate w => Sys2Proof.Machine.execPinOffsetGenerate w s
  | .acVerify w => Sys2Proof.Machine.execAcVerify w s
  | .acRespond w => Sys2Proof.Machine.execAcRespond w s
  | .acVerifyRespond w => Sys2Proof.Machine.execAcVerifyRespond w s
  | .cvcVerify w => Sys2Proof.Machine.execCvcVerify w s
  | .cvcGenerate w => Sys2Proof.Machine.execCvcGenerate w s
  | .derivedEncipher w => Sys2Proof.Machine.execDerivedEncipher w s
  | .derivedDecipher w => Sys2Proof.Machine.execDerivedDecipher w s
  | .derivedMacGenerate w => Sys2Proof.Machine.execDerivedMacGenerate w s
  | .derivedMacVerify w => Sys2Proof.Machine.execDerivedMacVerify w s
  | .dukptPinTranslate w => Sys2Proof.Machine.execDukptPinTranslate w s
  | .dukptMacVerify w => Sys2Proof.Machine.execDukptMacVerify w s
  | .dukptDecipher w => Sys2Proof.Machine.execDukptDecipher w s
  | .sign w => Sys2Proof.Machine.execSign w s
  | .verify w => Sys2Proof.Machine.execVerify w s
  | .keyAgree w => Sys2Proof.Machine.execKeyAgree w s
  | .kemDecapsulate w => Sys2Proof.Machine.execKemDecapsulate w s
  | .kemEncapsulate w => Sys2Proof.Machine.execKemEncapsulate w s
  | .pubkeyExport w => Sys2Proof.Machine.execPubkeyExport w s
  | .random w => Sys2Proof.Machine.execRandom w s
  | .acVerifyPinTranslate w => Sys2Proof.Machine.execAcVerifyPinTranslate w s
  | .dukptPinTranslateMacVerify w => Sys2Proof.Machine.execDukptPinTranslateMacVerify w s
  | .acVerifyPinVerify w => Sys2Proof.Machine.execAcVerifyPinVerify w s
  | .saInstall w => Sys2Proof.Machine.execSaInstall w s
  | .saEpochKey w => Sys2Proof.Machine.execSaEpochKey w s
  | .saWithdraw w => Sys2Proof.Machine.execSaWithdraw w s
  | .saStats w => Sys2Proof.Machine.execSaStats w s
  | .focusAdd w => Sys2Proof.Machine.execFocusAdd w s
  | .focusCancel w => Sys2Proof.Machine.execFocusCancel w s
  | .timeRead w => Sys2Proof.Machine.execTimeRead w s
  | .focusRead w => Sys2Proof.Machine.execFocusRead w s
  | .ownerSet w => Sys2Proof.Machine.execOwnerSet w s
  | .ownerReset w => Sys2Proof.Machine.execOwnerReset w s
  | .ownerFreeze w => Sys2Proof.Machine.execOwnerFreeze w s
  | .ownerSave w => Sys2Proof.Machine.execOwnerSave w s
  | .ownerRestore w => Sys2Proof.Machine.execOwnerRestore w s
  | .ownerThaw w => Sys2Proof.Machine.execOwnerThaw w s
  | .programInstall w => Sys2Proof.Machine.execProgramInstall w s
  | .programRemove w => Sys2Proof.Machine.execProgramRemove w s
  | .roleSet w => Sys2Proof.Machine.execRoleSet w s
  | .queryVersion w => Sys2Proof.Machine.execQueryVersion w s
  | .keyInfo w => Sys2Proof.Machine.execKeyInfo w s
  | .keyList w => Sys2Proof.Machine.execKeyList w s
  | .ownerInfo w => Sys2Proof.Machine.execOwnerInfo w s
  | .deviceInfo w => Sys2Proof.Machine.execDeviceInfo w s
  | .ownerEntryCommand w op => Sys2Proof.Machine.execOwnerEntryCommand w op s
  | .sqTailDoorbell a c v => Sys2Proof.Machine.execSqTailDoorbell a c v s
  | .cqHeadDoorbell a c v => Sys2Proof.Machine.execCqHeadDoorbell a c v s
  | .qpEnable a c v => Sys2Proof.Machine.execQpEnable a c v s
  | .qpDisable a c v => Sys2Proof.Machine.execQpDisable a c v s
  | .sqEntryRead c entry => Sys2Proof.Machine.execSqEntryRead c entry s
  | .tokenRefill => Sys2Proof.Machine.execTokenRefill s
  | .acceptanceConditionMet i_ => Sys2Proof.Machine.execAcceptanceConditionMet i_ s
  | .commandDispatch p input => Sys2Proof.Machine.execCommandDispatch p input s
  | .completionConditionMet i_ => Sys2Proof.Machine.execCompletionConditionMet i_ s
  | .completionPost c => Sys2Proof.Machine.execCompletionPost c s
  | .releaseMarkWrite c => Sys2Proof.Machine.execReleaseMarkWrite c s
  | .releaseDurable c => Sys2Proof.Machine.execReleaseDurable c s
  | .commandResume p => Sys2Proof.Machine.execCommandResume p s
  | .huxelUnitDispatch a => Sys2Proof.Machine.execHuxelUnitDispatch a s
  | .huxelUnitEnd a invariantOk seedOk passed => Sys2Proof.Machine.execHuxelUnitEnd a invariantOk seedOk passed s
  | .huxelZeroingEnd a => Sys2Proof.Machine.execHuxelZeroingEnd a s
  | .hxOfflineReq a n => Sys2Proof.Machine.execHxOfflineReq a n s
  | .unsealFillComplete space index crcOk => Sys2Proof.Machine.execUnsealFillComplete space index crcOk s
  | .leaseMarkCommit space hd => Sys2Proof.Machine.execLeaseMarkCommit space hd s
  | .pageReseal page => Sys2Proof.Machine.execPageReseal page s
  | .exportEntryWrite => Sys2Proof.Machine.execExportEntryWrite s
  | .exportAck a v => Sys2Proof.Machine.execExportAck a v s
  | .exportStall => Sys2Proof.Machine.execExportStall s
  | .treeBatchCommit => Sys2Proof.Machine.execTreeBatchCommit s
  | .destroyWipe space index => Sys2Proof.Machine.execDestroyWipe space index s
  | .importEntry slot => Sys2Proof.Machine.execImportEntry slot s
  | .reloadEnd a => Sys2Proof.Machine.execReloadEnd a s
  | .scrubWordRead addr bad rewritten prog => Sys2Proof.Machine.execScrubWordRead addr bad rewritten prog s
  | .scrubPassEnd finished => Sys2Proof.Machine.execScrubPassEnd finished s
  | .uncorrectableWord addr prog => Sys2Proof.Machine.execUncorrectableWord addr prog s
  | .recordRestore space index => Sys2Proof.Machine.execRecordRestore space index s
  | .mramRewrite => Sys2Proof.Machine.execMramRewrite s
  | .compSessionExpiry => Sys2Proof.Machine.execCompSessionExpiry s
  | .frameReceive port sub stamp octets fcsOk overflow => Sys2Proof.Machine.execFrameReceive port sub stamp octets fcsOk overflow s
  | .contextFillComplete flow => Sys2Proof.Machine.execContextFillComplete flow s
  | .frameDispatch => Sys2Proof.Machine.execFrameDispatch s
  | .frameRelease flow => Sys2Proof.Machine.execFrameRelease flow s
  | .pnMarkWrite flow slot => Sys2Proof.Machine.execPnMarkWrite flow slot s
  | .lagEpisodeStart p => Sys2Proof.Machine.execLagEpisodeStart p s
  | .lagEpisodeEnd p => Sys2Proof.Machine.execLagEpisodeEnd p s
  | .streamFacetHang p => Sys2Proof.Machine.execStreamFacetHang p s
  | .epochOverlapEnd => Sys2Proof.Machine.execEpochOverlapEnd s
  | .focusKeyActivate e => Sys2Proof.Machine.execFocusKeyActivate e s
  | .epochSwitch e => Sys2Proof.Machine.execEpochSwitch e s
  | .batchCut e => Sys2Proof.Machine.execBatchCut e s
  | .roleChange e => Sys2Proof.Machine.execRoleChange e s
  | .programSwap e => Sys2Proof.Machine.execProgramSwap e s
  | .rateChange e => Sys2Proof.Machine.execRateChange e s
  | .focusAddingTimeout e => Sys2Proof.Machine.execFocusAddingTimeout e s
  | .focusEntryFree e => Sys2Proof.Machine.execFocusEntryFree e s
  | .ptpMessage port sub transport domain src m => Sys2Proof.Machine.execPtpMessage port sub transport domain src m s
  | .ppsEdge stamp => Sys2Proof.Machine.execPpsEdge stamp s
  | .todMessage stamp octets => Sys2Proof.Machine.execTodMessage stamp octets s
  | .sampleTimeout => Sys2Proof.Machine.execSampleTimeout s
  | .ppsOutPulse => Sys2Proof.Machine.execPpsOutPulse s
  | .timeFloorWrite => Sys2Proof.Machine.execTimeFloorWrite s
  | .timeSourceWrite a v => Sys2Proof.Machine.execTimeSourceWrite a v s
  | .sourceTestFailure n apt => Sys2Proof.Machine.execSourceTestFailure n apt s
  | .startupTestEnd n pass apt => Sys2Proof.Machine.execStartupTestEnd n pass apt s
  | .sourceRetest n => Sys2Proof.Machine.execSourceRetest n s
  | .conditionerBlockClose c chunks => Sys2Proof.Machine.execConditionerBlockClose c chunks s
  | .entropyRequest consumer bits => Sys2Proof.Machine.execEntropyRequest consumer bits s
  | .cvuStart a => Sys2Proof.Machine.execCvuStart a s
  | .cvuDataWrite a v => Sys2Proof.Machine.execCvuDataWrite a v s
  | .alignmentMarker port lane pos m => Sys2Proof.Machine.execAlignmentMarker port lane pos m s
  | .timeBlock b => Sys2Proof.Machine.execTimeBlock b s
  | .ringLinkUp port serial cert digest secrets => Sys2Proof.Machine.execRingLinkUp port serial cert digest secrets s
  | .ringLinkDown port => Sys2Proof.Machine.execRingLinkDown port s
  | .linkRekey port at_ => Sys2Proof.Machine.execLinkRekey port at_ s
  | .linkAckSend port => Sys2Proof.Machine.execLinkAckSend port s
  | .linkAck h acked rekey => Sys2Proof.Machine.execLinkAck h acked rekey s
  | .linkNak h first => Sys2Proof.Machine.execLinkNak h first s
  | .mirror h home n kind key data => Sys2Proof.Machine.execMirror h home n kind key data s
  | .mirrorAck h n => Sys2Proof.Machine.execMirrorAck h n s
  | .leaseReqTimer => Sys2Proof.Machine.execLeaseReqTimer s
  | .leaseReq h => Sys2Proof.Machine.execLeaseReq h s
  | .leaseGrant h count => Sys2Proof.Machine.execLeaseGrant h count s
  | .leaseEnd => Sys2Proof.Machine.execLeaseEnd s
  | .grantedLeaseExpiry => Sys2Proof.Machine.execGrantedLeaseExpiry s
  | .takeoverResealDone home => Sys2Proof.Machine.execTakeoverResealDone home s
  | .holderLost h home => Sys2Proof.Machine.execHolderLost h home s
  | .holderPortTimeout => Sys2Proof.Machine.execHolderPortTimeout s
  | .takeover h taker node owners => Sys2Proof.Machine.execTakeover h taker node owners s
  | .join h m => Sys2Proof.Machine.execJoin h m s
  | .members h order members ver cmds homes => Sys2Proof.Machine.execMembers h order members ver cmds homes s
  | .copyData h home epoch kind key data => Sys2Proof.Machine.execCopyData h home epoch kind key data s
  | .copySeal h home epoch n digest => Sys2Proof.Machine.execCopySeal h home epoch n digest s
  | .copySealAck h epoch => Sys2Proof.Machine.execCopySealAck h epoch s
  | .copyAbort h epoch digestFail => Sys2Proof.Machine.execCopyAbort h epoch digestFail s
  | .copyLinkTimeout => Sys2Proof.Machine.execCopyLinkTimeout s
  | .copyRetryTimer => Sys2Proof.Machine.execCopyRetryTimer s
  | .focus h m => Sys2Proof.Machine.execFocus h m s
  | .recordReq h space index => Sys2Proof.Machine.execRecordReq h space index s
  | .recordData h space index data => Sys2Proof.Machine.execRecordData h space index data s
  | .passMirrorInserted => Sys2Proof.Machine.execPassMirrorInserted s
  | .passMirrorPassed => Sys2Proof.Machine.execPassMirrorPassed s
  | .passMirrorTimeout => Sys2Proof.Machine.execPassMirrorTimeout s
  | .ringEnableWrite a v => Sys2Proof.Machine.execRingEnableWrite a v s
  | .forceOpen a => Sys2Proof.Machine.execForceOpen a s
  | .ownerResetComplete o => Sys2Proof.Machine.execOwnerResetComplete o s
  | .freezeDrained o => Sys2Proof.Machine.execFreezeDrained o s
  | .restorePagesLive o => Sys2Proof.Machine.execRestorePagesLive o s
  | .numvfsWrite port n => Sys2Proof.Machine.execNumvfsWrite port n s
  | .functionLevelReset f => Sys2Proof.Machine.execFunctionLevelReset f s
  | .portHotReset port => Sys2Proof.Machine.execPortHotReset port s
  | .spdmRequest port periscope m => Sys2Proof.Machine.execSpdmRequest port periscope m s
  | .ideKm port m => Sys2Proof.Machine.execIdeKm port m s
  | .lockInterface port vf stream => Sys2Proof.Machine.execLockInterface port vf stream s
  | .stopInterface port vf => Sys2Proof.Machine.execStopInterface port vf s
  | .aptBarWrite a units => Sys2Proof.Machine.execAptBarWrite a units s
  | .aptBarRead a => Sys2Proof.Machine.execAptBarRead a s
  | .aptLockWrite a u mask => Sys2Proof.Machine.execAptLockWrite a u mask s
  | .arbHoldCut a now arrivals => Sys2Proof.Machine.execArbHoldCut a now arrivals s
  | .arbBurstEnd a now arrivals => Sys2Proof.Machine.execArbBurstEnd a now arrivals s
  | .arbSaturation a master arrivals => Sys2Proof.Machine.execArbSaturation a master arrivals s
  | .holdoffExpiry g => Sys2Proof.Machine.execHoldoffExpiry g s
  | .evrClaimRead a t => Sys2Proof.Machine.execEvrClaimRead a t s
  | .evrCompleteWrite a t src => Sys2Proof.Machine.execEvrCompleteWrite a t src s
  | .prigroupWrite a v => Sys2Proof.Machine.execPrigroupWrite a v s
  | .prioEnable a => Sys2Proof.Machine.execPrioEnable a s
  | .prioDisable a => Sys2Proof.Machine.execPrioDisable a s
  | .prioTableCheck parityError => Sys2Proof.Machine.execPrioTableCheck parityError s
  | .evrSwsetWrite a mask => Sys2Proof.Machine.execEvrSwsetWrite a mask s
  | .targetUnavailable t => Sys2Proof.Machine.execTargetUnavailable t s
  | .eventFlushTimer => Sys2Proof.Machine.execEventFlushTimer s
  | .logFlush a => Sys2Proof.Machine.execLogFlush a s
  | .logSelect a hi => Sys2Proof.Machine.execLogSelect a hi s
  | .lcCmdGo a v => Sys2Proof.Machine.execLcCmdGo a v s
  | .lcProgrammingComplete ok => Sys2Proof.Machine.execLcProgrammingComplete ok s
  | .tamperAlarm n => Sys2Proof.Machine.execTamperAlarm n s
  | .tamperAlarmClear n => Sys2Proof.Machine.execTamperAlarmClear n s
  | .unpoweredTamperEpisode n => Sys2Proof.Machine.execUnpoweredTamperEpisode n s
  | .cellLow k => Sys2Proof.Machine.execCellLow k s
  | .loupeExtest pads drive => Sys2Proof.Machine.execLoupeExtest pads drive s
  | .loupeIdcode => Sys2Proof.Machine.execLoupeIdcode s
  | .loupeSamplePreload pads drive => Sys2Proof.Machine.execLoupeSamplePreload pads drive s
  | .loupeClamp pads drive => Sys2Proof.Machine.execLoupeClamp pads drive s
  | .loupeHighz => Sys2Proof.Machine.execLoupeHighz s
  | .loupeLcRead => Sys2Proof.Machine.execLoupeLcRead s
  | .loupeLcXfer target token => Sys2Proof.Machine.execLoupeLcXfer target token s
  | .loupeDbgChal => Sys2Proof.Machine.execLoupeDbgChal s
  | .loupeDbgCert cert => Sys2Proof.Machine.execLoupeDbgCert cert s
  | .loupeDbgAccess t write data => Sys2Proof.Machine.execLoupeDbgAccess t write data s
  | .loupeDbgCtrl unit op sel => Sys2Proof.Machine.execLoupeDbgCtrl unit op sel s
  | .loupeBypass => Sys2Proof.Machine.execLoupeBypass s
  | .pReset mirrorPass => Sys2Proof.Machine.execPReset mirrorPass s
  | .sReset mirrorPass => Sys2Proof.Machine.execSReset mirrorPass s
  | .cReset digestOk => Sys2Proof.Machine.execCReset digestOk s
  | .pwrgoodLow => Sys2Proof.Machine.execPwrgoodLow s
  | .rstNAssert => Sys2Proof.Machine.execRstNAssert s
  | .supplyPor => Sys2Proof.Machine.execSupplyPor s
  | .perstAssert port => Sys2Proof.Machine.execPerstAssert port s
  | .watchdogExpiry => Sys2Proof.Machine.execWatchdogExpiry s
  | .criticalStateError row => Sys2Proof.Machine.execCriticalStateError row s
  | .softwareCReset a => Sys2Proof.Machine.execSoftwareCReset a s
  | .softwareSReset a => Sys2Proof.Machine.execSoftwareSReset a s
  | .softwarePReset a => Sys2Proof.Machine.execSoftwarePReset a s
  | .ringFencingReset => Sys2Proof.Machine.execRingFencingReset s
  | .pllLocked => Sys2Proof.Machine.execPllLocked s
  | .pllLockTimeout => Sys2Proof.Machine.execPllLockTimeout s
  | .pllLossOfLock => Sys2Proof.Machine.execPllLossOfLock s
  | .startStep1 bad => Sys2Proof.Machine.execStartStep1 bad s
  | .startStep3 hbmOk mramOk => Sys2Proof.Machine.execStartStep3 hbmOk mramOk s
  | .startStep4 image => Sys2Proof.Machine.execStartStep4 image s
  | .startStep5 treeOk => Sys2Proof.Machine.execStartStep5 treeOk s
  | .startStep6 late kat => Sys2Proof.Machine.execStartStep6 late kat s
  | .startStep7 floorBad => Sys2Proof.Machine.execStartStep7 floorBad s
  | .devBootGo a image => Sys2Proof.Machine.execDevBootGo a image s
  | .imageSourceTimeout => Sys2Proof.Machine.execImageSourceTimeout s
  | .powerFailTrigger vin => Sys2Proof.Machine.execPowerFailTrigger vin s
  | .powerFailEnd collapse => Sys2Proof.Machine.execPowerFailEnd collapse s
  | .vholdLow => Sys2Proof.Machine.execVholdLow s
  | .vauxRise => Sys2Proof.Machine.execVauxRise s
  | .vauxFall => Sys2Proof.Machine.execVauxFall s
  | .smbusTimeout => Sys2Proof.Machine.execSmbusTimeout s
  | .entdaa addr => Sys2Proof.Machine.execEntdaa addr s
  | .setdasa static dyn => Sys2Proof.Machine.execSetdasa static dyn s
  | .setnewda old new => Sys2Proof.Machine.execSetnewda old new s
  | .rstdaa => Sys2Proof.Machine.execRstdaa s
  | .enec target events => Sys2Proof.Machine.execEnec target events s
  | .disec target events => Sys2Proof.Machine.execDisec target events s
  | .getpid target => Sys2Proof.Machine.execGetpid target s
  | .getbcr target => Sys2Proof.Machine.execGetbcr target s
  | .getdcr target => Sys2Proof.Machine.execGetdcr target s
  | .getstatus target => Sys2Proof.Machine.execGetstatus target s
  | .getmrl target => Sys2Proof.Machine.execGetmrl target s
  | .setmrl target n => Sys2Proof.Machine.execSetmrl target n s
  | .setEndpointId h op eid => Sys2Proof.Machine.execSetEndpointId h op eid s
  | .getEndpointId h => Sys2Proof.Machine.execGetEndpointId h s
  | .getEndpointUuid h => Sys2Proof.Machine.execGetEndpointUuid h s
  | .getMctpVersionSupport h sel => Sys2Proof.Machine.execGetMctpVersionSupport h sel s
  | .getMessageTypeSupport h => Sys2Proof.Machine.execGetMessageTypeSupport h s
  | .getVendorMessageSupport h sel => Sys2Proof.Machine.execGetVendorMessageSupport h sel s
  | .pldmMessage h typ cmd inst sensor data => Sys2Proof.Machine.execPldmMessage h typ cmd inst sensor data s
  | .pldmSensorEvent sensor => Sys2Proof.Machine.execPldmSensorEvent sensor s
  | .pscVersion h => Sys2Proof.Machine.execPscVersion h s
  | .pscStatus h => Sys2Proof.Machine.execPscStatus h s
  | .logRead h seq count => Sys2Proof.Machine.execLogRead h seq count s
  | .regionRead h region zeros off len => Sys2Proof.Machine.execRegionRead h region zeros off len s
  | .pscReset h level => Sys2Proof.Machine.execPscReset h level s
  | .lcTransition h target zeros token => Sys2Proof.Machine.execLcTransition h target zeros token s
  | .dbgChallenge h => Sys2Proof.Machine.execDbgChallenge h s
  | .pscDbgCert h off final zeros data => Sys2Proof.Machine.execPscDbgCert h off final zeros data s
  | .imageChunk h off final zeros data => Sys2Proof.Machine.execImageChunk h off final zeros data s
  | .alertAck h src => Sys2Proof.Machine.execAlertAck h src s
  | .alertCfg h v => Sys2Proof.Machine.execAlertCfg h v s
  | .pscAlertOffer lost => Sys2Proof.Machine.execPscAlertOffer lost s
  | .alertResponseRead => Sys2Proof.Machine.execAlertResponseRead s
  | .mainRailAlert lost => Sys2Proof.Machine.execMainRailAlert lost s
  | .fctPerfClear a p => Sys2Proof.Machine.execFctPerfClear a p s
  | .latchingLoRead a r len => Sys2Proof.Machine.execLatchingLoRead a r len s
  | .latchedHiRead a r len => Sys2Proof.Machine.execLatchedHiRead a r len s
  | .rcRead a r len => Sys2Proof.Machine.execRcRead a r len s
  | .registerWrite a r len v => Sys2Proof.Machine.execRegisterWrite a r len v s
  | .pwrgoodRise straps => Sys2Proof.Machine.execPwrgoodRise straps s
  | .managementTick => Sys2Proof.Machine.execManagementTick s
  | .timeFloorPassed => Sys2Proof.Machine.execTimeFloorPassed s
  | .streamLinkChange port sub up => Sys2Proof.Machine.execStreamLinkChange port sub up s
  | .frameTransmit port sub => Sys2Proof.Machine.execFrameTransmit port sub s
  | .hostLinkUp port => Sys2Proof.Machine.execHostLinkUp port s
  | .hostDmaComplete c ok data => Sys2Proof.Machine.execHostDmaComplete c ok data s
  | .pscNotifyRetry lost => Sys2Proof.Machine.execPscNotifyRetry lost s

end Sys2Proof.Machine
end

