-- ==== Sys2Proof/Safety.lean ====
section
/-! DEFINITION. Safety.lean: the terms in which claims are stated: when a facet may issue, what an issued instruction starts
from, and what two states have in common. -/

namespace Sys2Proof.Machine

open Sys2Proof

/-! ## Facets -/

/-- The facet issues this instruction: it is not halted by debug, the instruction is not discarded behind a taken branch, no
register it names and no host transfer is waited for, its line was fetched without a parity error, and no other cause ends the work
in its cycle (02 R24, R36; 03 R56, R58; 17 R428; 20 R482). -/
structure Ready (h : Slot) (regs : List Nat) (s : State) : Prop where
  runs : (s.facet h.p.val).halt = 0
  power : s.domainOn h.p.val = true
  kept : (s.facet h.p.val).squash = false
  free : stalls (s.facet h.p.val) regs = false
  parity : h.parity = false
  alone : h.also = []

/-- The state in which an issued instruction has its effect: the program counter has moved on and the performance counters
have counted it. -/
def fetched (h : Slot) (s : State) : State :=
  (perf (perf s h.p.val 2 1) h.p.val 3 (b2n h.paired)).modFacet h.p.val (fun f => { f with pc := f.pc + 1 })

/-- The same with every block in flight released: where an instruction on block registers has its effect (02 R30, R78). -/
def settled (h : Slot) (s : State) : State := settleLens h.ecc (fetched h s) h.p.val

/-- The work survives the release of the blocks in flight, and no running sequencer slot waits for an LDK (02 R38). -/
def Survives (h : Slot) (s : State) : Prop := seqHeld (s.facet h.p.val) = false ∧ ((settled h s).facet h.p.val).pc ≠ 0

/-- In state `u` the command `i` given in `s` loads `n` bytes at `a` and goes on with `k`: from the facet's own memory when the
map of 03 Table 03.1 places them there and the data SRAM's code word is readable (02 R25), and from a shared memory when
the aperture unit admits the access (15 R384) and no word is marked (04 Table 04.15), after some of the facets' stores have become visible (03 R74). -/
def Loads (h : Slot) (i : Instr) (s u : State) (a n : Nat) (k : Bytes → State → State) : Prop :=
  let p := h.p.val
  (place (inner u p) false a n = .loc → (sramEcc h.ecc p u a).1 = true →
    exec i s = .next (k (locRead ((sramEcc h.ecc p u a).2.facet p) a n) (sramEcc h.ecc p u a).2)) ∧
  (∀ un d, place (inner u p) false a n = .glob un d → (aptCause u un d n p (inner u p) false false).1 = 0 → u.markAt a n = false →
    exec i s = .next (k (globRead (visible u) p a n) (visible u)))

/-- In state `u` the command `i` given in `s` stores `data` at `a`: into the facet's own memory, or as the newest entry of its
store buffer (03 R74). -/
def Stores (h : Slot) (i : Instr) (s u : State) (a : Nat) (data : Bytes) : Prop :=
  let p := h.p.val
  (place (inner u p) true a data.length = .loc → (sramEcc h.ecc p u a).1 = true →
    exec i s = .next ((sramEcc h.ecc p u a).2.modFacet p (fun f => locWrite f a data))) ∧
  (∀ un d, place (inner u p) true a data.length = .glob un d → (aptCause u un d data.length p (inner u p) true false).1 = 0 →
    exec i s = .next ((visible (u.markClear a data.length)).modFacet p (fun f => { f with sb := f.sb ++ [.store a data] })))

/-! ## Commands of the queue pairs -/

/-- A command runs its own meaning: no change is recorded under its work tag, it does not wait already, no earlier command on its keys is due, and its operation and
layout are defined (05 R126, 06 R159, 07 Table 07.2 check 1). -/
structure Runs (op : Nat) (w : Work) (s : State) : Prop where
  fresh : s.changeOf w.o w.t = none
  idle : waitsAlready s w = false
  turn : inTurn s op w = true
  opcode : opDefined w.ver.toNat op = true
  layout : verOk s w.ver.toNat = true

/-- The command loads the key of handle `h` under a use code: it passes a pipeline where it is not cached, the checks of 02 Table 02.5 find record `k`, and one use is
consumed, which leaves `t`. -/
def LoadsKey (s : State) (w : Work) (h : Word) (use : Nat) (inner : Bool) (k : KeyRec) (t : State) : Prop :=
  let s := pipeIn s (kidx s w.o h.toNat)
  keyCheck s w.o inner w.acc h.toNat use = (sOk, k) ∧
    consume (countLoad s w h.toNat) (.cmd w.o w.t) (if k.owner = w.o then kidx (countLoad s w h.toNat) w.o h.toNat else hIdx h.toNat) = some t

/-- A creation takes a slot of the key store: the record's index, and the state that holds it. The command completes with its
result when the page is durable (05 R125). -/
def Creates (i : Instr) (s0 s : State) (w : Work) (n : NewKey) (more : Bytes) : Prop :=
  ∀ j t, createRec s n = some (j, t) → exec i s0 = .next (endDurable t w (pageOf j) (createResult w (t.krec j) ++ more))

/-! ## Focus actions -/

/-- The instant of entry `e`, an ARMED one with contents `x`, arrives: it is the first of the table and Prolith time runs and is
past the floor (10 R291 to R295). -/
structure Arrives (s : State) (e typ : Nat) (x : FEntry) : Prop where
  entry : s.fentry e = some x
  armed : x.st = fArmed
  kind : x.typ = typ
  first : firstAction s = some e
  runs : s.foc.runs = true
  floor : s.foc.floor < max s.now x.instant

/-! ## Facet instructions -/

/-- The slot of an instruction that a facet issues; none for any other command. -/
def slotOf (i : Instr) : Option Slot :=
  match i with
  | .add h _ _ _ => some h
  | .sub h _ _ _ => some h
  | .addc h _ _ _ => some h
  | .subb h _ _ _ => some h
  | .and h _ _ _ => some h
  | .or h _ _ _ => some h
  | .xor h _ _ _ => some h
  | .shl h _ _ _ => some h
  | .shr h _ _ _ => some h
  | .sar h _ _ _ => some h
  | .slt h _ _ _ => some h
  | .sltu h _ _ _ => some h
  | .mul h _ _ _ => some h
  | .mulh h _ _ _ => some h
  | .jr h _ => some h
  | .addi h _ _ _ => some h
  | .andi h _ _ _ => some h
  | .ori h _ _ _ => some h
  | .xori h _ _ _ => some h
  | .slti h _ _ _ => some h
  | .lui h _ _ => some h
  | .beq h _ _ _ => some h
  | .bne h _ _ _ => some h
  | .blt h _ _ _ => some h
  | .bge h _ _ _ => some h
  | .j h _ => some h
  | .ldb h _ _ _ => some h
  | .ldh h _ _ _ => some h
  | .ldw h _ _ _ => some h
  | .ldd h _ _ _ => some h
  | .stb h _ _ _ => some h
  | .sth h _ _ _ => some h
  | .stw h _ _ _ => some h
  | .std h _ _ _ => some h
  | .vld h _ _ _ => some h
  | .vst h _ _ _ => some h
  | .bld h _ _ _ => some h
  | .bst h _ _ _ => some h
  | .amoswap h _ _ _ => some h
  | .amoadd h _ _ _ => some h
  | .amocas h _ _ _ => some h
  | .fenceSl h => some h
  | .fenceSs h => some h
  | .fenceFull h => some h
  | .vxor h _ _ _ => some h
  | .vand h _ _ _ => some h
  | .vadd h _ _ _ => some h
  | .vperm h _ _ _ => some h
  | .vmovg h _ _ _ => some h
  | .lens h _ _ _ _ _ _ _ => some h
  | .hset h => some h
  | .bxor h _ _ _ => some h
  | .band h _ _ _ => some h
  | .bshl h _ _ _ => some h
  | .bshr h _ _ _ => some h
  | .bmovb h _ _ _ _ => some h
  | .bmovn h _ _ _ _ => some h
  | .bctr h _ _ _ => some h
  | .bmulx h _ _ _ => some h
  | .bcmp h _ _ => some h
  | .bins h _ _ _ => some h
  | .bext h _ _ _ => some h
  | .pext h _ _ _ => some h
  | .pins h _ _ _ => some h
  | .pchk h _ _ => some h
  | .ppan h _ _ _ => some h
  | .gmul h _ _ _ => some h
  | .ghash h _ => some h
  | .tag h _ _ => some h
  | .seqld h _ _ _ => some h
  | .seqgo h _ _ _ => some h
  | .seqwait h _ => some h
  | .ldk h _ _ _ => some h
  | .kset h _ _ => some h
  | .kvar h _ => some h
  | .kcommit h _ _ => some h
  | .hinit h _ _ => some h
  | .hupd h _ => some h
  | .hfin h _ => some h
  | .hsave h _ => some h
  | .hrest h _ => some h
  | .cvinit h _ _ => some h
  | .cvupd h _ _ => some h
  | .cvfin h _ => some h
  | .fld h _ _ => some h
  | .fst h _ _ => some h
  | .fdone h => some h
  | .cmdin h _ _ _ _ => some h
  | .cmdout h _ _ _ _ => some h
  | .done h => some h
  | .wcall h _ => some h
  | .wret h => some h
  | .ecall h _ => some h
  | .eret h => some h
  | .rngld h _ => some h
  | .gateKeyInfo h => some h
  | .gateOwnerInfo h => some h
  | .auditNote h => some h
  | .kcv h => some h
  | .ff1 h => some h
  | _ => none

/-- The slot of an instruction of integer arithmetic, a branch or a jump (03 Table 03.3 majors 0x00 to 0x0C). -/
def integerSlot (i : Instr) : Option Slot :=
  match i with
  | .add h _ _ _ => some h
  | .sub h _ _ _ => some h
  | .addc h _ _ _ => some h
  | .subb h _ _ _ => some h
  | .and h _ _ _ => some h
  | .or h _ _ _ => some h
  | .xor h _ _ _ => some h
  | .shl h _ _ _ => some h
  | .shr h _ _ _ => some h
  | .sar h _ _ _ => some h
  | .slt h _ _ _ => some h
  | .sltu h _ _ _ => some h
  | .mul h _ _ _ => some h
  | .mulh h _ _ _ => some h
  | .jr h _ => some h
  | .addi h _ _ _ => some h
  | .andi h _ _ _ => some h
  | .ori h _ _ _ => some h
  | .xori h _ _ _ => some h
  | .slti h _ _ _ => some h
  | .lui h _ _ => some h
  | .beq h _ _ _ => some h
  | .bne h _ _ _ => some h
  | .blt h _ _ _ => some h
  | .bge h _ _ _ => some h
  | .j h _ => some h
  | _ => none

/-! ## Secrets -/

/-- `s` with the key store, the formed keys, and every facet's registers as `x` has them: key material, and what stands in K, the
derivation buffer, H and the hash unit (02 R28). -/
def withKeys (s x : State) : State := { s with ks := x.ks, sec := x.sec, ownKeys := x.ownKeys, facets := x.facets }

/-- Two states agree on everything that 02 R28 lets an access read. Their facets may differ in K, the derivation buffer, H, the accumulator, the
hash unit, the blocks in flight and the values of sealed block registers. Their key stores may differ in every record and body, and agree on
what stands in device memory unsealed: the heap map, the page-version tree and the lease marks (04 R93, R101). -/
structure SameOpen (s x : State) : Prop where
  facets : ∀ p,
    { x.facet p with
      k := (s.facet p).k, deriv := (s.facet p).deriv, hsub := (s.facet p).hsub, acc := (s.facet p).acc, hash := (s.facet p).hash
      lens := (s.facet p).lens, b := (s.facet p).b } = s.facet p ∧
    ∀ r, (getB x p r).sld = (getB s p r).sld ∧ ((getB s p r).sld = false → getB x p r = getB s p r)
  store : { x.ks with
    recs := s.ks.recs, bodies := s.ks.bodies, poison := s.ks.poison, cache := s.ks.cache, cacheTick := s.ks.cacheTick, fills := s.ks.fills
    leaseWait := s.ks.leaseWait, advance := s.ks.advance, toSeal := s.ks.toSeal, pendExp := s.ks.pendExp, ring := s.ks.ring
    expSeq := s.ks.expSeq, waits := s.ks.waits, wiping := s.ks.wiping, cand := s.ks.cand, bodyCand := s.ks.bodyCand, groups := s.ks.groups
    nearSeen := s.ks.nearSeen, asked := s.ks.asked, sets := s.ks.sets, await := s.ks.await } = s.ks

/-! ## The event router -/

/-- The commands of the event router and the event recorder (16). -/
def routerCommand (i : Instr) : Bool :=
  match i with
  | .holdoffExpiry _ => true
  | .evrClaimRead _ _ => true
  | .evrCompleteWrite _ _ _ => true
  | .prigroupWrite _ _ => true
  | .prioEnable _ => true
  | .prioDisable _ => true
  | .prioTableCheck _ => true
  | .evrSwsetWrite _ _ => true
  | .targetUnavailable _ => true
  | .eventFlushTimer => true
  | .logFlush _ => true
  | .logSelect _ _ => true
  | _ => false

/-- What holds of the router between commands (16 R404 to R406): assignments are canonical; a target is offered only a pending source that is
assigned to it; over a claimed source it is offered one only in priority mode, of a strictly higher group priority, while the
stack holds fewer than 8; and no stack holds more than 8. -/
structure RouterInv (s : State) : Prop where
  table : twf 0 s.evr.assigned = true
  offered : ∀ t n, t < 6 → tget 0 s.evr.offer t = n + 1 → s.evPending n = true ∧ tget 0 s.evr.assigned n = t + 1
  nested : ∀ t n top rest, t < 6 → tget 0 s.evr.offer t = n + 1 → s.evStack t = top :: rest →
    s.is F.EVR_CTRL_MODE = true ∧ s.evGroup n < s.evGroup top ∧ rest.length + 1 < 8
  depth : ∀ t, t < 6 → (s.evStack t).length ≤ 8

end Sys2Proof.Machine
end

