-- ==== Sys2Proof/Certificates/Slice0/Obligations.lean ====
section
/-! DEFINITION. Certificates/Slice0/Obligations.lean: the statements for the provers. -/

open Sys2Proof Sys2Proof.Machine

/-- Two-register arithmetic and logic of a facet write one general register. Rests on 03_facet_programs.md R55;
03_facet_programs.md Table 03.3; 02_facets_and_lenses.md Table 02.1. -/
def Obligations.FacetArithmeticCompletes : Prop :=
  ∀ (h : Slot) (d s1 s2 : GR) (s : State), Ready h [d.val, s1.val, s2.val] s →
    let a := getG s h.p s1
    let b := getG s h.p s2
    let u := fetched h s
    exec (.add h d s1 s2) s = .next (setG u h.p d (a + b)) ∧
    exec (.sub h d s1 s2) s = .next (setG u h.p d (a - b)) ∧
    exec (.and h d s1 s2) s = .next (setG u h.p d (a &&& b)) ∧
    exec (.or h d s1 s2) s = .next (setG u h.p d (a ||| b)) ∧
    exec (.xor h d s1 s2) s = .next (setG u h.p d (a ^^^ b)) ∧
    exec (.slt h d s1 s2) s = .next (setG u h.p d (if a.toInt < b.toInt then 1 else 0)) ∧
    exec (.sltu h d s1 s2) s = .next (setG u h.p d (if a.toNat < b.toNat then 1 else 0)) ∧
    exec (.mul h d s1 s2) s = .next (setG u h.p d (a * b)) ∧
    exec (.mulh h d s1 s2) s = .next (setG u h.p d (mulHi a b))

/-- Carry chains, shifts and immediate arithmetic of a facet: result and flag C. Rests on 03_facet_programs.md R55;
03_facet_programs.md R56; 03_facet_programs.md Table 03.2; 03_facet_programs.md Table 03.3. -/
def Obligations.FacetCarryShiftAndImmediatesComplete : Prop :=
  (
    ∀ (h : Slot) (d s1 s2 : GR) (s : State), Ready h [d.val, s1.val, s2.val] s →
      let a := getG s h.p s1
      let b := getG s h.p s2
      let c := (s.facet h.p).c
      let u := fetched h s
      exec (.addc h d s1 s2) s = .next (setC (setG u h.p d (a + b + BitVec.ofNat 64 (b2n c))) h.p
        (decide (2 ^ 64 ≤ a.toNat + b.toNat + b2n c))) ∧
      exec (.subb h d s1 s2) s = .next (setC (setG u h.p d (a - b - BitVec.ofNat 64 (b2n c))) h.p
        (decide (a.toNat < b.toNat + b2n c))) ∧
      (∃ x, exec (.shl h d s1 s2) s = .next (setG u h.p d x) ∧ (b.toNat < 64 → x = a <<< b.toNat)) ∧
      (∃ x, exec (.shr h d s1 s2) s = .next (setG u h.p d x) ∧ (b.toNat < 64 → x = a >>> b.toNat)) ∧
      (∃ x, exec (.sar h d s1 s2) s = .next (setG u h.p d x) ∧ (b.toNat < 64 → x = a.sshiftRight b.toNat))) ∧
  (
    ∀ (h : Slot) (d s1 : GR) (imm : BitVec 16) (s : State),
      let a := getG s h.p s1
      let b := imm.signExtend 64
      let u := fetched h s;
      (Ready h [d.val, s1.val] s →
        exec (.addi h d s1 imm) s = .next (setG u h.p d (a + b)) ∧
        exec (.andi h d s1 imm) s = .next (setG u h.p d (a &&& b)) ∧
        exec (.ori h d s1 imm) s = .next (setG u h.p d (a ||| b)) ∧
        exec (.xori h d s1 imm) s = .next (setG u h.p d (a ^^^ b)) ∧
        exec (.slti h d s1 imm) s = .next (setG u h.p d (if a.toInt < b.toInt then 1 else 0))) ∧
      (Ready h [d.val] s → exec (.lui h d imm) s = .next (setG u h.p d (b <<< 16))))

/-- Branches and jumps of a facet set the program counter and discard the second of a pair. Rests on 03_facet_programs.md
R56; 03_facet_programs.md Table 03.2; 03_facet_programs.md Table 03.3. -/
def Obligations.FacetBranchesComplete : Prop :=
  ∀ (h : Slot) (s1 s2 : GR) (off : BitVec 16) (s : State),
    let a := getG s h.p s1
    let b := getG s h.p s2
    let u := fetched h s
    let taken := goTo h u (branchTarget ((s.facet h.p).pc + 1) off);
    (Ready h [s1.val, s2.val] s →
      exec (.beq h s1 s2 off) s = .next (if a = b then taken else u) ∧
      exec (.bne h s1 s2 off) s = .next (if a = b then u else taken) ∧
      (∃ lt : Bool, exec (.blt h s1 s2 off) s = .next (if lt then taken else u) ∧
        exec (.bge h s1 s2 off) s = .next (if lt then u else taken) ∧
        ((a.toInt < b.toInt ↔ a.toNat < b.toNat) → (lt = true ↔ a.toNat < b.toNat)))) ∧
    (Ready h [] s → exec (.j h off) s = .next taken) ∧
    (Ready h [s1.val] s → exec (.jr h s1) s = .next (goTo h u a.toNat))

/-- Loads and stores of a facet move exactly their bytes at base plus immediate. Rests on 03_facet_programs.md R53;
03_facet_programs.md R74; 03_facet_programs.md Table 03.1; 03_facet_programs.md Table 03.3; 02_facets_and_lenses.md R25;
02_facets_and_lenses.md R46. -/
def Obligations.FacetLoadsAndStoresComplete : Prop :=
  (
    ∃ ext : Nat → Nat → W64, (∀ n v, v < 2 ^ (8 * n - 1) → ext n v = BitVec.ofNat 64 v) ∧
    ∀ (h : Slot) (d s1 : GR) (v : VR) (b : BR) (imm : BitVec 16) (s : State),
      let u := fetched h s
      let a := (getG s h.p s1 + imm.signExtend 64).toNat;
      (Ready h [d.val, s1.val] s →
        Loads h (.ldb h d s1 imm) s u a 1 (fun x t => setG t h.p d (ext 1 (leNat x))) ∧
        Loads h (.ldh h d s1 imm) s u a 2 (fun x t => setG t h.p d (ext 2 (leNat x))) ∧
        Loads h (.ldw h d s1 imm) s u a 4 (fun x t => setG t h.p d (ext 4 (leNat x))) ∧
        Loads h (.ldd h d s1 imm) s u a 8 (fun x t => setG t h.p d (BitVec.ofNat 64 (leNat x)))) ∧
      (Ready h [s1.val] s →
        Loads h (.vld h v s1 imm) s u a 32 (fun x t => setV t h.p v (BitVec.ofNat 256 (leNat x))) ∧
        (Survives h s →
          Loads h (.bld h b s1 imm) s (settled h s) (effAddr (settled h s) h.p s1 imm) 16
            (fun x t => setB t h.p b ⟨blockOf x, false, false, false, false⟩)))) ∧
  (
    ∀ (h : Slot) (d s1 : GR) (v : VR) (b : BR) (imm : BitVec 16) (s : State),
      let u := fetched h s
      let w := settled h s
      let a := (getG s h.p s1 + imm.signExtend 64).toNat
      let x := (getG s h.p d).toNat;
      (Ready h [d.val, s1.val] s →
        Stores h (.stb h d s1 imm) s u a (leBytes 1 x) ∧
        Stores h (.sth h d s1 imm) s u a (leBytes 2 x) ∧
        Stores h (.stw h d s1 imm) s u a (leBytes 4 x) ∧
        Stores h (.std h d s1 imm) s u a (leBytes 8 x)) ∧
      (Ready h [s1.val] s →
        Stores h (.vst h v s1 imm) s u a (leBytes 32 (getV s h.p v).toNat) ∧
        (Survives h s → (getB w h.p b).sld = false →
          Stores h (.bst h b s1 imm) s w (effAddr w h.p s1 imm) (blockBytes (getB w h.p b).val))))

/-- Atomics exchange a shared doubleword in one step; fences drain or order the store buffer. Rests on 03_facet_programs.md
R55; 03_facet_programs.md R75; 03_facet_programs.md Table 03.3; 15_apertures_worlds_arbitration.md R384. -/
def Obligations.FacetAtomicsAndFencesComplete : Prop :=
  ∀ (h : Slot) (d s1 s2 : GR) (s : State),
    let p := h.p.val
    let u := fetched h s
    let a := (getG s p s1).toNat / 8 * 8
    let w := drainAll (visible u) p
    let w1 := drainAll u p
    let old := BitVec.ofNat 64 (leNat (memRead w.gmem a 8))
    let put := fun (x : W64) => { w with gmem := memWrite w.gmem a (leBytes 8 x.toNat) };
    (Ready h [d.val, s1.val, s2.val] s → ∀ un da, place (inner s p) false a 8 = .glob un da →
      place (inner s p) true a 8 = .glob un da → un ≠ 2 → un ≠ 3 → s.markAt a 8 = false → (aptCause s un da 8 p (inner s p) false false).1 = 0 →
      (aptCause s un da 8 p (inner s p) true false).1 = 0 →
      exec (.amoswap h d s1 s2) s = .next (setG (put (getG w p s2)) p d old) ∧
      exec (.amoadd h d s1 s2) s = .next (setG (put (old + getG w p s2)) p d old) ∧
      (old = getG w p d → exec (.amocas h d s1 s2) s =
        .next (setG { setEq w p true with gmem := memWrite w.gmem a (leBytes 8 (getG w p s2).toNat) } p d old)) ∧
      (old ≠ getG w p d → exec (.amocas h d s1 s2) s = .next (setG (setEq w p false) p d old))) ∧
    (Ready h [] s →
      exec (.fenceSl h) s = .next w1 ∧
      exec (.fenceFull h) s = .next w1 ∧
      ((s.facet p).sb = [] → exec (.fenceSs h) s = .next u) ∧
      ((s.facet p).sb ≠ [] → exec (.fenceSs h) s = .next (u.modFacet p (fun f => { f with sb := f.sb ++ [.barrier] }))))

/-- Vector instructions of a facet write one register from their sources alone. Rests on 03_facet_programs.md R55;
03_facet_programs.md Table 03.3; 02_facets_and_lenses.md Table 02.1. -/
def Obligations.FacetVectorsComplete : Prop :=
  ∃ (add perm : W256 → W256 → W256) (toV : W256 → W64 → W256) (toG : W256 → W64 → W64),
  ∀ (h : Slot) (d s1 s2 : VR) (g : GR) (s : State),
    let u := fetched h s
    let x := getV s h.p s1
    let y := getV s h.p s2;
    (Ready h [] s →
      exec (.vxor h d s1 s2) s = .next (setV u h.p d (x ^^^ y)) ∧
      exec (.vand h d s1 s2) s = .next (setV u h.p d (x &&& y)) ∧
      exec (.vadd h d s1 s2) s = .next (setV u h.p d (add x y)) ∧
      exec (.vperm h d s1 s2) s = .next (setV u h.p d (perm x y))) ∧
    (Ready h [g.val] s →
      exec (.vmovg h true d g) s = .next (setV u h.p d (toV (getV s h.p d) (getG s h.p g))) ∧
      exec (.vmovg h false d g) s = .next (setG u h.p g (toG (getV s h.p d) (getG s h.p g))))

/-- Operations on block registers: value, and a seal that spreads from every source. Rests on 02_facets_and_lenses.md R44;
02_facets_and_lenses.md R45; 02_facets_and_lenses.md R46; 03_facet_programs.md R55; 03_facet_programs.md R56;
03_facet_programs.md Table 03.3. -/
def Obligations.BlockRegisterOperationsComplete : Prop :=
  ∀ (h : Slot) (bd bs1 bs2 : BR) (n : Fin 128) (db sb : Fin 16) (dn sn : Fin 32) (v : BitVec 32) (g : GR) (s : State), Survives h s →
    let p := h.p.val
    let u := settled h s
    let x := getB u p bs1
    let y := getB u p bs2
    let z := getB u p bd;
    (Ready h [] s →
      exec (.bxor h bd bs1 bs2) s = .next (setB u p bd ⟨x.val ^^^ y.val, x.sld || y.sld, false, false, false⟩) ∧
      exec (.band h bd bs1 bs2) s = .next (setB u p bd ⟨x.val &&& y.val, x.sld || y.sld, false, false, false⟩) ∧
      exec (.bshl h bd bs1 n) s = .next (setB u p bd ⟨x.val <<< n.val, x.sld, false, false, false⟩) ∧
      exec (.bshr h bd bs1 n) s = .next (setB u p bd ⟨x.val >>> n.val, x.sld, false, false, false⟩) ∧
      exec (.bmovb h bd bs1 db sb) s =
        .next (setB u p bd ⟨putPiece z.val 8 db.val (getPiece x.val 8 sb.val), z.sld || x.sld, false, false, false⟩) ∧
      exec (.bmovn h bd bs1 dn sn) s =
        .next (setB u p bd ⟨putPiece z.val 4 dn.val (getPiece x.val 4 sn.val), z.sld || x.sld, false, false, false⟩) ∧
      (x.sld = false → exec (.bctr h bd bs1 (.imm v)) s = .next (setB u p bd ⟨putPiece x.val 32 3 v.toNat, false, false, false, false⟩)) ∧
      (x.sld = true → exec (.bctr h bd bs1 (.imm v)) s = .next (badSeal u p)) ∧
      exec (.bmulx h bd bs1 true) s = .next (setB u p bd ⟨BitVec.ofNat 128 (gcmX x.val.toNat), x.sld, false, false, false⟩) ∧
      exec (.bmulx h bd bs1 false) s = .next (setB u p bd ⟨BitVec.ofNat 128 (cmacX x.val.toNat), x.sld, false, false, false⟩) ∧
      exec (.bcmp h bs1 bs2) s = .next (u.modFacet p (fun f => { f with
        eq := decide (x.val = y.val), auth := decide (x.val = y.val) && ((x.tag && y.fld) || (y.tag && x.fld)) }))) ∧
    (Ready h [g.val] s →
      (x.sld = false → exec (.bctr h bd bs1 (.reg g)) s = .next (setB u p bd ⟨putPiece x.val 32 3 (getG u p g).toNat, false, false, false, false⟩)) ∧
      (x.sld = true → exec (.bctr h bd bs1 (.reg g)) s = .next (badSeal u p)))

/-- Instructions that take open block registers only, and the PIN-field instructions. Rests on 02_facets_and_lenses.md R46;
02_facets_and_lenses.md R47; 03_facet_programs.md R56; 03_facet_programs.md R78; 03_facet_programs.md Table 03.3. -/
def Obligations.OpenBlockInstructionsComplete : Prop :=
  ∃ digits : W64 → W64 → List (Fin 10),
  ∀ (h : Slot) (bd bs1 bs2 : BR) (g : GR) (fmt : BitVec 3) (s : State), Survives h s →
    let p := h.p.val
    let u := settled h s
    let x := getB u p bs1
    let y := getB u p bs2
    let z := getB u p bd
    let g' : GR := ⟨(g.val + 1) % 32, Nat.mod_lt _ (by decide)⟩;
    (Ready h [g.val] s →
      (z.sld = false →
        exec (.bins h bd true g) s = .next (setB u p bd ⟨putPiece z.val 64 0 (getG u p g).toNat, false, false, false, false⟩) ∧
        exec (.bins h bd false g) s = .next (setB u p bd ⟨putPiece z.val 64 1 (getG u p g).toNat, false, false, false, false⟩)) ∧
      (x.sld = false →
        exec (.bext h g bs1 true) s = .next (setG u p g (BitVec.ofNat 64 (getPiece x.val 64 0))) ∧
        exec (.bext h g bs1 false) s = .next (setG u p g (BitVec.ofNat 64 (getPiece x.val 64 1))))) ∧
    (Ready h [] s → x.sld = false →
      (y.sld = false → exec (.gmul h bd bs1 bs2) s = .next (setB u p bd ⟨gfMul x.val y.val, false, false, false, false⟩)) ∧
      exec (.ghash h bs1) s = .next (perf (u.modFacet p (fun f => { f with acc := ghashFold f.hsub f.acc x.val })) p 7 1) ∧
      (x.rel = true → exec (.tag h bd bs1) s = .next (setB u p bd ⟨(u.facet p).acc ^^^ x.val, false, true, false, false⟩))) ∧
    (fmt = 0 ∨ fmt = 1 ∨ fmt = 3 ∨ fmt = 4 →
      (Ready h [] s →
        (∃ t y, exec (.pext h bd bs1 fmt) s = .next (setB t p bd ⟨y, true, false, false, false⟩) ∧
          ((fieldNibbles fmt.toNat x.val).getD 1 0 ≤ 12 → t = u ∧
            y = fieldBlock (pinCanon ((fieldNibbles fmt.toNat x.val).getD 1 0) (pinDigits (fieldNibbles fmt.toNat x.val))))) ∧
        exec (.pchk h bs1 fmt) s =
          .next (u.modFacet p (fun f => { f with pinok := pinCheck fmt.toNat (fieldNibbles fmt.toNat x.val) })) ∧
        exec (.pins h bd bs1 fmt) s = .next (setB (drawBytes u (pinRandom fmt.toNat)).2 p bd ⟨fieldBlock (pinField fmt.toNat
          (((nibblesOf (blockBytes x.val)).drop 1).take (min 12 ((nibblesOf (blockBytes x.val)).getD 0 0)))
          (drawBytes u (pinRandom fmt.toNat)).1), x.sld, false, false, false⟩)) ∧
      (Ready h [g.val, g'.val] s → exec (.ppan h bd g fmt) s = .next (setB u p bd
        ⟨fieldBlock (panField fmt.toNat ((digits (getG u p g) (getG u p g')).map (fun d => d.val))), false, false, false, false⟩)))

/-- LENS and HSET put blocks into a lens pipeline under K; SEQLD, SEQGO and SEQWAIT drive a sequencer slot. Rests on
02_facets_and_lenses.md R29; 02_facets_and_lenses.md R34; 02_facets_and_lenses.md R35; 02_facets_and_lenses.md R46;
02_facets_and_lenses.md R47; 03_facet_programs.md Table 03.4A. -/
def Obligations.LensInstructionsComplete : Prop :=
  ∀ (h : Slot) (bd bs1 bs2 ctr : BR) (sel : BitVec 2) (dir dest : BitVec 3) (q : Fin 4) (s1 : GR) (imm : BitVec 16)
    (count : Fin 65536) (k : KReg) (s : State),
    let p := h.p.val
    let u := settled h s
    let cls := (u.facet p).cls;
    (Ready h [] s → (s.facet p).ldk = none → (s.facet p).k.isSome → Survives h s → (u.facet p).k = some k → classOk k.use cls = true →
      ∀ d, dir.toNat < 4 → dest.toNat < 5 → (useDirs k.use).contains dir.toNat = true → algDir k.alg dir.toNat = true →
        lensDest u p k.use bd.val dest.toNat = some d → ((getB u p bs1).sld = false ∨ useSealedIn k.use cls = true) →
        (sel ≠ 2 → exec (.lens h bd bs1 bs2 sel dir dest false) s =
          .next (lensPush u p (if sel = 1 then 1 else 0) k dir.toNat (getB u p bs1).val d)) ∧
        (sel = 2 → ((getB u p bs2).sld = false ∨ useSealedIn k.use cls = true) →
          ∃ d2, exec (.lens h bd bs1 bs2 sel dir dest false) s =
            .next (lensPush (lensPush u p 0 k dir.toNat (getB u p bs1).val d) p 1 k dir.toNat (getB u p bs2).val d2))) ∧
    (Ready h [] s → (s.facet p).ldk = none → (s.facet p).k = some k → classOk k.use (s.facet p).cls = true →
      (useDirs k.use).contains 0 = true → algDir k.alg 0 = true → (useBlockDest k.use (s.facet p).cls).isSome = true →
      exec (.hset h) s = .next (lensPush (fetched h s) p 0 k 0 0 .hsub)) ∧
    (Ready h [] s → (s.facet p).ldk = none → (s.facet p).k = some k → Survives h s → classOk k.use cls = true →
      ∀ sl, tget none (u.facet p).seq q.val = some sl → (useDirs k.use).contains (byteAt sl.recipe 1) = true →
        algDir k.alg (byteAt sl.recipe 1) = true → useBlockDest k.use cls = some false → (byteAt sl.recipe 0 ≠ 1 ∨ (getB u p ctr).sld = false ∨ useSealedIn k.use cls = true) →
        exec (.seqgo h q ctr count) s = .next (u.modFacet p (fun f => { f with
          seq := tset none f.seq q.val (some ⟨sl.recipe, count.val + 1, 0, ctr.val⟩) }))) ∧
    (Ready h [s1.val] s → Survives h s →
      Loads h (.seqld h q s1 imm) s u (effAddr u p s1 imm) 64 (fun r t =>
        if recipeOk r then t.modFacet p (fun f => { f with seq := tset none f.seq q.val (some ⟨r, 0, 0, 0⟩) }) else badCode t p)) ∧
    (Ready h [] s → seqHeld (s.facet p) = false →
      let w := lensDrain ((fetched h s).facet p).lens.length (fetched h s) p;
      (w.facet p).pc ≠ 0 → exec (.seqwait h q) s = .next (seqRun h.ecc (seqLeft w p q.val) w p q.val))

/-- LDK, its fill and its lease, KSET, KVAR and KCOMMIT: what reaches the key register. Rests on 02_facets_and_lenses.md R36;
02_facets_and_lenses.md R37; 02_facets_and_lenses.md R39; 04_key_store.md R83; 04_key_store.md R90; 04_key_store.md R91;
04_key_store.md R92; 05_key_custody.md Table 05.8. -/
def Obligations.KeyRegisterInstructionsComplete : Prop :=
  ∀ (h : Slot) (d s1 : GR) (use : BitVec 8) (alg : BitVec 4) (v : VR) (attr : Bytes) (space : Fin 17) (index : Fin 33554432) (hd : Word)
    (s : State),
    let p := h.p.val
    let u := fetched h s
    let w := settled h s
    let f := s.facet p
    let n := (getG s p s1).toNat % 4294967296
    let i := kidx s f.owner n
    let l : LdkReq := ⟨d.val, n, use.toNat⟩
    let u1 := u.incWrap F.FCT_LDK p
    let c := cacheTake (u1.modFacet p (fun f => { f with ldk := some l })) i false;
    (Ready h [d.val, s1.val] s → f.ldk = none → useInK use.toNat = true → classOk use.toNat f.cls = true →
      (∃ e, f.entry = some e ∧ e.uses.testBit use.toNat = true) →
      (cached s i = false → s.ks.fills = [] → exec (.ldk h d s1 use) s =
        .next (showK (setKs ((u1.incWrap F.FCT_LDK_MISS p).modFacet p (fun f => { f with ldk := some l, k := none, kTouched := true }))
          { s.ks with fills := [⟨i, [p]⟩] }) p)) ∧
      (cached s i = true → ∀ r, keyCheck c (c.facet p).owner (inner c p) (workAcc c p) n use.toNat = (sOk, r) →
        mustWait c (.ldk p) (kidx c (c.facet p).owner n) = false → r.leaseSpent = false →
        exec (.ldk h d s1 use) s = .next (ldkLoads (useOne c (kidx c (c.facet p).owner n)) p d.val r use.toNat))) ∧
    (let j := space.val * 33554432 + index.val
     ∀ x, s.ks.fills.find? (fun x => x.index == j) = some x → (pageKey s (pageOf j)).isSome = true →
      let t := setKs s { s.ks with fills := s.ks.fills.filter (fun y => y.index != j) }
      exec (.unsealFillComplete space index true) s =
        .next (fillDeliver (if recordSound t j then cacheTake t j false else recordBad t j) j x.facets)) ∧
    (let j := space.val * 33554432 + hIdx hd.toNat
     s.ks.advance.contains j = true → markFull s j = false → s.fenced (s.krec j).owner = false →
      let t := markWrite s j
      exec (.leaseMarkCommit space hd) s = .next (markShow (leaseServe (t.ks.leaseWait.length + 1) t j))) ∧
    (Ready h [] s → f.ldk = none → Survives h s → ∀ k, (w.facet p).k = some k → classOk k.use (w.facet p).cls = true →
      (∀ a, ksetAlg alg.toNat = some a → (useTargets k.use).contains use.toNat = true →
        (vendorEntry (w.facet p) = true ∨ (use ≠ 10 ∧ use ≠ 11 ∧ use ≠ 13)) →
        exec (.kset h use alg) s = .next (setK w p (some ⟨derivKey (w.facet p).deriv a, a, use.toNat, (w.facet p).cls, 0⟩))) ∧
      (hasTargets k.use = true → exec (.kvar h v) s =
        .next (w.modFacet p (fun f => { f with deriv := derivOf k.alg k.key ^^^ getV w p v })))) ∧
    (Ready h [d.val] s → f.ldk = none → Survives h s → ∀ k, f.k = some k → k.use = 4 → classOk 4 (w.facet p).cls = true →
      creationCheck w (w.facet p).owner (attrOf attr) = sOk → isExtAlg (attrOf attr).alg = false → (attrOf attr).alg ≠ 7 →
      ∀ x, (w.facet p).subject = some x → 0 < algKeyLen (attrOf attr).alg → algKeyLen (attrOf attr).alg ≤ 32 →
      algKeyLen (attrOf attr).alg ≤ x.kept.length →
      ∀ j t, createRec w (newKeyOf (w.facet p).owner (attrOf attr) 3 (x.kept.take (algKeyLen (attrOf attr).alg)) none) = some (j, t) →
        exec (.kcommit h d attr) s =
          .next (setG (t.modFacet p (fun f => { f with subject := none })) p d (BitVec.ofNat 64 sOk)))

/-- Hash-unit and check-value-unit instructions of a facet. Rests on 02_facets_and_lenses.md R48; 02_facets_and_lenses.md
R46; 12_entropy_and_check_values.md R327; 12_entropy_and_check_values.md Table 12.8. -/
def Obligations.HashAndCheckValueInstructionsComplete : Prop :=
  ∃ image : Nat → Bytes → Bytes,
  ∀ (h : Slot) (d s1 s2 : GR) (b : BR) (alg : Fin 12) (s : State),
    let p := h.p.val
    let u := fetched h s
    let w := settled h s
    let f := s.facet p
    let a1 := (getG s p s1).toNat
    let a2 := (getG s p s2).toNat;
    (Ready h [] s →
      exec (.hinit h alg false) s = .next (u.modFacet p (fun f => { f with hash := some ⟨alg.val, false, [], 0, []⟩ })) ∧
      (∀ k, f.ldk = none → f.k = some k → k.use = 6 ∨ k.use = 7 → classOk k.use f.cls = true → alg.val < 10 →
        exec (.hinit h alg true) s =
          .next (u.modFacet p (fun f => { f with hash := some ⟨alg.val, true, k.key, k.use, []⟩ }))) ∧
      (Survives h s →
        ((getB w p b).sld = false → exec (.hupd h (.blk b)) s = .next (hashFeed w p (blockBytes (getB w p b).val))) ∧
        (∀ x, (w.facet p).hash = some x → exec (.hfin h (.blk b)) s =
          .next (setB (w.modFacet p (fun f => { f with hash := none })) p b
            ⟨blockOf x.result, x.keyed && decide (x.use = 7), false, false, false⟩)))) ∧
    (Ready h [s1.val, s2.val] s →
      (0 < a2 → Loads h (.hupd h (.mem s1 s2)) s u a1 a2 (fun y t => hashFeed t p y)) ∧
      (a2 < 8 → exec (.cvinit h s1 s2) s =
        .next (u.modFacet p (fun f => { f with cvu := some ⟨a2 % 4, cvStart (a2 % 4) (if 4 ≤ a2 then some a1 else none)⟩ }))) ∧
      (0 < a2 → a2 ≤ 4096 → Loads h (.cvupd h s1 s2) s u a1 a2 (fun y t =>
        t.modFacet p (fun f => { f with cvu := f.cvu.map (fun c => { c with reg := cvFeed c.poly c.reg y }) })))) ∧
    (Ready h [s1.val] s → ∀ x, f.hash = some x →
      (¬ (x.keyed = true ∧ x.use = 7) →
        Stores h (.hfin h (.mem s1)) s (u.modFacet p (fun f => { f with hash := none })) a1 x.result) ∧
      (x.keyed = false → within a1 (max 1 (image x.alg x.fed).length) 0x10000 0x1FFFF = true →
        Stores h (.hsave h s1) s (u.modFacet p (fun f => { f with hsaved := tset none f.hsaved a1 (some x) })) a1 (image x.alg x.fed))) ∧
    (Ready h [s1.val] s → ∀ x, tget none f.hsaved a1 = some x →
      Loads h (.hrest h s1) s u a1 (max 1 (image x.alg x.fed).length) (fun y t =>
        if y.take (image x.alg x.fed).length = image x.alg x.fed then t.modFacet p (fun f => { f with hash := some x }) else t)) ∧
    (Ready h [d.val] s → ∀ c, f.cvu = some c →
      exec (.cvfin h d) s = .next (setG u p d (BitVec.ofNat 64 (cvFinish c.poly c.reg))))

/-- How a facet program reaches its command or its frame, and ends it. Rests on 03_facet_programs.md R58;
03_facet_programs.md R59; 03_facet_programs.md R60; 03_facet_programs.md R61; 03_facet_programs.md R62; 03_facet_programs.md
R63; 02_facets_and_lenses.md R46. -/
def Obligations.CommandAndFrameInstructionsComplete : Prop :=
  ∀ (h : Slot) (d s1 s2 s3 : GR) (v : VR) (b : BR) (off : BitVec 16) (p : Fin 72) (data : List (BitVec 8)) (s : State),
    let w := settled h s
    let q := h.p.val
    let o := (getG w q s1).toNat
    let a := (getG w q s2).toNat
    let n := (getG w q s3).toNat;
    (Ready h [d.val, s1.val, s2.val, s3.val] s → Survives h s → n ≤ 4096 → ∀ i r, w.curRec q = some (i, r) →
      (o + n ≤ subField r.sub 32 4 → within a n 0x10000 0x1FFFF = true → exec (.cmdin h d s1 s2 s3) s =
        .next (w.modFacet q (fun f => { f with dma := some ⟨false, d.val, a, o, n⟩ }))) ∧
      (o + n ≤ subField r.sub 44 4 → (within a n 0x10000 0x1FFFF = true ∨ within a n 0x22000 0x22FFF = true) →
        exec (.cmdout h d s1 s2 s3) s = .next (w.modFacet q (fun f => { f with dma := some ⟨true, d.val, a, o, n⟩ })))) ∧
    (∀ (dd : GR) (la ho len : Nat),
      let x := perf (s.modFacet p (fun f => { f with dma := none })) p 0x0C 1;
      ((s.facet p.val).dma = some ⟨false, dd.val, la, ho, len⟩ → copyStopped s p ⟨false, dd.val, la, ho, len⟩ = false → (copyAccess x p ⟨false, dd.val, la, ho, len⟩).1 = true → exec (.hostDmaComplete ⟨p, .ok, []⟩ true data) s =
        .next (setG (x.modFacet p (fun f => locWrite f la (sliceBytes data 0 len))) p dd (BitVec.ofNat 64 sOk))) ∧
      ((s.facet p.val).dma = some ⟨true, dd.val, la, ho, len⟩ → copyStopped s p ⟨true, dd.val, la, ho, len⟩ = false → (copyAccess x p ⟨true, dd.val, la, ho, len⟩).1 = true →
        let bytes := locRead (x.facet p) la len
        let y := x.modFacet p (fun f => { f with cmdout := memWrite f.cmdout ho bytes });
        ∀ i r, y.curRec p = some (i, r) → r.flr = false → exec (.hostDmaComplete ⟨p, .ok, []⟩ true data) s = .next (setG
          { y with sent := y.sent ++ [.host (y.ctxFn r.ctx) (subField r.sub 36 8 + ho) bytes] } p dd (BitVec.ofNat 64 sOk)))) ∧
    (Ready h [1, 2] s → Survives h s → ∀ i r, w.curRec q = some (i, r) →
      let x := perf (drainAll w q) q 0x0F 1
      let st := progStatus ((getG x q 1).toNat % 65536)
      let len := (getG x q 2).toNat;
      (st = sOk ∨ st = sVerifyFail) → len ≤ subField r.sub 44 4 → exec (.done h) s = .next (finishWith x r.owner r.tag st
        (locRead (x.facet q) 0x22000 (min len 4096) ++ memRead (x.facet q).cmdout 4096 (len - 4096))
        (locRead (x.facet q) 0x22000 (min len 4096)))) ∧
    (Survives h s → ∀ x, w.curFrame q = some x →
      (∀ i, frameIdx x off.toInt 8 = some i → Ready h [d.val] s →
        exec (.fld h (.g d) off) s = .next (setG w q d (BitVec.ofNat 64 (leNat (sliceBytes x.buf i 8)))) ∧
        exec (.fst h (.g d) off) s =
          .next (modFrame w x.id (fun x => { x with buf := spliceBytes x.buf i (leBytes 8 (getG w q d).toNat) }))) ∧
      (∀ i, frameIdx x off.toInt 32 = some i → Ready h [] s →
        exec (.fld h (.v v) off) s = .next (setV w q v (BitVec.ofNat 256 (leNat (sliceBytes x.buf i 32)))) ∧
        exec (.fst h (.v v) off) s =
          .next (modFrame w x.id (fun x => { x with buf := spliceBytes x.buf i (leBytes 32 (getV w q v).toNat) }))) ∧
      (∀ i, frameIdx x off.toInt 16 = some i → Ready h [] s →
        exec (.fld h (.b b) off) s = .next (setB w q b ⟨blockOf (sliceBytes x.buf i 16), false, false, true, false⟩) ∧
        ((getB w q b).sld = false → exec (.fst h (.b b) off) s =
          .next (modFrame w x.id (fun x => { x with buf := spliceBytes x.buf i (blockBytes (getB w q b).val) })))) ∧
      (Ready h [1, 2, 3] s → (getG w q 1).toNat = 0 →
        let st := (getG w q 2).toInt
        let len := (getG w q 3).toNat;
        -64 ≤ st → st ≤ 64 → 64 + st + len ≤ x.buf.length → (x.dir = 0 ∨ (w.flow x.flow).any (fun f => protectedForm f x st len) = true) →
        (x.dir ≠ 0 ∨ ((drainAll w q).facet q).auth = true) →
        exec (.fdone h) s =
          .next (frameLeave (modFrame (drainAll w q) x.id (fun x => { x with start := (64 + st).toNat, len := len })) q x.id none)))

/-- World calls, entry calls, gates, RNGLD and FF1. Rests on 03_facet_programs.md R71; 03_facet_programs.md R72;
03_facet_programs.md R73; 03_facet_programs.md Table 03.9; 02_facets_and_lenses.md R41; 08_payment_functions.md R233;
12_entropy_and_check_values.md R320. -/
def Obligations.WorldCallsAndGatesComplete : Prop :=
  ∃ companion : GR → GR,
  ∀ (h : Slot) (n : BitVec 16) (d : GR) (s : State),
    let u := fetched h s
    let w := settled h s
    let p := h.p.val
    let f := w.facet p;
    (Ready h [] s → Survives h s →
      (∀ id g, tget none w.gates n.toNat = some id → w.prog 0 id = some g → inner w p = false → n.toNat < 64 →
        exec (.wcall h n) s = .next (showEntry (((drainAll w p).modFacet p (fun f => { f with
          gate := some f.pc, gateFrom := f.entry, gateDepth := f.calls.length, kTouched := false
          entry := some g.entry, pc := g.start })).incWrap F.FCT_GATES p) p)) ∧
      (∀ ret, f.gate = some ret →
        exec (.wret h) s = .next (showK (showEntry ((drainAll w p).modFacet p (fun f => scrubGate f ret)) p) p)) ∧
      (∀ g e, callee w p n.toNat = some g → f.entry = some e → f.calls.length < 8 → exec (.ecall h n) s = .next (perf (showK
        (showEntry (w.setFacet p (enterProg { f with calls := ⟨e, f.pc⟩ :: f.calls } g)) p) p) p 0x0D 1)) ∧
      (∀ c r g, f.calls = c :: r → f.gate = none → w.prog c.entry.signer c.entry.id = some g → exec (.eret h) s =
        .next (showK (showEntry (w.setFacet p
          (loadWindow { passEntry f c.entry with entry := some c.entry, pc := c.pc, calls := r } g)) p) p))) ∧
    (Ready h [] s → (s.facet p).gate.isSome = true →
      let r := gateFind u p
      let k := r.2
      let ok := setG u p 1 (BitVec.ofNat 64 sOk);
      (r.1 = sOk → exec (.gateKeyInfo h) s = .next (setG
        (setG ok p 2 (BitVec.ofNat 64 (k.state + 256 * k.use + 65536 * flagByte k + 16777216 * k.alg))) p 3
        (BitVec.ofNat 64 (if k.counted then k.limit - k.uses else 0)))) ∧
      (∃ o, o = (s.facet p).owner ∧ ∃ t1 t2, t1 = setG ok p 2 (BitVec.ofNat 64 (keysHeld ok o)) ∧
        t2 = setG t1 p 3 (BitVec.ofNat 64 (tget Owner.absent s.own o).keyQuota) ∧
        exec (.gateOwnerInfo h) s = .next (setG t2 p 4 (BitVec.ofNat 64 (tget Owner.absent s.own o).mode))) ∧
      exec (.auditNote h) s = .next (setG (event u 0 evAuditNote p (s.facet p).owner
        (leBytes 2 (getG s p 1).toNat ++ leBytes 6 (getG s p 2).toNat ++ leBytes 6 (getG s p 3).toNat ++
          leBytes 6 (getG s p 4).toNat)) p 1 (BitVec.ofNat 64 sOk)) ∧
      (r.1 = sOk → kcvMethodOf k.alg = (getG s p 2).toNat → ∀ b, tget none s.ks.bodies (kidx s (s.facet p).owner k.handle) = some b →
        exec (.kcv h) s = .next (setG ok p 2 (BitVec.ofNat 64 (beNat (kcvOf k.alg k.material b.pub)))))) ∧
    (Ready h [d.val] s →
      (u.rngStopped = true →
        exec (.rngld h d) s = .next (setG (setG u p (companion d) (BitVec.ofNat 64 sEntropy)) p d 0)) ∧
      (u.rngStopped = false → exec (.rngld h d) s = .next (setG (setG (drawBytes u 8).2 p (companion d) (BitVec.ofNat 64 sOk)) p d
        (BitVec.ofNat 64 (leNat (drawBytes u 8).1))))) ∧
    (Ready h [] s → Survives h s → h.ecc = .ok →
      let hd := (getG w p 1).toNat % 4294967296
      let radix := (getG w p 2).toNat
      let len := (getG w p 3).toNat
      let m := (getG w p 4).toNat
      let nums := (List.range len).map (fun i => leNat (locRead f (0x10000 + 2 * i) 2))
      m % 256 ≤ 1 → m < 65536 → 2 ≤ len → len ≤ 4096 → 2 ≤ radix → radix ≤ 65536 → 1000000 ≤ radix ^ min len 20 →
      (∀ x ∈ nums, x < radix) → ∀ r t, ff1Check (ff1Pipe w p) p = (sOk, r) →
      consume (ff1Pipe w p) (.call p) (kidx (ff1Pipe w p) f.owner hd) = some t → (r.alg = 1 ∨ r.alg = 2 ∨ r.alg = 3) →
      let t1 := setK t p (some ⟨r.material, r.alg, 14, f.cls, r.handle⟩)
      let tweak := locRead f 0x1F000 (m / 256)
      let out := if m % 2 = 0 then ff1Enc r.alg r.material radix tweak nums else ff1Dec r.alg r.material radix tweak nums
      exec (.ff1 h) s =
        .next (setG (t1.modFacet p (fun f => locWrite f 0x10000 (out.flatMap (leBytes 2)))) p 1 (BitVec.ofNat 64 sOk)))

/-- How keys are generated, imported, exported and combined from components. Rests on 05_key_custody.md R123;
05_key_custody.md R124; 05_key_custody.md R125; 05_key_custody.md R127; 05_key_custody.md R128; 05_key_custody.md R129;
05_key_custody.md R130; 05_key_custody.md R131; 05_key_custody.md R132; 05_key_custody.md R134; 07_transaction_commands.md
R179. -/
def Obligations.KeyCreationAndExchangeComplete : Prop :=
  ∀ (w : Work) (s : State),
    (let q := quorum s w 0x0101 1 w.o
     let a := attrOf q.body
     let d := drawBytes q.s (if a.alg = 7 then w.f 48 1 else algKeyLen a.alg);
     Runs 0x0101 w s → q.st = sOk → q.body.length = 32 → creationCheck q.s w.o a (generateBody w a) = sOk →
      (w.unused 0 && generateInl w a.alg && w.fits w.createLen) = true →
      (isExtAlg a.alg = true → exec (.keyGenerate w) s = .next (park q.s { w with input := q.body } 0x0101 a.alg (w.f 48 2) false)) ∧
      (isExtAlg a.alg = false → q.s.rngStopped = false →
        Creates (.keyGenerate w) s d.2 w (newKeyOf w.o a 0 d.1 none) [])) ∧
    (∀ (body : Bytes) (u : State) (working : Bool) (i : Instr) (x : KBlock) (k : KeyRec) (t : State) (p m : Bytes),
      let a := attrOf body;
      (working = true ∧ i = .keyImportWorking w ∧ Runs 0x0103 w s ∧ u = s ∧ body = w.input ∧
          decide (a.replaced = 0) && !([3, 4, 5].contains a.use)) ∨
        (working = false ∧ i = .keyImport w ∧ Runs 0x0102 w s ∧ (quorum s w 0x0102 2 w.o).st = sOk ∧
          u = (quorum s w 0x0102 2 w.o).s ∧ body = (quorum s w 0x0102 2 w.o).body) →
      32 ≤ body.length → creationCheck u w.o a = sOk → (w.unused 1 && w.z 48 64 && w.fits w.createLen) = true →
      keyBlock (body.drop 32) = some x → kbUnsupported x = false → LoadsKey (skippedOpts u w.o x) w w.a 4 true k t →
      kbpkFits x.ver k.alg = true → kbOpen x k.alg k.material = some p → kbKey p = some m →
      (kbPermits x.usage x.mode x.letter a.use && decide (kbAlg x.letter m.length = a.alg) && decide (a.alg ≠ 0) &&
        (decide (x.exp = 0x45) || !(a.flags.testBit 0)) && decide (strength a.alg m.length ≤ strength k.alg k.klen)) = true →
      (x.opts.find? (fun e => e.1 == ascii "KP")).all (fun e => e.2 == kpText (kcvMethodOf a.alg) (kcvOf a.alg m [])) = true →
      Creates i s t w (newKeyOf w.o a 2 m none) []) ∧
    (let q := quorum s w 0x0104 4 w.o
     let f := keyFind q.s w.o false w.a.toNat
     let g := keyFind q.s w.o true w.b.toNat;
     Runs 0x0104 w s → q.st = sOk → q.body = [] → f.1 = sOk → (f.2.exportable && !([14, 8, 9, 12].contains f.2.use)) = true →
      f.2.alg ≠ 6 → (w.unused 2 && decide (w.f 48 1 < 2) && w.z 49 64 &&
        w.fits (if g.1 = sOk then kbLen (kbVersion g.2.alg) f.2 else 0)) = true →
      ∀ k t, LoadsKey q.s w w.b 3 true k t → (isAesAlg k.alg || isTdesAlg k.alg) = true →
      strength f.2.alg f.2.klen ≤ strength k.alg k.klen →
      exec (.keyExport w) s = .next (endWith (drawBytes t 32).2 w sOk
        (kbBuild f.2 k.alg k.material (decide (w.f 48 1 = 1)) (drawBytes t 32).1))) ∧
    (let alg := w.f 48 1
     let n := w.f 49 1
     let id := drawBytes s 8
     let r := id.2.free
     let k := Config.pkKeygen 0x31 0 0 r.1;
     Runs 0x0110 w s → (w.unused 0 && decide (1 ≤ alg) && decide (alg ≤ 7) && decide (2 ≤ n) && decide (n ≤ 5) && w.z 50 64 &&
        decide (w.len = 0) && w.fits 1192) = true →
      (s.sessions.filter (fun x => decide (s.nowSec < x.opened + 3600))).length < 64 → s.rngStopped = false →
      exec (.compOpen w) s = .next (endWith { r.2 with sessions := r.2.sessions ++
        [⟨id.1, w.o, alg, n, s.nowSec, fitBytes 2400 k.1, []⟩] } w sOk (id.1 ++ fitBytes 1184 k.2))) ∧
    (let q := quorum s w 0x0111 2 w.o
     let id := q.body.take 8
     let num := byteAt q.body 8
     let slot := byteAt w.input 64
     let ct := (q.body.drop 1104).take (q.body.length - 1120)
     let iv := id ++ beBytes 4 num;
     ∀ x, Runs 0x0111 w s → q.st = sOk → q.s.session w.o id = some x →
      (w.unused 0 && w.z 48 64 && w.fits 8 && decide (1121 ≤ q.body.length) && decide (leNat (sliceBytes q.body 9 7) = 0)) = true →
      1 ≤ num → num ≤ x.n → compLenOk x (q.body.length - 1120) = true →
      (∀ y ∈ x.parts, y.1 ≠ num ∧ y.2.1 ≠ slot) →
      let key := kdf (Config.kemDecap 0x31 x.dk ((q.body.drop 16).take 1088)) "PH64-COMP" (id ++ leBytes 1 num ++ leBytes 1 slot);
      gcmTag 3 key iv (id ++ leBytes 1 num ++ leBytes 1 x.alg) ct = q.body.drop (q.body.length - 16) →
      exec (.compAdd w) s = .next (endWith { q.s with sessions := q.s.sessions.map (fun y =>
          if y.id = id then { y with parts := y.parts ++ [(num, slot, gcmCrypt 3 key iv ct)] } else y) } w sOk
        (leBytes 1 (kcvMethodOf x.alg) ++ fitBytes 5 (kcvOf x.alg (gcmCrypt 3 key iv ct) []) ++ [0, 0]))) ∧
    (let q := quorum s w 0x0112 2 w.o
     let a := attrOf q.body
     let id := sliceBytes q.body 32 8;
     ∀ x, Runs 0x0112 w s → q.st = sOk → q.s.session w.o id = some x → creationCheck q.s w.o a = sOk → q.body.length = 48 →
      q.body.drop 45 = [0, 0, 0] → (w.unused 0 && w.z 48 64 && w.fits w.createLen) = true → a.alg = x.alg →
      x.parts.length = x.n → (combined x).2 = true →
      (let kcv := kcvOf a.alg (combined x).1 [];
       sliceBytes q.body 40 kcv.length = kcv) →
      Creates (.compCombine w) s (closeSession q.s id) w (newKeyOf w.o a 1 (combined x).1 none) [])

/-- How keys are activated, scheduled, cancelled, limited and destroyed. Rests on 05_key_custody.md R135; 05_key_custody.md
R136; 05_key_custody.md R138; 05_key_custody.md R141; 05_key_custody.md R112; 04_key_store.md R88; 04_key_store.md R89;
05_key_custody.md R139. -/
def Obligations.KeyChangesComplete : Prop :=
  ∀ (w : Work) (s : State),
    (let q := quorum s w 0x0105 3 w.o
     let f := keyFind q.s w.o false w.a.toNat
     let i := kidx q.s w.o w.a.toNat
     let t := endDurable (activate q.s i q.s.now) w (pageOf i) [];
     Runs 0x0105 w s → q.st = sOk → (w.unused 1 && w.z 48 64 && kcvInput q.body && w.fits 0) = true → f.1 = sOk →
      kcvFits f.2 q.body = true → f.2.state = kPending → f.2.focusBound = false → kcvMatches q.s i f.2 q.body = true →
      let other := pageOf (kidx q.s w.o f.2.linked)
      let u := resealPage t (pageOf i);
      exec (.keyActivate w) s = .next (if u.ks.toSeal.contains other then resealPage u other else u)) ∧
    (let q := quorum s w 0x0106 3 w.o
     let f := keyFind q.s w.o false w.a.toNat
     let t := w.f 48 6 * secNs + w.f 54 4;
     Runs 0x0106 w s → scheduled s w = none → q.st = sOk →
      (w.unused 1 && w.z 58 64 && decide (w.f 54 4 < secNs) && kcvInput q.body && w.fits 4) = true → f.1 = sOk →
      kcvFits f.2 q.body = true → f.2.state = kPending → f.2.focusBound = true → q.s.now + 2 * mtNs ≤ t →
      kcvMatches q.s (kidx q.s w.o w.a.toNat) f.2 q.body = true →
      (∀ u x, armedAt q.s f.2 = some u → q.s.now + 2 * mtNs ≤ u → q.s.fentry f.2.focus = some x →
        let y := setEntry q.s f.2.focus (some { x with instant := t });
        exec (.keySchedule w) s = .next (endChange (if y.alone then y else focusSend y 255 6 f.2.focus (some { x with instant := t }))
          w sOk (entryResult f.2.focus))) ∧
      (∀ u, armedAt q.s f.2 = none → focusAdd (releaseFacet q.s w) ⟨1, fAdding, w.o, t, q.s.nodeId, 0,
          leBytes 4 f.2.handle ++ List.replicate 44 0, w.t, []⟩ = some u → exec (.keySchedule w) s = .next u)) ∧
    (let q := quorum s w 0x0107 3 w.o
     let f := keyFind q.s w.o false w.a.toNat;
     Runs 0x0107 w s → q.st = sOk → q.body = [] → (w.unused 1 && w.z 48 64 && w.fits 0) = true → f.1 = sOk → f.2.state = kPending →
      tooClose q.s f.2 = false → exec (.keyCancel w) s = .next (destroyFor q.s w (kidx q.s w.o w.a.toNat))) ∧
    (let q := quorum s w 0x0108 3 w.o
     let f := keyFind q.s w.o false w.a.toNat
     let i := kidx q.s w.o w.a.toNat
     let n := w.f 48 8;
     Runs 0x0108 w s → q.st = sOk → q.body = [] → (w.unused 1 && w.z 56 64 && w.fits 0) = true → f.1 = sOk → f.2.counted = true →
      n ≤ f.2.limit → f.2.hw ≤ n →
      ((f.2.uses = n ∧ f.2.state = kActive) → exec (.keySetLimit w) s = .next (endDurable
        (event (changeRec q.s i { f.2 with limit := n, state := kExhausted }) 2 evExhausted 128 f.2.owner
          (leBytes 4 f.2.handle ++ leBytes 8 0)) w (pageOf i) [])) ∧
      ((f.2.uses ≠ n ∨ f.2.state ≠ kActive) → exec (.keySetLimit w) s =
        .next (endDurable (changeRec q.s i { f.2 with limit := n }) w (pageOf i) []))) ∧
    (let q := quorum s w 0x0109 5 w.o
     let f := destroyFind q.s w.o w.a.toNat;
     Runs 0x0109 w s → q.st = sOk → q.body = [] → (w.unused 1 && w.z 48 64 && w.fits 0) = true → f.1 = sOk →
      namedCustodian q.s w.o w.a.toNat = false → tooClose q.s f.2 = false →
      exec (.keyDestroy w) s = .next (destroyFor q.s w (kidx q.s w.o w.a.toNat)))

/-- How challenges are opened and custodians and policies change. Rests on 05_key_custody.md R112; 05_key_custody.md R113;
05_key_custody.md R114; 05_key_custody.md R115; 05_key_custody.md R116; 05_key_custody.md R117; 05_key_custody.md R118;
05_key_custody.md R119. -/
def Obligations.CustodianCommandsComplete : Prop :=
  ∀ (w : Work) (s : State),
    (let x := { s.owner w.o with challenges := (s.owner w.o).challenges.filter (fun c => decide (s.nowSec < c.exp)) }
     let u := setCustody s w.o x
     let d := drawBytes u 32
     let c : Challenge := ⟨d.1, u.nowSec + w.f 48 4, none⟩;
     Runs 0x0120 w s → (w.unused 0 && decide (1 ≤ w.f 48 4) && decide (w.f 48 4 ≤ 3600) && w.z 52 64 && decide (w.len = 0) &&
        w.fits 40) = true → x.challenges.length < 16 → u.rngStopped = false →
      exec (.quorumOpen w) s = .next (endChange (setCustody d.2 w.o { x with challenges := x.challenges ++ [c] }) w sOk
        (c.val ++ leBytes 6 c.exp ++ [0, 0]))) ∧
    (let o := w.f 48 2
     let k := w.f 50 1
     let mask := w.f 52 2
     let q := quorum s w 0x0130 6 o
     let alg := byteAt q.body 0
     let pl := leNat (sliceBytes q.body 2 2)
     let sl := leNat (sliceBytes q.body 4 2)
     let pub := (q.body.drop 8).take pl
     let sig := (q.body.drop (8 + pad8 pl)).take sl
     let zero := fun (l : Bytes) => l.all (fun b => decide (b = 0));
     Runs 0x0130 w s → q.st = sOk → w.mayTarget = true → quotaOk q.s o (heapBytes pl) = true →
      (w.unused 0 && decide (o < 4096) && decide (k < 8) && w.z 51 52 && decide (mask % 2 = 0) && decide (mask < 512) &&
        w.z 54 64 && w.fits 8) = true → q.body.length = 8 + pad8 pl + pad8 sl → byteAt q.body 1 = 0 →
      (zero (sliceBytes q.body 6 2) && zero ((q.body.drop (8 + pl)).take (pad8 pl - pl)) &&
        zero (q.body.drop (8 + pad8 pl + sl)) && credentialOk alg pub) = true →
      (slotEntry q.s o k).isNone = true → slotWaits q.s o k = false → sl = signLen alg 0 → verifyInputOk alg pub sig = true →
      q.s.verdict w.o w.t credentialSlot = some sOk →
      ∀ i t, createRec q.s ⟨o, 9, 0, alg, 0, 0, 0, 0, List.replicate 8 0, [], some ⟨[], pub⟩⟩ = some (i, t) →
      exec (.custEnrol w) s = .next (endCust t w (pageOf i) (leBytes 4 (t.krec i).handle ++ leBytes 1 k ++ [0, 0, 0]) none
        (o, k, some ⟨(t.krec i).handle, mask, t.nowSec⟩))) ∧
    (let o := w.f 48 2
     let k := w.f 50 1
     let q := quorum s w 0x0131 6 o
     let x := q.s.owner o
     let rest := { x with custodians := tset none x.custodians k none };
     Runs 0x0131 w s → q.st = sOk → q.body = [] → w.mayTarget = true →
      (w.unused 0 && decide (o < 4096) && decide (k < 8) && w.z 51 64 && w.fits 0) = true → ∀ c, slotEntry q.s o k = some c →
      slotWaits q.s o k = false → thresholdsMet q.s o rest = true →
      ((destroyFind q.s o c.handle).1 = sOk → exec (.custRemove w) s = .next (endCust (destroyRec q.s (kidx q.s o c.handle)) w
        (pageOf (kidx q.s o c.handle)) [] (some (kidx q.s o c.handle)) (o, k, none))) ∧
      ((destroyFind q.s o c.handle).1 ≠ sOk → exec (.custRemove w) s = .next (endChange (setCustody q.s o rest) w sOk))) ∧
    (let o := w.f 48 2
     let q := quorum s w 0x0132 6 o
     let x := { q.s.owner o with policy := q.body };
     Runs 0x0132 w s → q.st = sOk → w.mayTarget = true → (w.unused 0 && decide (o < 4096) && w.z 50 64 && w.fits 0) = true →
      q.body.length = 16 → byteAt q.body 0 = 0 → (q.body.drop 9).all (fun b => decide (b = 0)) = true →
      (List.range 8).all (fun c => decide (policyFloor.getD (c + 1) 0 ≤ byteAt q.body (c + 1)) &&
        decide (byteAt q.body (c + 1) ≤ 8)) = true → thresholdsMet q.s o x = true →
      exec (.quorumPolicy w) s = .next (endChange (setCustody q.s o x) w sOk))

/-- How data is enciphered and deciphered by the version 2 and version 1 commands. Rests on 07_transaction_commands.md R186;
07_transaction_commands.md R187; 07_transaction_commands.md R188; 07_transaction_commands.md R189; 07_transaction_commands.md
Table 07.1; 07_transaction_commands.md Table 07.5; 08_payment_functions.md R231. -/
def Obligations.DataCommandsComplete : Prop :=
  ∀ (w : Work) (s : State) (op : Nat) (x : Sym) (i : Instr),
    (op, x, i) ∈ [(0x0201, symV2 w true w.input, .encipher w), (0x0202, symV2 w false w.input, .decipher w),
      (0x0210, symV1 w true 0, .v1EncipherEcb w), (0x0211, symV1 w true 1, .v1EncipherCbc w), (0x0212, symV1 w true 2, .v1EncipherCtr w),
      (0x0220, symV1 w false 0, .v1DecipherEcb w), (0x0221, symV1 w false 1, .v1DecipherCbc w),
      (0x0222, symV1 w false 2, .v1DecipherCtr w)] →
    Runs op w s → x.fieldsOk w (algOf s w w.a) = true → ∀ k t, LoadsKey s w w.a (if x.enc then 1 else 2) false k t → x.fit k.alg = true →
    (x.mode ≠ 4 → w.unused 1 = true →
      (∀ d, x.run k.alg k.material [] = some d → exec i s = .next (endWith t w sOk d)) ∧
      (x.run k.alg k.material [] = none → exec i s = .next (endWith t w sVerifyFail []))) ∧
    (x.mode = 4 → w.unused 2 = true → w.a ≠ w.b → ∀ k2 u, LoadsKey t w w.b 1 false k2 u → k2.alg = k.alg →
      ∀ d, x.run k.alg k.material k2.material = some d → exec i s = .next (endWith u w sOk d))

/-- How data is translated, MACs are made and checked, keys are derived, and random bytes are drawn. Rests on
07_transaction_commands.md R189; 07_transaction_commands.md R190; 07_transaction_commands.md R192; 07_transaction_commands.md
R197; 08_payment_functions.md R231; 08_payment_functions.md R232; 08_payment_functions.md Table 08.9. -/
def Obligations.TranslateMacAndDerivedCommandsComplete : Prop :=
  ∀ (w : Work) (s : State),
    (let i := w.f 52 1
     let o := w.f 53 1
     let d := w.input.drop (i + o)
     let ivOk := fun (m l : Nat) => if m = 0 then decide (l = 0) else decide (l = 8) || decide (l = 16)
     let x : Sym := ⟨false, false, w.f 48 1, 0, 0, 0, w.input.take i, [], d, [], true⟩
     let y : Sym := ⟨true, false, w.f 49 1, 0, 0, 0, (w.input.drop i).take o, [], d, [], true⟩
     let whole := fun (q : Sym) (alg : Nat) => !(q.fit alg) || (q.dataOk alg && decide (d.length % algBlock alg = 0));
     Runs 0x0203 w s → (w.unused 2 && decide (x.mode ≤ 2) && decide (y.mode ≤ 2) && w.z 50 52 && w.z 54 64 && ivOk x.mode i &&
        ivOk y.mode o && decide (i + o ≤ w.len) && w.fits d.length && whole x (algOf s w w.a) && whole y (algOf s w w.b)) = true →
      ∀ k t k2 u, LoadsKey s w w.a 2 false k t → x.fit k.alg = true → LoadsKey t w w.b 1 false k2 u → y.fit k2.alg = true →
      ∀ clear e, x.run k.alg k.material [] = some clear → { y with data := clear }.run k2.alg k2.material [] = some e →
      exec (.translate w) s = .next (endWith u w sOk e)) ∧
    (∀ v : Bool, let x := macOf w v w.input;
      Runs (if v then 0x0302 else 0x0301) w s → (w.unused 1 && x.ok && w.fits (if v then 0 else x.len)) = true →
      ∀ k t, LoadsKey s w w.a (if v then 7 else 6) false k t → macFit x.alg k.alg = true →
      let m := (macValue x.alg x.pad k.alg k.material x.msg).take x.len;
      (v = false → exec (.macGenerate w) s = .next (endWith t w sOk m)) ∧
      (v = true → exec (.macVerify w) s = .next (endWith t w (if x.expect.take x.len = m then sOk else sVerifyFail) []))) ∧
    (∀ alg label ctx rest k t, derivBlock w.input = some (alg, label, ctx, rest) → w.unused 1 = true →
      LoadsKey s w w.a 5 false k t → isAesAlg k.alg = true →
      let key := derivedKey alg k.alg k.material label ctx;
      (∀ e : Bool, let x := symV2 w e rest;
        Runs (if e then 0x0601 else 0x0602) w s → (x.fit alg && decide (x.mode ≠ 4) && x.fieldsOk w alg) = true →
        exec (if e then .derivedEncipher w else .derivedDecipher w) s =
          .next (match x.run alg key [] with
            | some d => endWith t w sOk d
            | none => endWith t w sVerifyFail [])) ∧
      (∀ v : Bool, let x := macOf w v rest;
        Runs (if v then 0x0604 else 0x0603) w s → (x.ok && macFit x.alg alg && w.fits (if v then 0 else x.len)) = true →
        let m := (macValue x.alg x.pad alg key x.msg).take x.len;
        (v = false → exec (.derivedMacGenerate w) s = .next (endWith t w sOk m)) ∧
        (v = true → exec (.derivedMacVerify w) s = .next (endWith t w (if x.expect.take x.len = m then sOk else sVerifyFail) [])))) ∧
    (let n := w.f 48 4;
     Runs 0x0801 w s → (w.unused 0 && decide (1 ≤ n) && decide (n ≤ 1048576) && w.z 52 64 && decide (w.len = 0) && w.fits n) = true →
      s.rngStopped = false → exec (.random w) s = .next (endWith (drawBytes s n).2 w sOk (drawBytes s n).1))

/-- What QUERY_VERSION, KEY_INFO, KEY_LIST, OWNER_INFO and DEVICE_INFO answer. Rests on 07_transaction_commands.md R177;
07_transaction_commands.md R204; 07_transaction_commands.md R179; 01_shape_of_the_device.md R21. -/
def Obligations.QueriesComplete : Prop :=
  ∀ (w : Work) (s : State), w.len = 0 →
    (Runs 0x0F00 w s → (w.unused 0 && w.z 48 64 && w.fits 8) = true →
      exec (.queryVersion w) s = .next (endWith s w sOk ([2, 1] ++ leBytes 1 s.commonVer ++ List.replicate 5 0))) ∧
    (Runs 0x0F01 w s → (w.unused 1 && w.z 48 64 && w.fits 48) = true → ∀ r, keyFind s w.o false w.a.toNat = (sOk, r) →
      exec (.keyInfo w) s = .next (endWith s w sOk (keyInfo r))) ∧
    (Runs 0x0F02 w s → (w.unused 0 && decide (1 ≤ w.f 52 4) && decide (w.f 52 4 ≤ 65536) && w.z 56 64 && w.fits 8) = true →
      exec (.keyList w) s = .next (endWith s w sOk (keyList s w.o (w.f 48 4) (min (w.f 52 4) ((w.cap.toNat - 4) / 4))))) ∧
    (Runs 0x0F03 w s → (w.unused 0 && w.z 48 64 && w.fits 72) = true → exec (.ownerInfo w) s =
      .next (endWith s w sOk (ownerEntry w.o (s.owner w.o) ++ leBytes 4 (keysHeld s w.o) ++ leBytes 4 (flowsHeld s w.o)))) ∧
    (Runs 0x0F04 w s → (w.unused 0 && w.z 48 64 && w.fits 64) = true → exec (.deviceInfo w) s =
      .next (endWith s w sOk (fitBytes 16 Config.serial ++ leBytes 2 (s.get F.DEV_ID_MODREV) ++ leBytes 1 (s.get F.DEV_ID_STEP) ++
        leBytes 1 (b2n (decide (s.get F.CLK_STATUS_MODE = 2))) ++ leBytes 1 (roleCount s 0) ++ leBytes 1 (roleCount s 1) ++
        leBytes 1 (roleCount s 2) ++ leBytes 1 (s.countMap mapSpare) ++ leBytes 1 s.wear.count ++ [0, 0, 0] ++ leBytes 4 6 ++
        List.replicate 32 0)))

/-- What the five PIN commands answer. Rests on 08_payment_functions.md R213; 08_payment_functions.md R215;
08_payment_functions.md R216; 08_payment_functions.md R217; 08_payment_functions.md R218; 08_payment_functions.md R219;
08_payment_functions.md R220; 08_payment_functions.md R211; 08_payment_functions.md R208; 08_payment_functions.md R212. -/
def Obligations.PinCommandsComplete : Prop :=
  ∀ (w : Work) (s : State) (ka kb : KeyRec) (t u : State),
    let f := w.f 48 1
    let blk := w.input
    let pan2 := sliceBytes w.input 16 16
    let field := pinOpen f ka.alg ka.material blk (panDigits pan2);
    (let o := w.f 49 1
     let pan := w.input.drop 16
     let field := pinOpen f ka.alg ka.material blk (panDigits pan);
     Runs 0x0401 w s → (w.unused 2 && transInl w && decide (w.len = 32) && blockOk f blk && panOk (usesPan f || usesPan o) pan &&
        w.fits (pinBlockLen o)) = true → pairOk f o (decide (w.f 50 1 = 1)) = true →
      LoadsKey s w w.a 11 false ka t → pinAlg f ka.alg = true → LoadsKey t w w.b 10 false kb u → pinAlg o kb.alg = true →
      (o = 0 ∨ u.rngStopped = false) →
      (pinCheck f field = true → exec (.pinTranslate w) s = .next (endWith (drawBytes u (pinRandom o)).2 w sOk
        (pinClose o kb.alg kb.material (pinField o (pinDigits field) (drawBytes u (pinRandom o)).1) (panDigits pan)))) ∧
      (pinCheck f field = false → exec (.pinTranslate w) s = .next (failWith u w 1 1))) ∧
    (Runs 0x0402 w s → (w.unused 2 && offsetInl w && decide (w.len = 48) && blockOk f blk && panOk (usesPan f) pan2 &&
        zeros (w.input.drop 40) && w.fits 0) = true →
      LoadsKey s w w.a 11 false ka t → pinAlg f ka.alg = true → LoadsKey t w w.b 13 false kb u → isTdesAlg kb.alg = true →
      let l := w.f 49 1
      let d := decimalised w kb.alg kb.material (sliceBytes w.input 32 8)
      let good := pinCheck f field = true ∧ l ≤ field.getD 1 0 ∧
        ∀ i < l, (pinDigits field).getD i 0 = (d.getD i 0 + (offsetNibbles w).getD i 0) % 10;
      (good → exec (.pinVerifyOffset w) s = .next (endWith u w sOk [])) ∧
      (¬good → exec (.pinVerifyOffset w) s = .next (failWith u w 1 2))) ∧
    (Runs 0x0403 w s → (w.unused 2 && pvvInl w && decide (w.len = 32) && blockOk f blk && panOk true pan2 && w.fits 0) = true →
      LoadsKey s w w.a 11 false ka t → pinAlg f ka.alg = true → LoadsKey t w w.b 13 false kb u → kb.alg = 4 →
      let tsp := panRight 11 (panDigits pan2) ++ [w.f 49 1] ++ (pinDigits field).take 4
      let good := pinCheck f field = true ∧
        (decimalScan (nibblesOf (tdesEnc kb.material (ofNibbles tsp)))).take 4 = nibblesOf (sliceBytes w.inl 2 2);
      (good → exec (.pinVerifyPvv w) s = .next (endWith u w sOk [])) ∧
      (¬good → exec (.pinVerifyPvv w) s = .next (failWith u w 1 2))) ∧
    (let n := w.f 49 1
     let d := drawDigits 64 n t
     let r := drawBytes d.2 (pinRandom f);
     Runs 0x0404 w s → (w.unused 1 && pinFmtOk f && decide (4 ≤ n) && decide (n ≤ 12) && w.z 50 64 && decide (w.len = 16) &&
        panOk (usesPan f) w.input && w.fits (pinBlockLen f)) = true →
      LoadsKey s w w.a 10 false ka t → pinAlg f ka.alg = true → t.rngStopped = false →
      exec (.pinGenerate w) s = .next (endWith r.2 w sOk
        (pinClose f ka.alg ka.material (pinField f d.1 r.1) (panDigits w.input)))) ∧
    (let l := w.f 49 1
     let d := decimalised w kb.alg kb.material (sliceBytes w.input 32 8);
     Runs 0x0405 w s → (w.unused 2 && pinFmtOk f && decide (4 ≤ l) && decide (l ≤ 12) && decTableOk w && w.z 58 64 &&
        decide (w.len = 48) && blockOk f blk && panOk (usesPan f) pan2 && zeros (w.input.drop 40) && w.fits 8) = true →
      LoadsKey s w w.a 11 false ka t → pinAlg f ka.alg = true → LoadsKey t w w.b 13 false kb u → isTdesAlg kb.alg = true →
      pinCheck f field = true → l ≤ field.getD 1 0 →
      exec (.pinOffsetGenerate w) s = .next (endWith u w sOk (ofNibbles (((List.range l).map (fun i =>
        ((pinDigits field).getD i 0 + 10 - d.getD i 0) % 10) ++ List.replicate 12 15).take 12) ++ [0, 0])))

/-- What the card-code, application-cryptogram and DUKPT commands answer. Rests on 08_payment_functions.md R222;
08_payment_functions.md R223; 08_payment_functions.md R224; 08_payment_functions.md R225; 08_payment_functions.md R226;
08_payment_functions.md R227; 08_payment_functions.md R228; 08_payment_functions.md R229; 08_payment_functions.md R208. -/
def Obligations.CardAndDukptCommandsComplete : Prop :=
  ∀ (w : Work) (s : State) (k kb : KeyRec) (t u : State),
    (∀ v : Bool,
      let e := nibblesOf (sliceBytes w.inl 5 3)
      let l := w.f 52 1
      let c := cvcCode w k.material w.input;
      Runs (if v then 0x0510 else 0x0511) w s →
      (w.unused 1 && bcd (nibblesOf (sliceBytes w.inl 0 2)) && bcd ((nibblesOf (sliceBytes w.inl 2 2)).take 3) &&
        decide (w.f 51 1 % 16 = 15) && decide (3 ≤ l) && decide (l ≤ 5) &&
        (if v then bcd (e.take l) && (e.drop l).all (fun x => decide (x = 15)) else w.z 53 56) && w.z 56 64 &&
        decide (w.len = 16) && panOk true w.input && w.fits (if v then 0 else 4)) = true →
      LoadsKey s w w.a 13 false k t → k.alg = 4 →
      (v = false → exec (.cvcGenerate w) s = .next (endWith t w sOk (cvcBytes c ++ [0]))) ∧
      (v = true → e.take l = c → exec (.cvcVerify w) s = .next (endWith t w sOk [])) ∧
      (v = true → e.take l ≠ c → exec (.cvcVerify w) s = .next (failWith t w 1 5))) ∧
    (∀ kind i, (kind, i) ∈ [(0, Instr.acVerify w), (1, .acRespond w), (2, .acVerifyRespond w)] →
      let fixed := if kind = 0 then 32 else 48
      let arqc := sliceBytes w.input 16 8
      let rsp := sliceBytes w.input 32 16
      let key := acKey w k w.input
      let good := acMac k.alg (w.f 50 1) key (w.input.drop fixed) = arqc;
      Runs (0x0501 + kind) w s → (w.unused 1 && acInl w kind && decide (w.len = fixed + w.f 54 2) && panOk true (w.input.take 16) &&
        zeros (sliceBytes w.input 24 8) && (decide (kind = 0) || zeros (sliceBytes rsp 14 2)) &&
        w.fits (if kind = 0 then 0 else if w.f 51 1 = 1 then 8 else 4)) = true →
      LoadsKey s w w.a 13 false k t → acFit w k.alg = true →
      ((kind = 1 ∨ good) → exec i s = .next (endWith t w sOk (if kind = 0 then [] else arpc w k.alg key arqc rsp))) ∧
      (kind ≠ 1 → ¬good → exec i s = .next (failWith t w 1 3))) ∧
    (let i := w.f 49 1
     let o := w.f 50 1
     let ksn := w.input.take 16
     let blk := sliceBytes w.input 16 16
     let pan := sliceBytes w.input 32 16
     let field := dukptField w k ksn blk (panDigits pan);
     Runs 0x0610 w s → (w.unused 2 && dukptTransInl w && decide (w.len = 48) && ksnOk (w.f 48 1) ksn && blockOk i blk &&
        panOk (usesPan i || usesPan o) pan && w.fits (pinBlockLen o)) = true → pairOk i o (decide (w.f 51 1 = 1)) = true →
      LoadsKey s w w.a 5 false k t → dukptFit (w.f 48 1) (w.f 52 1) k.alg = true → LoadsKey t w w.b 10 false kb u →
      pinAlg o kb.alg = true → (o = 0 ∨ u.rngStopped = false) →
      (pinCheck i field = true → exec (.dukptPinTranslate w) s = .next (endWith (drawBytes u (pinRandom o)).2 w sOk
        (pinClose o kb.alg kb.material (pinField o (pinDigits field) (drawBytes u (pinRandom o)).1) (panDigits pan)))) ∧
      (pinCheck i field = false → exec (.dukptPinTranslate w) s = .next (failWith u w 1 1))) ∧
    (let ksn := w.input.take 16
     let e := sliceBytes w.input 16 16
     let m := w.input.drop 32;
     Runs 0x0611 w s → (w.unused 1 && decide (32 ≤ w.len) && dukptMacInl w m.length && ksnOk (w.f 48 1) ksn &&
        macField e (w.f 51 1) && w.fits 0) = true → LoadsKey s w w.a 5 false k t → dukptFit (w.f 48 1) (w.f 52 1) k.alg = true →
      (dukptMacOk w k ksn e m = true → exec (.dukptMacVerify w) s = .next (endWith t w sOk [])) ∧
      (dukptMacOk w k ksn e m = false → exec (.dukptMacVerify w) s = .next (failWith t w 1 4))) ∧
    (let kind := w.f 48 1
     let g := dukptAlg kind (w.f 52 1)
     let bl := algBlock g
     let ksn := w.input.take 16
     let iv := sliceBytes w.input 16 16
     let x : Sym := ⟨false, false, w.f 49 1, 0, 0, 0, if w.f 49 1 = 0 then [] else iv.take bl, [], w.input.drop 32, [], true⟩;
     Runs 0x0612 w s → (w.unused 1 && dukptInl w && decide (w.f 49 1 ≤ 1) &&
        (decide (w.f 50 1 ≤ 1) || (decide (w.f 50 1 = 2) && decide (kind = 1))) && w.z 51 52 && w.z 53 64 && decide (32 ≤ w.len) &&
        ksnOk kind ksn && zeros (if w.f 49 1 = 0 then iv else iv.drop bl) && x.dataOk g && w.fits x.data.length) = true →
      LoadsKey s w w.a 5 false k t → dukptFit kind (w.f 52 1) k.alg = true →
      ∀ d, x.run g (dukptKey kind k ksn 2 (w.f 50 1) g) [] = some d → exec (.dukptDecipher w) s = .next (endWith t w sOk d))

/-- What the three bundles answer. Rests on 08_payment_functions.md R235; 08_payment_functions.md R236;
07_transaction_commands.md R191; 08_payment_functions.md R208. -/
def Obligations.BundlesComplete : Prop :=
  ∀ (w : Work) (s t : State) (k1 k2 k3 : KeyRec),
    let w1 := stepOf w (sliceBytes w.input 0 16)
    let w2 := stepOf w (sliceBytes w.input 16 16)
    let pan := sliceBytes w.input 32 16
    let arqc := sliceBytes w.input 48 8
    let blk := sliceBytes w.input 64 16
    let field := pinOpen (w2.f 48 1) k2.alg k2.material blk (panDigits pan);
    (let i := w2.f 48 1
     let o := w2.f 49 1
     let good := acVerified w1 k1 pan arqc (w.input.drop 80) = true
     let r := reblock t o k3 field (panDigits pan);
     Runs 0x0901 w s → (w.z 48 64 && acInl w1 0 && transInl w2 && decide (w.len = 80 + w1.f 54 2) && panOk true pan &&
        zeros (sliceBytes w.input 56 8) && blockOk i blk && w.fits (pinBlockLen o)) = true →
      pairOk i o (decide (w2.f 50 1 = 1)) = true →
      bundleLoads w s [(w.a, 13, acFit w1), (w.b, 11, pinAlg i), (w.c, 10, pinAlg o)] = some (sOk, [k1, k2, k3], t) →
      (o = 0 ∨ t.rngStopped = false) →
      (good → pinCheck i field = true → exec (.acVerifyPinTranslate w) s = .next (endWith r.2 w sOk r.1)) ∧
      (good → pinCheck i field = false → exec (.acVerifyPinTranslate w) s = .next (failWith t w 2 1)) ∧
      (¬good → exec (.acVerifyPinTranslate w) s = .next (failWith t w 1 3))) ∧
    (let ksn := sliceBytes w.input 32 16
     let acct := sliceBytes w.input 48 16
     let e := sliceBytes w.input 80 16
     let m := w.input.drop 96
     let i := w1.f 49 1
     let o := w1.f 50 1
     let fit := dukptFit (w1.f 48 1) (w1.f 52 1)
     let pinf := dukptField w1 k1 ksn blk (panDigits acct)
     let r := reblock t o k2 pinf (panDigits acct);
     Runs 0x0902 w s → (w.unused 2 && w.z 48 64 && decide (96 ≤ w.len) && dukptTransInl w1 && dukptMacInl w2 m.length &&
        decide (w1.f 48 1 = w2.f 48 1) && decide (w1.f 52 1 = w2.f 52 1) && ksnOk (w1.f 48 1) ksn &&
        panOk (usesPan i || usesPan o) acct && blockOk i blk && macField e (w2.f 51 1) && w.fits (pinBlockLen o)) = true →
      pairOk i o (decide (w1.f 51 1 = 1)) = true →
      bundleLoads w s [(w.a, 5, fit), (w.b, 10, pinAlg o), (w.a, 5, fit)] = some (sOk, [k1, k2, k3], t) →
      (o = 0 ∨ t.rngStopped = false) →
      (pinCheck i pinf = true → dukptMacOk w2 k3 ksn e m = true →
        exec (.dukptPinTranslateMacVerify w) s = .next (endWith r.2 w sOk r.1)) ∧
      (pinCheck i pinf = true → dukptMacOk w2 k3 ksn e m = false →
        exec (.dukptPinTranslateMacVerify w) s = .next (failWith t w 2 4)) ∧
      (pinCheck i pinf = false → exec (.dukptPinTranslateMacVerify w) s = .next (failWith t w 1 1))) ∧
    (let pvv := decide (w.f 48 1 = 1)
     let v := sliceBytes w.input 80 16
     let good := acVerified w1 k1 pan arqc (w.input.drop 96) = true
     let pin := (if pvv then pvvVerified w2 field (panDigits pan) k3 else offsetVerified w2 field k3 (v.take 8)) = true;
     Runs 0x0903 w s → (decide (w.f 48 1 ≤ 1) && w.z 49 64 && acInl w1 0 && (if pvv then pvvInl w2 else offsetInl w2) &&
        decide (w.len = 96 + w1.f 54 2) && panOk true pan && zeros (sliceBytes w.input 56 8) && blockOk (w2.f 48 1) blk &&
        zeros (if pvv then v else v.drop 8) && w.fits 0) = true →
      bundleLoads w s [(w.a, 13, acFit w1), (w.b, 11, pinAlg (w2.f 48 1)),
        (w.c, 13, fun g => if pvv then decide (g = 4) else isTdesAlg g)] = some (sOk, [k1, k2, k3], t) →
      (good → pin → exec (.acVerifyPinVerify w) s = .next (endWith t w sOk [])) ∧
      (good → ¬pin → exec (.acVerifyPinVerify w) s = .next (failWith t w 2 2)) ∧
      (¬good → exec (.acVerifyPinVerify w) s = .next (failWith t w 1 3)))

/-- How the public-key commands reach an array, and how they end. Rests on 07_transaction_commands.md R193;
07_transaction_commands.md R194; 07_transaction_commands.md R195; 07_transaction_commands.md R196; 07_transaction_commands.md
R526; 11_huxel_arrays.md R302; 05_key_custody.md R125. -/
def Obligations.PublicKeyCommandsComplete : Prop :=
  ∀ (w : Work) (s : State),
    (let k := keyCheck s w.o false w.acc w.a.toNat 8
     let f := keyFind s w.o false w.a.toNat
     let n := w.len - w.f 52 1
     let l := pkLen f.2.alg (pkBody s w).pub n;
     Runs 0x0701 w s → (w.unused 1 && sigRange w && w.z 54 64 && decide (w.f 52 1 ≤ w.len) && decide (n ≤ 4194304) && digestOk w n &&
        w.fits (if f.1 = sOk ∧ sigFit w f.2.alg then signLen f.2.alg (l % 65536) else 0)) = true → k.1 = sOk → sigFit w k.2.alg = true →
      exec (.sign w) s = .next (park s w 0x0701 k.2.alg l false)) ∧
    (let pre := w.f 52 1 + w.f 60 2 + w.f 56 4
     let i := w.input.drop (w.f 52 1 + w.f 60 2);
     Runs 0x0702 w s → (w.unused 1 && sigRange w && w.z 55 56 && w.z 62 64 && decide (pre ≤ w.len) && digestOk w (w.len - pre) &&
        w.fits 0) = true →
      (w.a ≠ 0 → (w.z 54 55 && w.z 60 62) = true → ∀ k t, keyCheck s w.o false w.acc w.a.toNat 9 = (sOk, k) → LoadsKey s w w.a 9 false k t →
        sigFit w k.alg = true →
        verifyInputOk k.alg (pkBody t w).pub (i.take (w.f 56 4)) = true →
        exec (.verify w) s = .next (park t w 0x0702 k.alg (pkLen k.alg (pkBody t w).pub (i.length - w.f 56 4)) false)) ∧
      (w.a = 0 → sigFit w (w.f 54 1) = true →
        let pub := (w.input.drop (w.f 52 1)).take (w.f 60 2);
        verifyInputOk (w.f 54 1) pub (i.take (w.f 56 4)) = true →
        exec (.verify w) s = .next (park s w 0x0702 (w.f 54 1) (pkLen (w.f 54 1) pub (i.length - w.f 56 4)) false))) ∧
    (let a := attrOf w.input
     let k := keyCheck s w.o false w.acc w.a.toNat 12
     let pl := w.f 48 2;
     32 ≤ w.len → creationCheck s w.o a = sOk → (decide (a.replaced = 0) && !(isExtAlg a.alg)) = true →
      (!([3, 4, 5].contains a.use)) = true →
      (Runs 0x0703 w s → (w.unused 1 && w.z 50 52 && decide (w.f 52 2 ≤ 1024) && w.z 54 64 && decide (w.len = 32 + pl + w.f 52 2) &&
          w.fits w.createLen) = true → k.1 = sOk → (isNist k.2.alg || isXdh k.2.alg) = true →
        peerOk k.2.alg ((w.input.drop 32).take pl) = true → exec (.keyAgree w) s = .next (park s w 0x0703 k.2.alg 0 false)) ∧
      (Runs 0x0704 w s → (w.unused 1 && w.z 48 52 && decide (w.f 52 2 ≤ 1024) && w.z 54 64 && decide (32 + w.f 52 2 ≤ w.len) &&
          w.fits w.createLen) = true → k.1 = sOk → isKem k.2.alg = true → w.len = 32 + kemCtLen k.2.alg + w.f 52 2 →
        exec (.kemDecapsulate w) s = .next (park s w 0x0704 k.2.alg 0 false)) ∧
      (Runs 0x0705 w s → (w.unused 0 && isKem (w.f 48 1) && w.z 49 52 && decide (w.f 52 2 ≤ 1024) && w.z 54 64 &&
          w.fits (w.createLen + kemCtLen (w.f 48 1)) && decide (w.len = 32 + pubLen (w.f 48 1) 0 + w.f 52 2) &&
          kemKeyOk (w.f 48 1) ((w.input.drop 32).take (pubLen (w.f 48 1) 0))) = true →
        exec (.kemEncapsulate w) s = .next (park s w 0x0705 (w.f 48 1) 0 false))) ∧
    (let f := keyFind s w.o false w.a.toNat
     let pub := (pkBody s w).pub;
     Runs 0x0706 w s → f.1 = sOk → f.2.ext = true → (w.unused 1 && w.z 48 64 && decide (w.len = 0) && w.fits pub.length) = true →
      exec (.pubkeyExport w) s = .next (endWith s w sOk pub)) ∧
    (∀ (p : Fin 72) o t x st i r, facetFree s p 1 = true → resumeReady s = some (o, t) →
      let s1 := { s with jr := { s.jr with resume := s.jr.resume.filter (fun y => y != (o, t)) } };
      s.hx.ops.filter (fun x => decide (x.owner = o) && decide (x.tag = t)) = [x] → x.result = some st → x.judge = none →
      jrRunning (opDone s1 x) o t = some (i, r) →
      let s2 := jrMod ((opDone s1 x).modFacet p (fun f => { f with work := .cmd r.ctx r.aseq, owner := o })) i
        (fun y => { y with facet := p + 1, parked := false });
      (st ≠ sOk → exec (.commandResume p) s = .next (endWith s2 x.w st)) ∧
      (st = sOk → hxKind x.opcode = 0 → exec (.commandResume p) s = .next (endWith s2 x.w sOk x.out)) ∧
      (st = sOk → hxKind x.opcode = 1 → exec (.commandResume p) s =
        .next (endWith s2 x.w (if x.out = [1] then sOk else sVerifyFail))) ∧
      (st = sOk → 5 ≤ hxKind x.opcode → creationCheck s2 x.w.o (attrOf x.w.input) (generateBody x.w (attrOf x.w.input)) = sOk →
        Creates (.commandResume p) s s2 x.w (newKeyOf x.w.o (attrOf x.w.input) 0 [] (some ⟨x.out, x.out2⟩)) []) ∧
      (st = sOk → 2 ≤ hxKind x.opcode → hxKind x.opcode ≤ 4 →
        let a := attrOf x.w.input
        let n := if a.alg = 7 then 1 + s2.free.1 % 32 else algKeyLen a.alg
        let label := if hxKind x.opcode = 2 then "PH64-AGREE" else "PH64-KEM";
        creationCheck s2.free.2 x.w.o a = sOk → Creates (.commandResume p) s s2.free.2 x.w
          (newKeyOf x.w.o a 0 ((kdf x.out label (x.w.input.drop (x.w.len - x.w.f 52 2))).take n) none)
          (if hxKind x.opcode = 4 then x.out2 else []))) ∧
    (∀ (p : Fin 72) o t x l st j, facetFree s p 1 = true → resumeReady s = some (o, t) →
      s.hx.ops.filter (fun x => decide (x.owner = o) && decide (x.tag = t)) = x :: l → x.result = some st → x.judge = some j →
      let s1 := { s with jr := { s.jr with resume := s.jr.resume.filter (fun y => y != (o, t)) } };
      exec (.commandResume p) s = .next (judged (resumeOn ((x :: l).foldl opDone s1) p o t) (x :: l) j))

/-- How stream associations are installed, re-keyed, withdrawn and read. Rests on 07_transaction_commands.md R198;
07_transaction_commands.md R199; 09_stream_protection.md R243; 09_stream_protection.md R244; 09_stream_protection.md R248;
09_stream_protection.md R264; 09_stream_protection.md R267; 09_stream_protection.md R270. -/
def Obligations.AssociationCommandsComplete : Prop :=
  ∀ (w : Work) (s : State),
    let i := w.f 48 4
    let k := w.f 55 1;
    (let dir := w.f 52 1
     let suite := w.f 53 1
     let port := w.f 54 1
     let use := if dir = 1 then 1 else 2;
     Runs 0x0A01 w s → (w.unused 1 && decide (i < 1048576) && decide (dir ≤ 1) && decide (suite ≤ 4) && decide (port < 16) &&
        decide (k ≤ 1) && w.z 60 64 && decide (w.len = 64) && w.fits 0 && descOk s dir suite port w.input) = true →
      s.flow i = none → descClash s dir suite port w.input = false → (s.owner w.o).ports.testBit port = true →
      ∀ r t, keyCheck s w.o false w.acc w.a.toNat use = (sOk, r) → LoadsKey s w w.a use false r t → r.counted = false → r.alg = suiteAlg suite → t.str.flows.length < 1048576 →
      flowsHeld t w.o < (t.owner w.o).flowQuota → ¬(dir = 0 ∧ suite = 4 ∧ 16384 ≤ sealedFlows t) →
      let x := newSlot 2 dir suite (byteAt w.input 24) (w.f 56 4) (leNat (sliceBytes w.input 32 8)) r t.now
      let f : Flow := { owner := w.o, dir := dir, suite := suite, port := port, desc := w.input, s0 := FSlot.empty, s1 := FSlot.empty
                        seqNext := 0, relNext := 0, counters := [], frames := 0, cells := 0, withdrawn := false, waiters := []
                        lastAuth := 0 };
      exec (.saInstall w) s = .next (endWith (noteSoft (setFlow t i (some (f.setSlot k x))) w.o w.t) w sOk)) ∧
    (∀ f, Runs 0x0A02 w s → (w.unused 1 && decide (i < 1048576) && w.z 52 55 && decide (k ≤ 1) && w.z 60 64 && decide (w.len = 0) &&
        w.fits 0) = true → ownFlow s w = some f → f.slotSt k < 2 →
      ¬(f.slotSt k = 1 ∧ epochNamed s i f.dir (f.slot k).epoch = true) →
      ∀ r t, keyCheck s w.o false w.acc w.a.toNat (if f.dir = 1 then 1 else 2) = (sOk, r) →
      LoadsKey s w w.a (if f.dir = 1 then 1 else 2) false r t → r.counted = false → r.alg = suiteAlg f.suite →
      exec (.saEpochKey w) s = .next (endWith (noteSoft (modFlow t i (fun g => g.setSlot k (newSlot 1 f.dir f.suite
        (if f.macsec then ((f.slot (1 - k)).an + 1) % 4 else 0) (w.f 56 4) 1 r t.now))) w.o w.t) w sOk)) ∧
    (∀ f, Runs 0x0A03 w s → (w.unused 0 && decide (i < 1048576) && w.z 52 64 && decide (w.len = 0) && w.fits 0) = true →
      ownFlow s w = some f → exec (.saWithdraw w) s = .next (flowDrained (releaseFacet (modFlow s i
        (fun f => { f.withdraw with waiters := [(w.o, w.t)] })) w) i)) ∧
    (∀ f, Runs 0x0A04 w s → (w.unused 0 && decide (i < 1048576) && w.z 52 64 && decide (w.len = 0) && w.fits 128) = true →
      ownFlow s w = some f → exec (.saStats w) s = .next (endWith s w sOk (flowStats f)))

/-- How owners are set, reset, erased, frozen, saved, restored and thawed. Rests on 14_owners_and_functions.md R359;
14_owners_and_functions.md R360; 14_owners_and_functions.md R361; 14_owners_and_functions.md R366; 14_owners_and_functions.md
R368; 14_owners_and_functions.md R369; 14_owners_and_functions.md R371; 14_owners_and_functions.md R372;
14_owners_and_functions.md R374; 14_owners_and_functions.md R375; 14_owners_and_functions.md R376; 05_key_custody.md R143. -/
def Obligations.OwnerCommandsComplete : Prop :=
  ∀ (w : Work) (s : State),
    let o := w.f 48 2
    let x := s.owner o;
    (let mask := w.f 56 8
     let t := writeOwner s o (cutBuckets (ownerFields x (maskedEntry s o mask w.input)));
     Runs 0x0C01 w s → w.o = 0 → (w.unused 0 && decide (o < 4096) && w.z 50 56 && decide (w.len = 64) && w.fits 0 &&
        setOk s o mask w.input) = true → x.state ≠ oAbsent →
      exec (.ownerSet w) s = .next (endChange (modeChanged t o x.mode) w sOk)) ∧
    (Runs 0x0C02 w s → w.mayTarget = true → (w.unused 0 && decide (o < 4096) && decide (w.f 50 1 ≤ 1) && w.z 51 64 &&
        decide (w.len = 0) && w.fits 0) = true → (x.state = oActive ∨ x.state = oResetting) →
      exec (.ownerReset w) s = .next (resetStart s w o (decide (w.f 50 1 = 1)))) ∧
    (let q := quorum s w 0x0140 8 o
     let x := q.s.owner o
     let t := setOwner q.s o { x with squash := true, selfReset := false, erasing := true, waiters := x.waiters ++ [(w.o, w.t)] }
     let u := if x.state = oActive then ownerTo t o oResetting else t;
     Runs 0x0140 w s → q.st = sOk → q.body = [] → w.mayTarget = true → (w.unused 0 && decide (o < 4096) && w.z 50 64 && w.fits 0) = true →
      o ≠ 0 → x.state ≠ oAbsent →
      exec (.ownerErase w) s = .next (releaseFacet (squashOwner (modFns u (fun _ f => decide (f.owner = o)) tdiError) o) w)) ∧
    (let q := quorum s w 0x0141 8 0;
     Runs 0x0141 w s → q.st = sOk → q.body = [] → w.o = 0 → (w.unused 0 && w.z 48 64 && w.fits 0) = true →
      exec (.deviceErase w) s = .next (requestReset (eraseShare (mirrorRelease (goDark q.s))) 5 2)) ∧
    (Runs 0x0C03 w s → w.o = 0 → (w.unused 0 && decide (o < 4096) && w.z 50 64 && decide (w.len = 0) && w.fits 0) = true → o ≠ 0 →
      x.state = oActive → exec (.ownerFreeze w) s =
        .next (releaseFacet (ownerTo (modOwner s o (fun x => { x with waiters := x.waiters ++ [(w.o, w.t)] })) o oFrozen) w)) ∧
    (∀ e, Runs 0x0C04 w s → w.o = 0 → (w.unused 0 && decide (o < 4096) && w.z 50 52 && w.z 60 64 && decide (w.len = 0) &&
        w.fits (blobLen s o)) = true → (x.state = oFrozen ∨ x.state = oSaved) → o ≠ 0 →
      memberOf s (fun b => decide (sliceBytes b 8 8 = sliceBytes w.inl 4 8)) = some e → e.1 ≠ Config.serial → e.2.2 ≠ [] →
      (s.foc.table.any (fun e => e.2.any (fun f => decide (f.st = fArmed) && decide (f.owner = o) &&
        (decide (f.typ = 1) || decide (f.typ = 5))))) = false →
      (unreleased s o).length ≤ 32768 → s.rngStopped = false →
      let n := drawBytes s 16
      let t := deriveOwnerKey (setOwner n.2 o { x with nonce := n.1, saveSec := s.nowSec }) o
      let r := resealAll t (t.ownerPages o)
      let b := sealBlob r.2 o e (blobBody r.2 o (saveKey (setOwner n.2 o { x with nonce := n.1, saveSec := s.nowSec }) o n.1));
      exec (.ownerSave w) s =
        .next (setsSettle (releaseFacet (setKs b.2 { b.2.ks with sets := b.2.ks.sets ++ [⟨0, o, w.o, w.t, r.1, b.1⟩] }) w))) ∧
    (let b := w.input
     let n := fun (a k : Nat) => leNat (sliceBytes b a k)
     let len := n 58 4
     let c := (b.drop 1736).take len
     let key := blobKey s b
     let iv := sliceBytes b 50 8 ++ [0, 0, 0, 0]
     let base := spaceOf s o * 1048576
     let save := n 40 6 * secNs + n 46 4;
     ∀ e l, Runs 0x0C05 w s → w.o = 0 → (w.unused 0 && decide (o < 4096) && w.z 50 64 && w.fits 0 && blobHead b) = true →
      gcmTag 3 key iv (b.take 1736) c = sliceBytes b (1736 + len) 16 → sections 7 1 (gcmCrypt 3 key iv c) = some l →
      sectionsOk l = true → sliceBytes b 24 16 = Config.serial → n 6 2 = o →
      memberOf s (fun x => decide (x = sliceBytes b 8 16)) = some e →
      certSigns e.2.2 (b.drop (1752 + len)) (b.take (1752 + len)) = true →
      s.now ≤ save + 3600 * secNs → save ≤ s.now + 60 * secNs → s.blobIds.contains (sliceBytes b 50 8) = false →
      x.state = oActive → o ≠ 0 → keysHeld s o = 0 → (unreleased s o).isEmpty = true →
      s.str.flows.all (fun e => !(e.2.any (fun f => decide (f.owner = o)))) = true →
      (pieces 32 (l.getD 5 [])).length ≤ (s.ownerCtxs o).length →
      let ps := blobPages l
      let live := (ps.map (fun p => p.2.1)).foldl (fun a k => a + k) 0;
      ps.all (fun p => decide (p.1 < 1048576) && decide (128 ≤ p.1) && decide ((s.leaf (base + p.1)).owner = 0xFFFF)) = true →
      protectedBytes s + live * 128 ≤ 6442450944 → live ≤ leNat (sliceBytes (l.getD 0 []) 32 4) → s.slots.length < 16 →
      exec (.ownerRestore w) s = .next (endChange (restoreOwner s o b l) w sOk)) ∧
    (let t := modOwner s o (fun y => { y with nonce := [] })
     let r := if x.nonce = [] then ([], t) else resealAll (deriveOwnerKey t o) (t.ownerPages o);
     Runs 0x0C06 w s → w.o = 0 → (w.unused 0 && decide (o < 4096) && w.z 50 64 && decide (w.len = 0) && w.fits 0) = true →
      (x.state = oFrozen → exec (.ownerThaw w) s = .next (setsSettle (endChange (ownerTo r.2 o oActive) w sOk))) ∧
      (x.state = oSaved → x.saveSec + 3660 ≤ s.nowSec → exec (.ownerThaw w) s = .next (setsSettle
        (releaseFacet (setKs r.2 { r.2.ks with sets := r.2.ks.sets ++ [⟨1, o, w.o, w.t, r.1, []⟩] }) w))))

/-- How resets, freezes and restores end, and how programs and roles change. Rests on 14_owners_and_functions.md R368;
14_owners_and_functions.md R371; 14_owners_and_functions.md R375; 05_key_custody.md R143; 03_facet_programs.md R66;
03_facet_programs.md R67; 03_facet_programs.md R69; 01_shape_of_the_device.md R16; 04_key_store.md R98;
07_transaction_commands.md R202. -/
def Obligations.OwnerEventsAndProgramsComplete : Prop :=
  ∀ (w : Work) (o : Fin 4096) (s : State),
    let x := s.owner o;
    (resetDrained s o = true →
      (x.state = oResetting → x.erasing = false → exec (.ownerResetComplete o) s = .next (resetEnd s o)) ∧
      (x.erasing = true → s.ks.sets.any (fun y => decide (y.what = 2) && decide (y.target = o.val)) = false →
        exec (.ownerResetComplete o) s = .next (eraseOwner s o))) ∧
    (x.state = oFrozen → x.erasing = false → frozenIdle s o = true → exec (.freezeDrained o) s = .next (endWaiters s o)) ∧
    (x.state = oRestoring → s.ks.await.any (fun p => decide ((s.leaf p).owner = o.val)) = false →
      s.ks.sets.any (fun x => decide (x.what = 3) && decide (x.target = o.val)) = false →
      let t := { s with ownKeys := tset none s.ownKeys o (some (ownerKey s o)) }
      let pages := (t.ownerPages o).filter (fun p => !((t.leaf p).lost))
      let t2 := setKs t { t.ks with recs := tmap KeyRec.empty (fun i r =>
        if pages.contains (pageOf i) ∧ r.live then { r with origin := 4 } else r) t.ks.recs }
      let r := resealAll t2 pages;
      exec (.restorePagesLive o) s =
        .next (setsSettle (setKs r.2 { r.2.ks with sets := r.2.ks.sets ++ [⟨3, o, 0, 0, r.1, []⟩] }))) ∧
    exec .treeBatchCommit s = .next (setsSettle (treeCommit s)) ∧
    (let q := quorum s w 0x0C10 7 w.o
     let hold := decide (w.f 48 1 = 1)
     let g := (progParse q.body false).1;
     Runs 0x0C10 w s → q.st = sOk → leNat (sliceBytes q.body 8 2) = 32768 + w.o →
      (w.unused 0 && decide (w.f 48 1 ≤ 1) && w.z 49 64 && w.fits 4) = true → (∀ c ∈ installChecks q.s q.body hold, c.1 = true) →
      exec (.programInstall w) s =
        .next (endChange (setProg q.s (installKey g hold) (some g)) w sOk (leBytes 2 g.entry.id ++ [0, 0]))) ∧
    (let q := quorum s w 0x0C11 7 w.o
     let k := progKey (32768 + w.o) (w.f 48 2)
     let h := heldKey (32768 + w.o) (w.f 48 2);
     Runs 0x0C11 w s → q.st = sOk → q.body = [] → ((tget none q.s.progs k).isSome ∨ (tget none q.s.progs h).isSome) →
      (w.unused 0 && w.z 50 64 && w.fits 0) = true →
      exec (.programRemove w) s = .next (endChange (setProg (setProg q.s k none) h none) w sOk)) ∧
    (let hit := fun (n : Nat) => decide (n = w.f 48 1)
     let role := w.f 49 1;
     Runs 0x0C20 w s → w.o = 0 → (w.unused 0 && decide (w.f 48 1 < 64) && decide (role ≤ 2) && w.z 50 64 && decide (w.len = 0) &&
        w.fits 0) = true → s.wear.removed.contains (w.f 48 1) = false → 2 ≤ custodyAfter s hit role →
      exec (.roleSet w) s = .next (endWith (setRoles s hit role) w sOk)) ∧
    (∀ (op : Fin 1024) g i r, Runs (0x8000 + op) w s → entryFor s w.o (0x8000 + op) w.acc = some g →
      jrRunning s w.o w.t = some (i, r) → r.facet ≠ 0 →
      exec (.ownerEntryCommand w op) s = .next (showEntry (s.modFacet (r.facet - 1) (fun f =>
        loadWindow { f with entry := some g.entry, first := some g.entry, pc := g.start } g)) (r.facet - 1)))

/-- How functions, SPDM sessions, IDE streams and TDIs change. Rests on 14_owners_and_functions.md R357;
14_owners_and_functions.md R358; 14_owners_and_functions.md R378; 14_owners_and_functions.md R379; 14_owners_and_functions.md
R380. -/
def Obligations.FunctionCommandsComplete : Prop :=
  ∀ (port : Fin 4) (s : State),
    let p := port.val
    let h := s.hport p;
    (∀ n : Fin 1025, n.val ≤ h.total →
      let t := (List.range (h.num - n)).foldl (fun (s : State) k => flrOne s (p * 2048 + n + k + 1)) s;
      exec (.numvfsWrite port n) s = .next (setHport t p { t.hport p with num := n })) ∧
    (∀ v : Fin 1024, s.fnPresent (fnNum ⟨port, some v⟩) = true →
      exec (.functionLevelReset ⟨port, some v⟩) s = .next (flrOne s (p * 2048 + v + 1))) ∧
    (let t := (List.range h.num).foldl (fun (s : State) v => flrOne s (p * 2048 + v + 1)) s;
     exec (.functionLevelReset ⟨port, none⟩) s = .next (flrOne (setHport t p { h with num := 0 }) (p * 2048))) ∧
    (let t := flr ⟨port, none⟩ (h.ide.foldl (fun (s : State) k => streamLost s p k) s)
     let u := if (t.hport p).up then evLatch t (116 + p) else t;
     exec (.portHotReset port) s =
      .next (setHport u p { u.hport p with up := false, spdm := 0, session := false, ide := [], ideKeys := [] })) ∧
    (∀ m, exec (.spdmRequest port false m) s = .next { (spdmReply p m s).2 with out := (spdmReply p m s).1 } ∧
      (s.vaux = true → s.mainUp = true → exec (.spdmRequest port true m) s = .next
        { (spdmReply 4 m s).2 with out := (spdmReply 4 m s).1, sent := (spdmReply 4 m s).2.sent ++ [.psc (spdmReply 4 m s).1] })) ∧
    (h.session = true → exec (.ideKm port .query) s = .next { s with out := [1] ++ leBytes 1 64 ++ h.ide.flatMap (leBytes 1) } ∧
      (∀ stream sub tx key, key.length = 32 → exec (.ideKm port (.keyProg stream sub tx key)) s =
        .next { setHport s p { h with ideKeys := tset [] h.ideKeys (ideKey stream.val sub.val tx) key } with out := [3, 0] }) ∧
      (∀ stream, h.flit = true → (∀ sub < 3, ∀ tx, tget [] h.ideKeys (ideKey stream.val sub tx) ≠ []) →
        exec (.ideKm port (.setGo stream)) s = .next { setHport s p { h with ide := sput h.ide stream.val } with out := [6, 0] }) ∧
      (∀ stream, exec (.ideKm port (.setStop stream)) s =
        .next { streamLost (setHport s p { h with ide := sdel h.ide stream.val }) p stream.val with out := [6, 0] })) ∧
    (∀ (vf : Fin 1024) (stream : Fin 65), let fn := p * 2048 + vf.val + 1
      let f := s.fn fn;
      (f.tdi = 0 → s.fnPresent fn = true → (s.owner f.owner).state = oActive → stream.val ≠ 0 → h.ide.contains stream.val = true →
        exec (.lockInterface port vf stream) s = .next { setFn (drawBytes s 32).2 fn { f with
          tdi := 1, stream := stream + 1, mode := (s.owner f.owner).mode } with out := (drawBytes s 32).1 }) ∧
      exec (.stopInterface port vf) s = .next { setFn s fn { f with tdi := 0, stream := 0, mode := 0, held := [] } with sent := s.sent ++ f.held })

/-- What each focus action does when its instant arrives, and how entries leave the table. Rests on 10_focus_and_time.md
R287; 10_focus_and_time.md R289; 10_focus_and_time.md R291; 10_focus_and_time.md R292; 10_focus_and_time.md R293;
10_focus_and_time.md R294; 10_focus_and_time.md R296; 09_stream_protection.md R265; 09_stream_protection.md R266;
05_key_custody.md R137; 01_shape_of_the_device.md R16; 14_owners_and_functions.md R366. -/
def Obligations.FocusActionsComplete : Prop :=
  ∀ (e : Fin 4096) (x : FEntry) (s : State),
    let t := timeAt s x.instant
    let n := fun (o k : Nat) => leNat (sliceBytes x.params o k)
    let fin := fun (u : State) (outcome : Nat) => setEntry u e (some { x with st := fDone, outcome := outcome });
    (∀ i, Arrives s e 1 x → entryKey t x = some i →
      exec (.focusKeyActivate e) s = .next (fin (activate (noteAct t x.owner (n 0 4) x.instant) i x.instant) 1)) ∧
    (Arrives s e 2 x →
      let one := fun (acc : Bool × State) (q : Nat × Option Flow) => match q.2 with
        | some f =>
          if q.1 < n 0 4 ∨ n 0 4 + n 4 4 ≤ q.1 ∨ !((n 16 1).testBit (1 - f.dir)) ∨ f.withdrawn then acc
          else if f.owner ≠ x.owner then (true, acc.2)
          else
            let d := flowSwitch acc.2 q.1 (n 8 4) x.instant (n 12 4 * 1000);
            (acc.1 || !d.1, d.2)
        | none => acc
      let r := t.str.flows.foldl one (false, t);
      exec (.epochSwitch e) s = .next (fin r.2 (if r.1 then 2 else 1))) ∧
    (Arrives s e 3 x → exec (.batchCut e) s = .next (fin (setFoc t { t.foc with cuts := t.foc.cuts ++ [(x.instant, n 0 8, n 8 2)] }) 1)) ∧
    (Arrives s e 4 x → let hit := fun (k : Nat) => (n 0 8).testBit k
      2 ≤ custodyAfter t hit (byteAt x.params 8) → exec (.roleChange e) s = .next (fin (setRoles t hit (byteAt x.params 8)) 1)) ∧
    (Arrives s e 5 x → let sg := 32768 + x.owner
      (∀ id ∈ swapIds x.params, (tget none t.progs (heldKey sg id)).isSome = true) →
      exec (.programSwap e) s = .next (fin (progSettle ((swapIds x.params).foldl (fun s id =>
        let u := match tget none s.progs (progKey sg id) with
          | some g => setProg s (oldPlace s sg id) (some { g with swapped := x.instant })
          | none => s
        setProg (setProg u (progKey sg id) (tget none u.progs (heldKey sg id))) (heldKey sg id) none) t)) 1)) ∧
    (Arrives s e 6 x → (t.owner (n 0 2)).state ≠ oAbsent →
      exec (.rateChange e) s = .next (fin (writeOwner t (n 0 2) (rateFields x.params (t.owner (n 0 2)))) 1)) ∧
    (s.fentry e = some x → x.st = fAdding → x.instant ≤ s.now + mtNs → exec (.focusAddingTimeout e) s =
      .next (entryDrop (if s.timeSource ∧ !s.alone then focusSend s 255 4 e none else s) e)) ∧
    (s.fentry e = some x → (x.st = fDone ∨ x.st = fRefused) → x.instant + 1600 * mtNs ≤ s.now →
      entryPinned s x = false →
      exec (.focusEntryFree e) s = .next (setEntry s e none))

/-- How focus entries are added, cancelled and read, and how time is sampled, kept and read. Rests on 10_focus_and_time.md
R276; 10_focus_and_time.md R277; 10_focus_and_time.md R278; 10_focus_and_time.md R279; 10_focus_and_time.md R280;
10_focus_and_time.md R281; 10_focus_and_time.md R283; 10_focus_and_time.md R284; 10_focus_and_time.md R290;
07_transaction_commands.md R200; 07_transaction_commands.md R201; 18_start_reset_clocks_power.md R451. -/
def Obligations.FocusCommandsAndTimeComplete : Prop :=
  ∀ (w : Work) (s : State),
    (let typ := w.f 48 1
     let t := w.f 52 6 * secNs + w.f 58 4
     let b := w.input;
     ∀ u, Runs 0x0B01 w s → (typ = 2 ∨ (w.o = 0 ∧ (typ = 3 ∨ typ = 4 ∨ typ = 6))) →
      (w.unused 0 && w.z 49 52 && w.z 62 64 && decide (w.f 58 4 < secNs) && w.fits 4 && paramsOk s w.o typ b) = true →
      (typ ≠ 2 ∨ flowsOwned s w.o b = true) → s.now + 2 * mtNs ≤ t →
      (typ ≠ 3 ∨ cutOk s t (leNat (sliceBytes b 0 8)) (leNat (sliceBytes b 8 2)) = true) →
      focusAdd (releaseFacet s w) ⟨typ, fAdding, w.o, t, s.nodeId, 0, b, w.t, []⟩ = some u → exec (.focusAdd w) s = .next u) ∧
    (let e := w.f 48 2
     let t := entryRemove s e;
     ∀ x, Runs 0x0B02 w s → (w.unused 0 && decide (e < 4096) && w.z 50 64 && decide (w.len = 0) && w.fits 0) = true → s.fentry e = some x → x.st = fArmed →
      x.typ ≠ 1 → (w.o = 0 ∨ x.owner = w.o) → s.now + 2 * mtNs ≤ x.instant →
      (t.alone = true → exec (.focusCancel w) s = .next (endChange t w sOk)) ∧
      (t.alone = false → exec (.focusCancel w) s = .next (releaseFacet
        (setFoc t { t.foc with removing := t.foc.removing ++ [(e, w.o, w.t, t.members.erase t.nodeId)] }) w))) ∧
    (Runs 0x0B03 w s → (w.unused 0 && w.z 48 64 && decide (w.len = 0) && w.fits 16) = true →
      exec (.timeRead w) s = .next (endWith s w sOk (leBytes 6 s.nowSec ++ leBytes 4 s.nowNs ++ leBytes 1 (s.get F.FOC_TCFG_SRC) ++
        leBytes 1 (s.get F.FOC_TSTAT_STATE) ++ leBytes 4 (s.get F.FOC_OFFSET)))) ∧
    (∀ x, Runs 0x0B04 w s → (w.unused 0 && decide (w.f 48 2 < 4096) && w.z 50 64 && decide (w.len = 0) && w.fits 64) = true → s.fentry (w.f 48 2) = some x →
      (w.o = 0 ∨ x.owner = w.o) → exec (.focusRead w) s = .next (endWith s w sOk (entryBytes x))) ∧
    (∀ port sub transport domain src m, s.get F.FOC_TCFG_SRC = 1 → s.get F.FOC_TCFG_PTP_PORT = port.val →
      s.get F.FOC_TCFG_PTP_SUB = sub.val → s.get F.FOC_TCFG_PTP_TRANSPORT = transport.val → s.get F.FOC_TCFG_DOMAIN = domain.toNat →
      exec (.ptpMessage port sub transport domain src m) s = .next (ptpMsg src m s) ∧
      (∀ seq received corr n t3 there, bestMaster s.foc.ptp.masters = some src → s.foc.ptp.req = some (n, t3, there) → n = seq.toNat →
        ptpMsg src (.delayResp seq received corr) s = sampleOff (setPtp s { s.foc.ptp with req := none })
          ((there - ((received * ptpNs : Nat) - corr - (t3 : Int))) / (2 * (ptpNs : Int))))) ∧
    (∀ stamp, s.get F.FOC_TCFG_SRC = 2 →
      let u := timeAt (setFoc s { s.foc with tod := none, edge := stamp }) stamp;
      exec (.ppsEdge stamp) s = .next (match s.foc.tod with
        | some sec =>
          let v := sample u stamp (sec * secNs)
          setFoc v { v.foc with edge := stamp + (v.now - u.now) }
        | none => u)) ∧
    (∀ stamp b, let good := todOk b = true ∧ s.foc.edge + 100000000 ≤ stamp ∧ stamp ≤ s.foc.edge + 900000000;
      (good → exec (.todMessage stamp b) s = .next (setFoc s { s.foc with tod := some (beNat (sliceBytes b 4 6)) })) ∧
      (¬good → exec (.todMessage stamp b) s =
        .next (setFoc (s.raise F.FOC_TSTAT_TOD_ERR) { s.foc with tod := none }))) ∧
    ((s.foc.own = 1 ∨ s.foc.own = 2) → exec .sampleTimeout s = .next (setOwn (setPtp s PtpSt.zero) 3)) ∧
    (s.is F.FOC_TCFG_PPS_OUT_EN = true → s.foc.runs = true →
      let second := (s.now + secNs - 1) / secNs * secNs
      let t := setFoc (timeAt s second) { (timeAt s second).foc with ppsUntil := second + 100000000 }
      exec .ppsOutPulse s = .next { t with sent := t.sent ++ [.pps t.ppsOut] }) ∧
    exec .timeFloorWrite s = .next (behindUpdate (setFoc s { s.foc with floor := max s.foc.floor s.foc.greatest })) ∧
    (s.get F.DEV_START_STAGE = 8 → s.foc.runs = true → s.foc.floor < s.now → s.rst.level = 0 → s.lc.alarms = [] → s.rst.pfail = false → noneDue s = true →
      exec .timeFloorPassed s = .next { s with rst := { s.rst with accOpen := true } }) ∧
    (∀ a v, s.outOfReach a 0x80000 = false → s.isPrimary a = true → (bitsOf v 30 2 = 0 ∨ bitsOf v 30 2 = 3) →
      let u := (((s.poke F.FOC_TCFG_SRC 0).poke F.FOC_TCFG_PTP_PORT (bitsOf v 26 4)).poke F.FOC_TCFG_PTP_SUB (bitsOf v 24 2)).poke
        F.FOC_TCFG_PTP_TRANSPORT (if bitsOf v 22 2 = 3 then 0 else bitsOf v 22 2)
      let u := (((u.poke F.FOC_TCFG_DOMAIN (bitsOf v 15 7)).poke F.FOC_TCFG_PPS_OUT_EN (bitsOf v 14 1)).poke F.FOC_TCFG_PPS_POL
        (bitsOf v 13 1)).poke F.FOC_TCFG_PRIORITY (bitsOf v 8 4);
      exec (.timeSourceWrite a v) s = .next (behindUpdate (if u.timeSource ∧ u.foc.own ≠ 0 then setOwn u 0 else u)))

/-- How doorbells, queue enables, entry reads and releases act. Rests on 06_accepted_work.md R147; 06_accepted_work.md R148;
06_accepted_work.md R151; 06_accepted_work.md R153; 06_accepted_work.md R155; 06_accepted_work.md R160; 06_accepted_work.md
R162; 06_accepted_work.md Table 06.12; 06_accepted_work.md R168; 14_owners_and_functions.md R363; 14_owners_and_functions.md
R364. -/
def Obligations.QueueCommandsComplete : Prop :=
  ∀ (c : Fin 16384) (s : State),
    (∀ a, s.outOfReach a 0x400000 = false → s.ownsCtx a c = true →
      (∀ v : BitVec 16, let n := s.sqSize c
        let ah := s.get F.QP_AH_AH c
        v.toNat < n → (s.get F.QP_SQ_TAIL_TAIL c + n - ah % n) % n ≤ (v.toNat + n - ah % n) % n →
        exec (.sqTailDoorbell a c v) s = .next (s.poke F.QP_SQ_TAIL_TAIL v.toNat c)) ∧
      (∀ v : BitVec 16, let n := s.cqSize c
        let old := s.get F.QP_CQ_HEAD_CH c % n
        v.toNat < n → (v.toNat + n - old) % n ≤ (s.get F.QP_CQ_TAIL_TAIL c + n - old) % n →
        exec (.cqHeadDoorbell a c v) s = .next (releaseTo s c v.toNat)) ∧
      (∀ v, (s.owner (s.ctxOwner c)).state ≠ oStandby → s.flrOpen c = false → s.is F.QP_CTRL_ENABLE c = false →
        let t := ((ctrlFields s c v).poke F.QP_SQ_TAIL_TAIL 0 c).poke F.QP_AH_AH 0 c
        let t := (t.poke F.QP_CQ_HEAD_CH 0 c).poke F.QP_CQ_TAIL_TAIL 0 c
        let t := (t.poke F.QP_CH_DUR_DUR 0 c).poke F.QP_CQ_TAIL_PHASE 1 c
        let t := (t.poke F.QP_CTRL_ENABLE 1 c).poke F.QP_STATUS_RUN 1 c
        exec (.qpEnable a c v) s = .next (showQueue (modQueue t c (fun q => { q with readIdx := 0, reading := [] })) c)) ∧
      (∀ v, s.is F.QP_CTRL_ENABLE c = true → unposted s c = false →
        let u := unreadAll (ctrlFields s c v) c
        exec (.qpDisable a c v) s =
          .next ((((releaseTo u c (u.get F.QP_CQ_TAIL_TAIL c)).poke F.QP_CTRL_ENABLE 0 c).poke F.QP_STATUS_RUN 0 c).poke F.QP_STATUS_JFULL 0 c))) ∧
    (∀ b, let t := max s.now (s.queue c).lastAcc
      let i := lowestFree (s.jr.recs.length + 1) 0 (fun k => (tget none s.jr.recs k).isSome)
      nextQueue s = some c.val → s.redrains (s.ctxOwner c) = false → limitTotal s = false →
      (dmaAccess s (s.ctxFn c) (s.sqEntry c) 64 false).1 = true →
      (∀ st, classify s c t b = .status st none →
        exec (.sqEntryRead c b) s = .next (readTaken s c i { newRec s c t 0 b with pre := some st } 0 true)) ∧
      (∀ st k, classify s c t b = .status st (some k) →
        exec (.sqEntryRead c b) s = .next (readTaken (event s 3 evDigest stewardSrc (s.ctxOwner c) (leBytes 6 (subField b 4 6))) c i
          { newRec s c t 0 b with pre := some st, answer := true, orig := k } 0 true)) ∧
      (∀ k, classify s c t b = .answer k →
        exec (.sqEntryRead c b) s = .next (readTaken s c i { newRec s c t 0 b with answer := true, orig := k } 0 true)) ∧
      (∀ k r, classify s c t b = .recovered k → tget none s.jr.recs k = some r → r.ctx = c →
        exec (.sqEntryRead c b) s = .next (showQueue ((readTaken s c k { r with
            st := .stamped, sub := fitBytes 64 b, again := r.comp.isSome, recovered := true, accMram := true, accAck := true
            ahNext := ((s.queue c).readIdx + 1) % s.sqSize c } 0 false).poke F.QP_STATUS_RECOVER_LEFT
          (s.get F.QP_STATUS_RECOVER_LEFT r.ctx - 1) r.ctx) r.ctx)) ∧
      (∀ mode, classify s c t b = .run mode → limitFor s mode = false →
        let slot := if mode = 1 ∨ mode = 3 then
            some (lowestFree (s.jr.recs.length + 1) 0 (fun k => s.jr.recs.any (fun e => (e.2.bind (fun r => r.slot)) == some k)))
          else none
        let r := { newRec s c t mode b with slot := slot }
        let u := readTaken s c i r (subField b 32 4) true
        exec (.sqEntryRead c b) s =
          .next (if 2 ≤ mode then mirrorHalf u i false (accHalf r (jrAddr i) ++ r.sub ++ leBytes 2 (u.get F.QP_ID_QPN c)) else u))) ∧
    exec .tokenRefill s = .next { s with own := tmap Owner.absent (fun _ x => if x.state = oAbsent then x else { x with
      cmdTok := min (x.cmdDepth * tokenUnit) (x.cmdTok + x.cmdRate * 100)
      byteTok := min ((x.byteDepth * tokenUnit : Nat) : Int) (x.byteTok + ((x.byteRate * 100 : Nat) : Int)) }) s.own } ∧
    ((s.queue c).relDue = true → s.fenced (s.ctxOwner c) = false → exec (.releaseMarkWrite c) s = .next (writeMark s c)) ∧
    exec (.releaseDurable c) s = .next (releaseSettle s c)

/-- How accepted work is dispatched, completed and posted. Rests on 06_accepted_work.md R151; 06_accepted_work.md R157;
06_accepted_work.md R158; 06_accepted_work.md R163; 06_accepted_work.md R164; 06_accepted_work.md Table 06.10;
06_accepted_work.md Table 06.11; 06_accepted_work.md Table 06.16; 07_transaction_commands.md R184; 14_owners_and_functions.md
R365. -/
def Obligations.JournalCommandsComplete : Prop :=
  ∀ (s : State),
    (∀ (i : Fin 1048576) r, tget none s.jr.recs i = some r →
      (r.st = .stamped → s.fenced r.owner = false → exec (.acceptanceConditionMet i) s =
        .next (acceptQueue (jrSet s i (some { r with accMram := r.accMram || decide (r.mode ≠ 2) || r.slot.isSome })) r.ctx)) ∧
      (r.comp.isSome = true → s.fenced r.owner = false → exec (.completionConditionMet i) s =
        .next (compSettle (jrSet s i (some { r with compMram := r.compMram || decide (r.mode ≠ 2) || r.slot.isSome })) i))) ∧
    (∀ (p : Fin 72) input e,
      let go := fun (u : State) =>
        let d := dmaAccess u (u.ctxFn e.2.ctx) (subField e.2.sub 24 8) (min 4096 (subField e.2.sub 32 4)) false
        let t := startCommand d.2 p e.1 e.2 (if d.1 then input else [])
        if (opDefined (byteAt e.2.sub 2) e.2.opcode && verOk t (byteAt e.2.sub 2)) = false then
          finishCommand t e.2.owner e.2.tag sUnsupported []
        else if d.1 then t else finishCommand t e.2.owner e.2.tag sDenied []
      (facetFree s p 2 = true → oldestCustody (heads s) = some e → exec (.commandDispatch p input) s = .next (go s)) ∧
      (∀ u, facetFree s p 2 = false → facetFree s p 1 = true →
        let l := (heads s).filter (fun e => !(isCustody e.2.opcode e.2.sub))
        let t := clearDeficits s l
        resumeReady t = none → drr (5000 * (t.own.length + 1)) t l = (some e, u) → exec (.commandDispatch p input) s = .next (go u))) ∧
    (∀ (c : Fin 16384) i r x, (s.ctxRecs c).find? (fun e => e.2.cq.isNone) = some (i, r) → cqeOf s r = some x → r.st = .done →
      let n := s.cqSize c
      let tail := s.get F.QP_CQ_TAIL_TAIL c
      let fn := s.ctxFn c
      s.is F.QP_CTRL_ENABLE c = true → (tail + 1) % n ≠ s.get F.QP_CQ_HEAD_CH c → s.fenced r.owner = false → s.dmaStopped fn = false →
      r.answer = false → r.again = false →
      let base := s.get F.QP_CQ_BASE_LO_ADDR_LO c * 4096 + s.get F.QP_CQ_BASE_HI c * 4294967296
      let t := dmaWrite s fn (base + tail * 32) (cqeBytes r x (s.get F.QP_CQ_TAIL_PHASE c) (s.get F.QP_AH_AH c))
      let t := (jrSet t i (some { r with cq := some tail })).poke F.QP_CQ_TAIL_TAIL ((tail + 1) % n) c
      let t := if tail + 1 = n then t.poke F.QP_CQ_TAIL_PHASE (1 - t.get F.QP_CQ_TAIL_PHASE c) c else t
      exec (.completionPost c) s =
        .next (if t.is F.QP_CTRL_INT_EN c then raiseVector t fn (t.get F.QP_CTRL_VECTOR c) else t))

/-- How noise sources, conditioners, entropy requests and the steward's check-value unit act. Rests on
12_entropy_and_check_values.md R314; 12_entropy_and_check_values.md R315; 12_entropy_and_check_values.md R316;
12_entropy_and_check_values.md R317; 12_entropy_and_check_values.md R318; 12_entropy_and_check_values.md R320;
12_entropy_and_check_values.md R321; 12_entropy_and_check_values.md R329; 12_entropy_and_check_values.md Table 12.11. -/
def Obligations.EntropyCommandsComplete : Prop :=
  ∀ (s : State),
    (∀ (n : Fin 28) apt, (s.source n).st = .active →
      let t := if apt then s.incSat F.RNG_FAILS_APT else s.incSat F.RNG_FAILS_RCT
      let u := excludeSource { t with rng := { t.rng with fifo := [] } } n
      exec (.sourceTestFailure n apt) s =
        .next (rngUpdate (replaceSource (event u 3 evSrcFail 130 0xFFFF (leBytes 1 n ++ leBytes 1 (b2n apt))) (srcKind n)))) ∧
    (∀ (n : Fin 28) apt, (s.source n).st = .testing true →
      exec (.startupTestEnd n true apt) s = .next (rngUpdate (s.setSource n { s.source n with st := .active })) ∧
      exec (.startupTestEnd n false apt) s = .next (rngUpdate (replaceSource (excludeSource (countFail s apt) n) (srcKind n)))) ∧
    (∀ n : Fin 28, (s.source n).st = .excluded →
      exec (.sourceRetest n) s = .next (s.beginTest n false)) ∧
    (∀ (c : Fin 8) (chunks : List Chunk),
      let sum := fun (k : Nat) => ((chunks.filter (fun x => srcKind x.source.val == k)).length) * kindChunk k
      let tot := sum 0 + sum 1 + sum 2;
      (∀ x ∈ chunks, s.srcActive x.source.val = true ∧ x.data.length = 64) → 512 ≤ tot →
      320 ≤ tot - max (sum 0) (max (sum 1) (sum 2)) → s.rng.fifo.length + 32 ≤ 16384 →
      let n := tget 0 s.rng.counters c
      let u := (testChunks s chunks).1
      let t := { u with rng := { u.rng with
        counters := tset 0 s.rng.counters c ((n + 1) % 2 ^ 56)
        fifo := s.rng.fifo ++ sha256 (leBytes 1 c ++ beBytes 7 n ++ chunks.flatMap (fun x => x.data)) } }
      ((testChunks s chunks).2 = [] → exec (.conditionerBlockClose c chunks) s = .next (rngServe s.rng.waiting.length t)) ∧
      (∀ n apt, (testChunks s chunks).2 = [(n, apt)] → exec (.conditionerBlockClose c chunks) s =
        .next (rngServe (srcFailure n apt u).rng.waiting.length (srcFailure n apt u)))) ∧
    (∀ consumer (bits : Fin 257),
      (s.rngStopped = true → exec (.entropyRequest consumer bits) s = .next { s with out := leBytes 2 0x42 }) ∧
      (s.rngStopped = false → exec (.entropyRequest consumer bits) s = .next (rngServe (s.rng.waiting.length + 1)
        { s with rng := { s.rng with waiting := s.rng.waiting ++ [(consumer, bits.val)] } }))) ∧
    (∀ a, s.outOfReach a 0x70800 = false → s.isPrimary a = true →
      let poly := s.get F.CVU_CTRL_POLY
      let start := cvStart poly (if s.is F.CVU_CTRL_CTX then some (s.get64 F.CVU_CTX_LO) else none)
      exec (.cvuStart a) s = .next (({ s with cv := some ⟨poly, start⟩ }).put64 F.CVU_RESULT_LO (cvFinish poly start)) ∧
      (∀ v x, s.cv = some x →
        let reg := cvFeed x.poly x.reg (leBytes (if s.get F.CVU_CTRL_NBYTES = 0 then 4 else s.get F.CVU_CTRL_NBYTES) v.toNat)
        exec (.cvuDataWrite a v) s =
          .next (({ s with cv := some { x with reg := reg } }).put64 F.CVU_RESULT_LO (cvFinish x.poly reg))))

/-- Every facet event completes: lens releases and self-tests, budgets, hangs, check-value self-tests, drains, substitution
and ageing. Rests on 02_facets_and_lenses.md R30; 02_facets_and_lenses.md R31; 02_facets_and_lenses.md R33;
02_facets_and_lenses.md R51; 02_facets_and_lenses.md R52; 03_facet_programs.md R70; 20_faults_wear_limits.md R480;
20_faults_wear_limits.md R482; 20_faults_wear_limits.md R486; 20_faults_wear_limits.md R487; 12_entropy_and_check_values.md
R328; 20_faults_wear_limits.md R489. -/
def Obligations.FacetEventsComplete : Prop :=
  ∀ (p : Fin 72) (e : Ecc) (s : State),
    (∀ o r, (s.facet p).lens = o :: r →
      exec (.lensBlockRelease ⟨p, e, []⟩ true) s = .next (lensRelease s p) ∧
      (∀ b, o.dst = .reg b → o.fold = 0 → ∃ t, exec (.lensBlockRelease ⟨p, e, []⟩ true) s = .next t ∧ (t.facet p).lens = r ∧
        tget BReg.zero (t.facet p).b b = ⟨lensOp o.alg o.dir o.key o.input ^^^ o.xorWith, false, false, false, true⟩) ∧
      exec (.lensBlockRelease ⟨p, e, []⟩ false) s = .next (lensFault s p o.lens)) ∧
    ((s.facet p).lens = [] → runningSlot (s.facet p) = none → ∀ good, exec (.lensBlockRelease ⟨p, e, []⟩ good) s = .next s) ∧
    (∀ lens, exec (.lensSelfTest p lens true) s = .next s ∧ exec (.lensSelfTest p lens false) s = .next (lensFault s p lens)) ∧
    ((s.facet p).work ≠ .none → exec (.cycleBudgetExhausted ⟨p, e, []⟩) s = .next (abandon s p 7 sInternal)) ∧
    (∀ c l, ((l.foldl (meet p) (meet p s c)).facet p).work ≠ .none →
      exec (.cycleBudgetExhausted ⟨p, e, c :: l⟩) s = .next (meetEnd (abandon (l.foldl (meet p) (meet p s c)) p 7 sInternal) p)) ∧
    ((s.facet p).work = .none → exec (.cycleBudgetExhausted ⟨p, e, []⟩) s = .next s ∧ exec (.facetHang p) s = .next s) ∧
    (∀ ctx aseq i r, (s.facet p).work = .cmd ctx aseq → jrFind s ctx aseq = some (i, r) → exec (.facetHang p) s =
      .next (facetFault (event (facetEnd (jrMod s i (fun r => { r with st := .accepted, facet := 0 })) p) 4 evHang p 0xFFFF
        (leBytes 1 p)) p 6)) ∧
    (∀ u, exec (.cvuSelfTest u true) s = .next s) ∧ exec (.cvuSelfTest .keyStore false) s = .next (critical s 4) ∧
    exec (.cvuSelfTest .steward false) s = .next (critical s 4) ∧
    exec (.cvuSelfTest .ring false) s = .next (event s 4 evRingCv 134) ∧
    ((s.facet p).work = .none → exec (.cvuSelfTest (.facet p) false) s = .next (facetFault s p 4)) ∧
    ((s.facet p).work ≠ .none → exec (.cvuSelfTest (.facet p) false) s = .next (facetFault (abandon s p 8 sInternal) p 4)) ∧
    (∀ r, s.is F.FCT_MAP_VALID p = true → s.get F.FCT_MAP_STATE p = mapDraining → s.busy p = false →
      s.wear.queue.contains p.val = false → (s.facet p).nextRole = r + 1 → exec (.facetDrained p) s =
      .next (((loadLibrary (s.setFacet p { clearFacet (s.facet p) with nextRole := 0 }) p r).poke F.FCT_MAP_ROLE r p).poke
        F.FCT_MAP_STATE mapActive p)) ∧
    (s.is F.FCT_MAP_VALID p = false → exec (.facetDrained p) s = .next s) ∧
    (∀ rest q, s.wear.sub = none → s.wear.queue = p.val :: rest → s.busy p = false → s.is F.FCT_MAP_VALID p = true →
      lowestSpare s = some q → exec .substitution s = .next (wearUpdate (
        let t := ((setDomain s q true).poke F.FCT_MAP_STATE mapTest q).poke F.FCT_MAP_STATE mapDraining p
        { t with wear := { t.wear with sub := some ⟨p, s.get F.FCT_MAP_LOGICAL p,
          (if (s.facet p).nextRole = 0 then s.get F.FCT_MAP_ROLE p else (s.facet p).nextRole - 1), q⟩ } }))) ∧
    (s.wear.sub = none → ∀ pass, exec (.spareTested pass) s = .next s) ∧
    (∀ x, s.wear.sub = some x →
      let t := retireDone { s with wear := { s.wear with sub := none, queue := s.wear.queue.erase x.old, count := s.wear.count + 1 } } x.old
      let t := loadLibrary (t.setFacet x.spare Facet.zero) x.spare x.role
      let t := (t.poke F.FCT_MAP_LOGICAL x.logical x.spare).poke F.FCT_MAP_ROLE x.role x.spare
      let t := (t.poke F.FCT_MAP_VALID 1 x.spare).poke F.FCT_MAP_STATE mapActive x.spare
      let u := decideRetire { s with wear := { s.wear with sub := none } } x.spare 8 false
      exec (.spareTested true) s =
        .next (wearUpdate ((t.poke F.FCT_SUBST_NUMBER t.wear.count x.spare).poke F.FCT_SUBST_FROM x.old x.spare)) ∧
      exec (.spareTested false) s =
        .next (wearUpdate (retireDone { u with wear := { u.wear with queue := u.wear.queue.erase x.spare } } x.spare))) ∧
    (∀ l, exec (.ageingMeasurement l) s = .next (wearUpdate (l.foldl ageOne s)))

/-- How Huxel arrays take units, end them, zero and go offline. Rests on 11_huxel_arrays.md R297; 11_huxel_arrays.md R302;
11_huxel_arrays.md R303; 11_huxel_arrays.md R305; 11_huxel_arrays.md R306; 11_huxel_arrays.md R309; 11_huxel_arrays.md R312;
21_register_map.md R504. -/
def Obligations.HuxelCommandsComplete : Prop :=
  ∀ (a : Fin 8) (s : State),
    (∀ x t u, s.is F.HX_ASTAT_BUSY a = false → s.is F.HX_ASTAT_OFFLINE a = false → s.hx.zeroing.contains a.val = false →
      s.domainOn (72 + a) = true → hxArbiter (1400 * (s.own.length + 1)) (hxClear s) = (some x, t) →
      t.marked.any (slotWord x) = false → (hxDraws x = true → t.rngStopped = false) → hxDeliver t x = some (sOk, u) →
      let v := if hxDraws x then u.poke F.HX_AENT (u.get F.HX_AENT a + unitRequests x) a else u
      (slotAccess u a x.slot false).1 = true →
      let w := modOp v x (fun y => { y with array := a + 1 })
      exec (.huxelUnitDispatch a) s = .next (hxSettle ((({ w with apt := { w.apt with
        slots := tset 0 w.apt.slots (0x090 + a) (x.slot + 1) } }.poke F.HX_ASTAT_BUSY 1 a).poke F.HX_ASTAT_OWNER x.owner a).poke
          F.HX_ASTAT_ALG x.alg a))) ∧
    (∀ x ok seedOk passed, s.hx.ops.find? (fun x => decide (x.array = a.val + 1)) = some x →
      (unitWrite s a x).1 = true → (unitCounted s a x (ok && seedOk)).is F.HX_ACTRL_OFFLINE_REQ a = false → exec (.huxelUnitEnd a ok seedOk passed) s =
        .next (if ok = false then invariantFails (unitCounted s a x false) a x
          else if seedOk = false then hxResult (event ((unitCounted s a x false).incWrap F.HX_ASAMP a) 3 evHxSeed (72 + a) x.owner
            (leBytes 1 x.alg)) x sInternal
          else unitReleased (unitCounted s a x true) a x passed)) ∧
    exec (.huxelZeroingEnd a) s = .next { s with hx := { s.hx with zeroing := sdel s.hx.zeroing a } } ∧
    (∀ c, s.outOfReach c 0x60000 = false → s.isPrimary c = true →
      let t := s.poke F.HX_ACTRL_OFFLINE_REQ 1 a
      exec (.hxOfflineReq c a) s = .next (if t.is F.HX_ASTAT_BUSY a = true ∨ t.is F.HX_ASTAT_OFFLINE a = true then t
        else event (arrayOffline t a) 2 evHxReq (72 + a) 0xFFFF (leBytes 1 a)))

/-- How sealed pages are written, exported, acknowledged, imported, reloaded and wiped. Rests on 04_key_store.md R89;
04_key_store.md R96; 04_key_store.md R97; 04_key_store.md R98; 04_key_store.md R100; 04_key_store.md R103; 04_key_store.md
R104. -/
def Obligations.PageCommandsComplete : Prop :=
  ∀ (s : State),
    (∀ p : Fin 17825792, s.ks.toSeal.contains p.val = true → exec (.pageReseal p) s = .next (resealPage s p)) ∧
    (∀ x r, s.ks.pendExp = x :: r → s.is F.KS_CTRL_EXP_EN = true → s.expUsed < s.expSize →
      let prod := s.get F.KS_EXP_PROD
      let a := s.get F.KS_EXP_BASE_LO_ADDR_LO * 4096 + s.get F.KS_EXP_BASE_HI * 4294967296 + prod % s.expSize * 4160
      let t := { s with
        sent := s.sent ++ [Out.host (s.primary * 2048) a (fitBytes 4096 x.payload ++ slotTrailer x s.ks.expSeq)]
        ks := { s.ks with pendExp := r, ring := s.ks.ring ++ [x], expSeq := s.ks.expSeq + 1 } }
      exec .exportEntryWrite s = .next (expUpdate (t.poke F.KS_EXP_PROD ((prod + 1) % 4294967296)))) ∧
    (∀ a v, s.outOfReach a 0x50000 = false → s.isPrimary a = true →
      (v.toNat + 4294967296 - s.get F.KS_EXP_ACK) % 4294967296 ≤ s.expUsed →
      exec (.exportAck a v) s = .next (expUpdate (s.poke F.KS_EXP_ACK v.toNat))) ∧
    (s.is F.KS_STATUS_EXP_FULL = true → exec .exportStall s = .next (event (s.raise F.KS_STATUS_EXP_STALL) 3 evExpStall 128)) ∧
    (∀ (sp : Fin 17) (i : Fin 33554432), let k := sp.val * 33554432 + i.val;
      s.ks.wiping.contains k = true → keyHeld s k = false → exec (.destroyWipe sp i) s = .next (wipeRec s k)) ∧
    (∀ slot st v t, s.is F.KS_CTRL_IMP_EN = true → s.get F.KS_STATUS_RELOAD ≠ 0 → s.get F.KS_IMP_PROD ≠ s.get F.KS_IMP_CONS →
      importEntry s slot = some (st, v, t) →
      let cons := t.get F.KS_IMP_CONS
      let a := t.get F.KS_IMP_BASE_LO_ADDR_LO * 4096 + t.get F.KS_IMP_BASE_HI * 4294967296 +
        cons % 2 ^ t.get F.KS_IMP_SIZE_LOG2_SLOTS * 4160 + 4096 + 52
      let u := { t with
        sent := t.sent ++ [Out.host (t.primary * 2048) a (leBytes 2 st ++ [0, 0] ++ leBytes 8 v)]
        out := leBytes 2 st ++ leBytes 8 v }
      exec (.importEntry slot) s = .next (u.poke F.KS_IMP_CONS ((cons + 1) % 4294967296))) ∧
    (∀ a, s.outOfReach a 0x50000 = false → s.isPrimary a = true → s.atStep 5 = true →
      (s.get F.KS_STATUS_RELOAD = 1 ∨ s.get F.KS_STATUS_RELOAD = 2) →
      (groupsMissing s = [] → exec (.reloadEnd a) s = .next (setStage (setDomains (setDomains (facetMap
        (((credsEnrol (rootDraw (reloadFinish (bodiesMissing s)))).put F.KS_STATUS_READY 1).poke F.KS_STATUS_RELOAD 3))
        72 79 true) 108 109 true) 6)) ∧
      (∀ g, g ∈ groupsMissing s → g < 8 →
        let t := ((groupsMissing s).foldl groupFail s).poke F.KS_STATUS_GROUP_FAIL 1
        exec (.reloadEnd a) s = .next (setRst ((t.poke F.KS_STATUS_RELOAD 4).poke F.DEV_START_FAIL 11) { t.rst with stopped := true })))

/-- How the scrubber, uncorrectable words, record restores and session expiry act. Rests on 01_shape_of_the_device.md R23;
04_key_store.md R105; 04_key_store.md R106; 04_key_store.md R107; 05_key_custody.md R127; 20_faults_wear_limits.md Table
20.2. -/
def Obligations.ScrubCommandsComplete : Prop :=
  ∀ (s : State),
    (∀ (a : Nat) w prog, a < 0xC00000000 →
      (∀ h : 0 < 3, exec (.scrubWordRead a ⟨0, h⟩ w prog) s = .next (s.poke F.KS_SCRUB_STATUS_RUNNING 1)) ∧
      (∀ h : 1 < 3, exec (.scrubWordRead a ⟨1, h⟩ w prog) s =
        .next ((s.poke F.KS_SCRUB_STATUS_RUNNING 1).incSat F.KS_SCRUB_STATUS_CORRECTED)) ∧
      (∀ h : 2 < 3, exec (.scrubWordRead a ⟨2, h⟩ w prog) s = .next (wordBad a prog (s.poke F.KS_SCRUB_STATUS_RUNNING 1))) ∧
      exec (.uncorrectableWord a prog) s = .next (wordBad a prog s)) ∧
    (∀ (a : Nat) bad w prog, 0xC00000000 ≤ a → exec (.scrubWordRead a bad w prog) s = .fault .noSuchWord ∧
      exec (.uncorrectableWord a prog) s = .fault .noSuchWord) ∧
    (let t := (s.incWrap F.KS_SCRUB_STATUS_PASSES).poke F.KS_SCRUB_STATUS_RUNNING 1;
      exec (.scrubPassEnd true) s = .next t ∧ exec (.scrubPassEnd false) s = .next (t.raise F.KS_SCRUB_STATUS_LATE)) ∧
    (∀ (sp : Fin 17) (n : Fin 33554432), let i := sp.val * 33554432 + n.val;
      s.ks.poison.any (fun e => e.index == i) = true →
      (cached s i = true → exec (.recordRestore sp n) s = .next (restored s i (s.krec i) false)) ∧
      (cached s i = false → s.isMember = true → s.hasSucc = true → s.get F.VR_VERSION_IN_USE ≠ 1 → exec (.recordRestore sp n) s =
        .next (ringSend s 0 rkRecordReq s.succ (leBytes 1 (idxSpace i) ++ leBytes 4 (hIdx i)))) ∧
      (cached s i = false → s.isMember = false → (s.leaf (pageOf i)).gfail = false →
        exec (.recordRestore sp n) s = .next (pageRequest s (pageOf i)))) ∧
    exec .compSessionExpiry s = .next { s with sessions := s.sessions.filter (fun x => decide (s.nowSec < x.opened + 3600)) } ∧
    exec .mramRewrite s = .next (if s.rst.pfail then s else { s with wear := { s.wear with mramAge := 0, mramKept := 0 } })

/-- How frames are received, dispatched, released and transmitted, and how contexts and marks move. Rests on
09_stream_protection.md R237; 09_stream_protection.md R245; 09_stream_protection.md R246; 09_stream_protection.md R251;
09_stream_protection.md R253; 09_stream_protection.md R260; 09_stream_protection.md R261; 09_stream_protection.md R262;
09_stream_protection.md Table 09.8; 09_stream_protection.md Table 09.2. -/
def Obligations.FramePathCommandsComplete : Prop :=
  ∀ (n : Fin 16) (k : Fin 4) (s : State),
    (∀ stamp o ovf, k.val < s.subPorts n → exec (.frameReceive n k stamp o false ovf) s =
      .next (s.poke F.SP_FCSERR (s.get F.SP_FCSERR n k + 1) n k)) ∧
    (∀ stamp o ovf, k.val < s.subPorts n → (o.length + 4 < 64 ∨ s.get F.SP_CFG_MAX_FRAME n < o.length + 4) →
      exec (.frameReceive n k stamp o true ovf) s = .next (s.poke F.SP_LENERR (s.get F.SP_LENERR n k + 1) n k)) ∧
    (∀ stamp o,
      let t := (s.add64 F.SP_RXOK_LO 1 n k).add64 F.SP_RXOCT_LO (o.length + 4) n k
      let m := t.peer n;
      k.val < s.subPorts n → 64 ≤ o.length + 4 → o.length + 4 ≤ s.get F.SP_CFG_MAX_FRAME n → t.rst.level ≠ 1 →
      t.paired n = true → t.linkUp m k = true →
      (etherType o 12 = 0x8808 → exec (.frameReceive n k stamp o true false) s = .next (portLoss t n 3)) ∧
      (etherType o 12 = 0x888E → exec (.frameReceive n k stamp o true false) s = .next (txPut t m k ⟨o, none⟩)) ∧
      (etherType o 12 ≠ 0x8808 → etherType o 12 ≠ 0x888E → ownClock t n k o = false →
        (t.get F.SP_CFG_SIDE n = 0 → exec (.frameReceive n k stamp o true false) s = .next (match t.egressFlow n k o with
          | some i => prismFlow t n k stamp o i 1
          | none => portLoss t n 6)) ∧
        (t.get F.SP_CFG_SIDE n ≠ 0 → etherType o 12 = 0x88E5 → secTagOk o = true →
          exec (.frameReceive n k stamp o true false) s = .next (match t.findFlow (fun f => decide (f.dir = 0) &&
              decide (f.port = n) && f.macsec && decide (f.desc.take 8 = secSci o)) with
            | some i => prismFlow t n k stamp o i 0
            | none => portLoss t n 6)) ∧
        (∀ h, t.get F.SP_CFG_SIDE n ≠ 0 → etherType o 12 ≠ 0x88E5 → sealedAt t n o = some h →
          exec (.frameReceive n k stamp o true false) s = .next (match t.findFlow (fun f => decide (f.dir = 0) &&
              decide (f.port = n) && !f.macsec && decide (f.desc.take 4 = sliceBytes o (h + 4) 4)) with
            | some i => prismFlow t n k stamp o i 0
            | none => portLoss t n 6)))) ∧
    (∀ i : Fin 1048576,
      let waiting := s.str.frames.filter (fun x => x.flow == i.val && x.stage == .fill);
      waiting ≠ [] → s.str.cache.contains i.val = false →
      (s.str.cache.filter (fun j => cacheSet j == cacheSet i)).length < cacheWays →
      exec (.contextFillComplete i) s = .next (strUpdate (waiting.foldl (fun s x => prismRest s x.id)
        { s with str := { s.str with cache := sput s.str.cache i } }))) ∧
    (∀ x p, s.str.frames.find? (fun x => x.stage == .ready) = some x → leastLoaded s = some p →
      let t := modFrame s x.id (fun y => { y with stage := .facet p })
      exec .frameDispatch s = .next (frameStart { t with str := { t.str with
        held := tset [] t.str.held p (t.heldBy p ++ [x.id])
        lastRx := tset 0 t.str.lastRx p ((s.str.lastRx.map Prod.snd).foldl max 0 + 1) } } p)) ∧
    (∀ i : Fin 1048576, exec (.frameRelease i) s = .next (collimate (s.str.frames.length + 1) s i)) ∧
    (∀ (i : Fin 1048576) (j : Fin 2) f, s.flow i = some f → (f.slot j).st ≠ 0 →
      let want := (s.str.frames.filter (fun x => x.flow == i.val && x.slot == j.val && x.dir == 0 && x.stage == .done)).foldl
        (fun a x => max a x.pn) (pnUsed f (f.slot j));
      (f.slot j).mark ≤ want + 2048 →
      exec (.pnMarkWrite i j) s = .next (assignPns s.str.frames.length
        (setFlow s i (some (f.setSlot j { f.slot j with mark := max (f.slot j).mark want + 4096 }))) i)) ∧
    (∀ x r, s.txq n k = x :: r → s.dark n = false → s.rst.level ≠ 1 →
      let bytes := (match x.template with
        | none => x.data
        | some (q, t) => outerHeaders s q t x.data.length ++ x.data)
      let t := (({ s with str := { s.str with tx := tset [] s.str.tx (n * 4 + k) r } }).add64 F.SP_TXOK_LO 1 n k).add64 F.SP_TXOCT_LO
        (bytes.length + 4) n k
      exec (.frameTransmit n k) s = .next (showHeld { t with sent := t.sent ++ [.frame n k bytes] } n k false)) ∧
    (∀ up, k.val < s.subPorts n → up ≠ (s.get F.SP_STATUS_LINK n).testBit k →
      let w := s.get F.SP_STATUS_LINK n
      let t := s.poke F.SP_STATUS_LINK (if up then w + 2 ^ k.val else w - 2 ^ k.val) n
      exec (.streamLinkChange n k up) s = .next (portUpdate (evLatch
        (t.poke F.SP_STATUS_LINK_CHG (t.get F.SP_STATUS_LINK_CHG n ||| 2 ^ k.val) n) (80 + n))))

/-- How lag episodes, hangs of a stream facet and ends of an epoch overlap act. Rests on 09_stream_protection.md R264;
09_stream_protection.md R272; 09_stream_protection.md R273; 10_focus_and_time.md R295. -/
def Obligations.StreamEventsComplete : Prop :=
  ∀ (p : Fin 72) (s : State),
    (s.heldBy p ≠ [] → s.str.lagging.contains p.val = false →
      let t := event ((setStr s { s.str with lagging := sput s.str.lagging p }).raise F.PRM_STATUS_LAG) 2 evLag prismSrc
        0xFFFF (leBytes 1 p);
      (tget 0 s.str.lagEnd p < s.mtick → exec (.lagEpisodeStart p) s = .next t) ∧
      (tget 0 s.str.lagEnd p ≠ 0 → s.mtick ≤ tget 0 s.str.lagEnd p → exec (.lagEpisodeStart p) s =
        .next (decideRetire (event (t.raise F.PRM_STATUS_RETIRE) 3 evLagRetire prismSrc 0xFFFF (leBytes 1 p)) p 5 true))) ∧
    exec (.lagEpisodeEnd p) s = .next (lagEnds s p) ∧
    (s.heldBy p ≠ [] →
      let t := (s.heldBy p).foldl (fun s id => match s.frame id with
        | some x => flowLoss (modFrame s id (fun y => { y with stage := .gone })) x.flow 10
        | none => s) s
      let u := setStr t { t.str with held := tset [] t.str.held p [], lagging := sdel t.str.lagging p }
      exec (.streamFacetHang p) s = .next (facetFault (event ((facetEnd u p).raise F.PRM_STATUS_HANG) 4 evStrHang prismSrc 0xFFFF
        (leBytes 1 p)) p 6)) ∧
    (let go := fun (f : Flow) (x : FSlot) =>
        if f.dir = 0 ∧ x.st = 3 ∧ x.until_ ≤ s.now then x.emptied else x
      let flows := tmap none (fun _ e => e.map (fun f => { f with s0 := go f f.s0, s1 := go f f.s1 })) s.str.flows;
      exec .epochOverlapEnd s = .next { s with str := { s.str with flows := flows } })

/-- How a ring frame is taken off its link, forwarded and acted on, for every message kind. Rests on 13_veinad_ring.md R337;
13_veinad_ring.md Table 13.5; 13_veinad_ring.md Table 13.6; 13_veinad_ring.md R339; 13_veinad_ring.md R342; 13_veinad_ring.md
R344; 13_veinad_ring.md R350. -/
def Obligations.RingMessagesComplete : Prop :=
  ∀ (h : RHead) (s : State), (s.rlink h.port.val).auth = true →
    (∀ (i : Instr) (kind : Nat) (content : Bytes) (act : State → State),
      ((∃ m, i = .join h m ∧ kind = rkJoin ∧ content = joinBytes m ∧ act = joinMsg h.src.val m) ∨
       (∃ (order : List (Fin 16)) (mem : BitVec 16) (ver cmds : Nat) (homes : List (Fin 4096 × Fin 16)) (l : List Nat) (hs : List (Nat × Nat)),
         l = order.map (fun x => x.val) ∧ hs = homes.map (fun e => (e.1.val, e.2.val)) ∧ i = .members h order mem ver cmds homes ∧
         kind = rkMembers ∧ content = membersBytes l mem.toNat ver cmds hs ∧ act = membersMsg l mem.toNat ver cmds hs) ∨
       (∃ (home : Fin 16) (n : Nat) (k : Fin 9) (key : Nat) (data : Bytes), i = .mirror h home n k key data ∧ kind = rkMirror ∧
         content = leBytes 1 home.val ++ leBytes 8 n ++ leBytes 1 k.val ++ leBytes 8 key ++ data ∧
         act = mirrorIn h.src.val home.val n k.val key data) ∨
       (∃ n, i = .mirrorAck h n ∧ kind = rkMirrorAck ∧ content = leBytes 8 n ∧ act = mirrorAck h.src.val n) ∨
       (∃ home : Fin 16, i = .holderLost h home ∧ kind = rkHolderLost ∧ content = leBytes 1 home.val ∧
         act = holderLostMsg h.src.val home.val) ∨
       (i = .leaseReq h ∧ kind = rkLeaseReq ∧ content = [] ∧ act = leaseReq h.src.val) ∨
       (∃ n, i = .leaseGrant h n ∧ kind = rkLeaseGrant ∧ content = leBytes 8 n ∧ act = leaseGrant h.src.val) ∨
       (∃ (taker node : Fin 16) (owners : List (Fin 4096)) (l : List Nat), l = owners.map (fun o => o.val) ∧
         i = .takeover h taker node owners ∧ kind = rkTakeover ∧
         content = leBytes 1 taker.val ++ leBytes 1 node.val ++ l.flatMap (leBytes 2) ∧ act = takeoverMsg taker.val node.val l) ∨
       (∃ (home : Fin 16) (epoch : Nat) (k : Fin 9) (key : Nat) (data : Bytes), i = .copyData h home epoch k key data ∧
         kind = rkCopyData ∧ content = leBytes 1 home.val ++ leBytes 4 epoch ++ leBytes 1 k.val ++ leBytes 8 key ++ data ∧
         act = copyData h.src.val home.val epoch k.val key data) ∨
       (∃ (home : Fin 16) (epoch n : Nat) (digest : Bytes), i = .copySeal h home epoch n digest ∧ kind = rkCopySeal ∧
         content = leBytes 1 home.val ++ leBytes 4 epoch ++ leBytes 8 n ++ digest ∧
         act = copySeal h.src.val home.val epoch n digest) ∨
       (∃ epoch, i = .copySealAck h epoch ∧ kind = rkCopySealAck ∧ content = leBytes 4 epoch ∧ act = copySealed h.src.val epoch) ∨
       (∃ epoch d, i = .copyAbort h epoch d ∧ kind = rkCopyAbort ∧ content = leBytes 4 epoch ++ leBytes 1 (b2n d) ∧
         act = copyAbortMsg h.src.val epoch d) ∨
       (∃ (sp : Fin 17) (n : Fin 33554432), i = .recordReq h sp n ∧ kind = rkRecordReq ∧
         content = leBytes 1 sp.val ++ leBytes 4 n.val ∧ act = recordReq h.src.val sp.val n.val) ∨
       (∃ (sp : Fin 17) (n : Fin 33554432) (data : Bytes), i = .recordData h sp n data ∧ kind = rkRecordData ∧
         content = leBytes 1 sp.val ++ leBytes 4 n.val ++ data ∧ act = recordData (sp.val * 33554432 + n.val) data) ∨
       (∃ m, i = .focus h m ∧ kind = rkFocus ∧ content = focusBytes m ∧ act = focusMsg m)) →
      (h.good = true → h.seq = (s.rlink h.port.val).rxSeq →
        (h.src.val = s.nodeId → exec i s = .next (framed h s)) ∧
        (h.src.val ≠ s.nodeId → h.dst.val = s.nodeId → exec i s = .next (act (framed h s))) ∧
        (h.src.val ≠ s.nodeId → h.dst.val ≠ s.nodeId → h.dst.val = 255 →
          exec i s = .next (act (forwarded h kind content (framed h s)))) ∧
        (h.src.val ≠ s.nodeId → h.dst.val ≠ s.nodeId → h.dst.val ≠ 255 →
          exec i s = .next (forwarded h kind content (framed h s)))) ∧
      ((h.good = false ∨ h.seq ≠ (s.rlink h.port.val).rxSeq) →
        exec i s = .next (linkMsg s h.port.val rkNak (leBytes 8 (s.rlink h.port.val).rxSeq)))) ∧
    (h.good = true → h.seq = (s.rlink h.port.val).rxSeq →
      let u := framed h s
      let l := u.rlink h.port.val;
      (∀ acked rekey, exec (.linkAck h acked rekey) s = .next (linkDrain l.queue.length (setRLink u h.port.val
        { l with retry := l.retry.filter (fun f => decide (acked ≤ f.seq)), rxRekeyAt := rekey.or l.rxRekeyAt }) h.port.val)) ∧
      (∀ first, let again := fun (f : RFrame) => decide (first ≤ f.seq) && decide (f.resent < 8)
        let v := setRLink u h.port.val { l with retry := l.retry.map (fun f =>
          if again f then { f with resent := f.resent + 1 } else f) }
        exec (.linkNak h first) s = .next { v with
          sent := v.sent ++ (l.retry.filter again).map (fun f => .ring (decide (h.port.val = 0)) f.kind f.bytes) }))

/-- What the mirror, lease, copy, takeover and record messages do at the node that takes them. Rests on 13_veinad_ring.md
R342; 13_veinad_ring.md R343; 13_veinad_ring.md R344; 13_veinad_ring.md R345; 13_veinad_ring.md R349; 13_veinad_ring.md R350;
13_veinad_ring.md R351; 04_key_store.md R107. -/
def Obligations.RingMessageEffects : Prop :=
  ∀ (src : Nat) (s : State),
    (s.ringState = 2 → s.rst.pfail = false →
      halvesOf s (fun h => h.sealed_ && decide (h.src = src) && decide (h.home = some src)) ≠ [] →
      leaseReq src s = ringBoth (setRing s { s.ring with granted := src + 1, grants := s.ring.grants + 1 }) rkLeaseGrant src
        (leBytes 8 (s.ring.grants + 1))) ∧
    (s.ring.holder = src + 1 → s.ringState = 2 → leaseGrant src s = setRing s { s.ring with leased := true }) ∧
    (∀ home n kind key data, let l := halvesOf s (fun h => decide (h.src = src) && decide (h.home = some home));
      (l = [] → mirrorIn src home n kind key data s = s) ∧
      (∀ k, l = [k] → mirrorIn src home n kind key data s =
        ringSend (setHalf s k { halfStore (s.half k) kind key data with mseq := n + 1 }) 1 rkMirrorAck src (leBytes 8 n))) ∧
    (∀ home epoch kind key data,
      let l := halvesOf s (fun h => decide (h.src = src) && decide (h.home = some home) && !h.sealed_);
      (∀ k r, l = k :: r → (s.half k).epoch = epoch →
        copyData src home epoch kind key data s = setHalf s k (halfStore (s.half k) kind key data)) ∧
      (∀ k, l = [] → [0, 1].find? (fun k => (s.half k).home.isNone) = some k → copyData src home epoch kind key data s =
        setHalf s k (halfStore { Half.zero with home := some home, src := src, epoch := epoch } kind key data)) ∧
      (l = [] → (s.half 0).home.isSome → (s.half 1).home.isSome →
        copyData src home epoch kind key data s = ringSend s 1 rkCopyAbort src (leBytes 4 epoch ++ [0]))) ∧
    (∀ epoch d k r, halvesOf s (fun h => decide (h.src = src) && decide (h.epoch = epoch) && !h.sealed_) = k :: r →
      copyAbortMsg src epoch d s = freeHalf s k false) ∧
    (s.get F.VR_COPY_TARGET = src → s.get F.VR_COPY_STATE = 2 → s.ring.copySet = 0 → holderOf s s.nodeId = 0 →
      let t := s.put F.VR_COPY_STATE 3
      let u := (setRing t { s.ring with
        copyFails := 0
        holder := src + 1
        taken := s.ring.taken.map (fun x => if x.home + 1 = 0 then { x with holder := src + 1 } else x) }).put F.VR_STATE_HELD 1
      copySealed src s.ring.copyEpoch s = copyStart (versionStep ((u.jr.queues.map Prod.fst).foldl showQueue u))) ∧
    (∀ taker owners,
      let t := (owners.foldl (fun (s : State) o => ownerHome s o taker) s)
      let u := t.raise F.VR_EVENTS_TAKEN_OVER;
      t.nodeId = s.nodeId →
      (u.ringState ≠ 2 → takeoverMsg taker s.nodeId owners s = unfence (openWaiting u)) ∧
      (u.ringState = 2 → takeoverMsg taker s.nodeId owners s = unfence (openWaiting (setRing u { u.ring with fenceReset := true })))) ∧
    (∀ sp i k r, halvesOf s (fun h => h.sealed_ && decide (h.src = src) &&
        decide (h.home = some (if sp = 0 then src else sp - 1))) = k :: r → s.get F.VR_VERSION_IN_USE ≠ 1 →
      recordReq src sp i s = ringSend s 1 rkRecordData src (leBytes 1 sp ++ leBytes 4 i ++ (List.range 32).flatMap (fun j =>
        fitBytes 128 (tget [] (s.half k).store (storeKey 3 (i / 32 * 32 + j))))))

/-- How markers, links, time blocks, leases, timers, the pass mirror and VR writes act. Rests on 13_veinad_ring.md R332;
13_veinad_ring.md R333; 13_veinad_ring.md R334; 13_veinad_ring.md R335; 13_veinad_ring.md R336; 13_veinad_ring.md R337;
13_veinad_ring.md R340; 13_veinad_ring.md R344; 13_veinad_ring.md R345; 13_veinad_ring.md R347; 13_veinad_ring.md R351;
13_veinad_ring.md R354. -/
def Obligations.RingEventsComplete : Prop :=
  ∀ (p : Fin 2) (s : State),
    (∀ (k : Fin 4) pos m,
      let t := setRing s { s.ring with lanes := tset Lane.zero s.ring.lanes (p.val * 4 + k.val) (laneStep (s.lane p k) pos m) }
      let u := t.poke F.VR_LINK_LOCK ((List.range 4).foldl (fun a j => a + (if (t.lane p j).locked then 2 ^ j else 0)) 0) p;
      (portUp u p = false → u.is F.VR_LINK_UP p = false → exec (.alignmentMarker p k pos m) s = .next u) ∧
      (portUp u p = true → u.is F.VR_LINK_UP p = true → (u.lane p 0).node < 16 →
        exec (.alignmentMarker p k pos m) s = .next (peerSeen u p (u.lane p 0).node))) ∧
    (let t := (setRing s { s.ring with
        links := tset RLink.zero s.ring.links p RLink.zero
        lanes := (List.range 4).foldl (fun t k => tset Lane.zero t (p.val * 4 + k) Lane.zero) s.ring.lanes }).poke F.VR_LINK_LOCK 0 p;
      exec (.ringLinkDown p) s = .next (if s.is F.VR_LINK_UP p then
        ((t.put F.VR_LINK_UP 0 p).raise F.VR_LINK_UP_CHG p).raise F.VR_EVENTS_LINK_DOWN_SEEN else t)) ∧
    (∀ serial cert digest secrets m, s.is F.VR_LINK_UP p = true → (s.rlink p).auth = false → s.mirror = 2 →
      s.get F.DEV_START_STAGE ≠ 4 → s.ringState ≠ 3 →
      let serials := if p.val = 0 then Config.serial ++ serial else serial ++ Config.serial
      let key := fun (d : Nat) => kdf secrets "PH64-LINK" (serials ++ leBytes 1 d);
      (Config.certChains cert s.ring.root = true → memberOf s (fun x => decide (x = serial)) = some m → digest = s.ring.digest →
        exec (.ringLinkUp p serial cert digest secrets) s = .next (copyStart (joinStart (setRLink s p { RLink.zero with
          auth := true, serial := serial, txKey := key p, rxKey := key (1 - p) })))) ∧
      (Config.certChains cert s.ring.root = false →
        exec (.ringLinkUp p serial cert digest secrets) s = .next (event s 5 evLinkAuth 134))) ∧
    (∀ n, (s.rlink p).auth = true → (s.rlink p).txSeq < n → (s.rlink p).rekeyAt = none →
      let t := linkMsg s p rkAck (leBytes 8 (s.rlink p).rxSeq ++ leBytes 8 n)
      exec (.linkRekey p n) s = .next (setRLink t p { t.rlink p with rekeyAt := some n, sinceAck := 0 })) ∧
    ((s.rlink p).sinceAck ≠ 0 → exec (.linkAckSend p) s =
      .next (linkMsg (setRLink s p { s.rlink p with sinceAck := 0 }) p rkAck (leBytes 8 (s.rlink p).rxSeq))) ∧
    (∀ b : TimeBlock, b.ok = true → (s.lane b.port b.lane).locked = true → (s.rlink b.port).auth = true → s.ringState ≠ 0 →
      b.node.val ≠ s.nodeId → before3 (timeRank s.foc.own) (s.get F.FOC_TCFG_PRIORITY) s.nodeId (timeRank b.disc) b.prio b.node = false →
      s.is F.FOC_TSTAT_RING_SRC = false → sourceNode s = b.node.val → tget none s.foc.src (1 - b.port.val) = none →
      let t := s.poke F.FOC_TSTAT_RING_SRC 0
      exec (.timeBlock b) s = .next (ringSample (setFoc t { t.foc with
        src := tset none t.foc.src b.port.val (some (b.node.val, b.disc.val, b.hops, b.prio.val)) })
        b.arrival ((b.depart : Int) + b.corr + b.delay) b.disc)) ∧
    (s.ring.leased = true → s.ringState = 2 → exec .leaseEnd s =
      .next (dropHalves (copyAbort (event ((setRingState (setRing s { s.ring with leased := false }) 3).raise F.VR_EVENTS_LEASE_LOST) 4
        evFenced 134) false))) ∧
    (2 ≤ s.ringState → s.hasSucc = true → s.rst.pfail = false → exec .leaseReqTimer s =
      .next (ringBoth s rkLeaseReq (if s.ring.holder = 0 then s.succ else s.ring.holder - 1) [])) ∧
    (s.ring.granted ≠ 0 → s.ringState = 2 → s.ring.leased = true → exec .grantedLeaseExpiry s = .next (takeOver s (s.ring.granted - 1))) ∧
    (∀ home : Fin 16, (∀ x ∈ spacePages s (home.val + 1), (s.leaf x).pend = false ∧ s.ks.toSeal.contains x = false) →
      exec (.takeoverResealDone home) s = .next (copyStart (setRing s { s.ring with
        taken := s.ring.taken.map (fun t => if t.home = home.val then { t with resealed := true } else t) }))) ∧
    ((s.rlink 0).auth = false → exec .holderPortTimeout s = .next (holderLost s (fun _ => true) false)) ∧
    ((s.rlink 0).auth = false → (s.rlink 1).auth = true → (copyAbort s false).rlink 1 = s.rlink 1 →
      exec .copyLinkTimeout s = .next (copyAbort s false)) ∧
    exec .copyRetryTimer s = .next (copyStart (setRing s { s.ring with copyHold := false })) ∧
    (s.mirror = 1 → exec .passMirrorInserted s = .next (joinStart (setMirror s 2)) ∧
      exec .passMirrorTimeout s = .next (event (setMirror s 4) 4 evMirrorFault 134)) ∧
    (s.mirror = 3 → exec .passMirrorPassed s = .next (ringInsert (setMirror s 0))) ∧
    (∀ (a : Agent) (v : Word), s.outOfReach a 0xA0000 = false → s.isPrimary a = true →
      let t := if v.getLsbD 30 then openWaiting s else s;
      (v.getLsbD 31 = true → t.ring.table ≠ [] → exec (.ringEnableWrite a v) s = .next (ringInsert (t.poke F.VR_CFG_ENABLE 1))) ∧
      (v.getLsbD 31 = false → exec (.ringEnableWrite a v) s = .next (mirrorRelease (leaveRing (t.poke F.VR_CFG_ENABLE 0)))) ∧
      exec (.forceOpen a) s = .next (openWaiting s))

/-- How aperture barriers, locks, arbiter cuts, bursts and saturation act. Rests on 15_apertures_worlds_arbitration.md R388;
15_apertures_worlds_arbitration.md R389; 15_apertures_worlds_arbitration.md R390; 15_apertures_worlds_arbitration.md R395;
15_apertures_worlds_arbitration.md R396; 15_apertures_worlds_arbitration.md R397. -/
def Obligations.ApertureAndArbiterCommandsComplete : Prop :=
  ∀ (s : State),
    (∀ (c : Agent), s.outOfReach c 0x200000 = false →
      exec (.aptBarRead c) s = .next { s with rdata := BitVec.ofNat 64 s.apt.refused } ∧
      (s.isPrimary c = true →
        (∀ units : BitVec 12, exec (.aptBarWrite c units) s = .next ((List.range 12).foldl (fun s u =>
          if units.getLsbD u then (match aptApply s u with
            | (true, t) => t
            | (false, t) => { t with apt := { t.apt with refused := t.apt.refused ||| 2 ^ u } })
          else s) { s with apt := { s.apt with refused := 0 } })) ∧
        (∀ (u : Fin 12) (mask : Word) (t : State), mask ≠ 0 → aptApply { s with apt := { s.apt with refused := 0 } } u = (true, t) →
          exec (.aptLockWrite c u mask) s = .next (t.poke F.APT_LOCK (t.get F.APT_LOCK u ||| mask.toNat) u)) ∧
        (∀ (u : Fin 12) (mask : Word) (t : State), mask ≠ 0 → aptApply { s with apt := { s.apt with refused := 0 } } u = (false, t) →
          exec (.aptLockWrite c u mask) s = .next { t with apt := { t.apt with refused := 2 ^ u.val } }))) ∧
    (∀ (a : Fin 8) (now : BitVec 16) (l : List ArbArrival), let t := arbArrive s a l;
      (∀ m, (s.arbiter a).holder = some m →
        exec (.arbBurstEnd a now l) s = .next (arbRestamp t a now.toNat) ∧
        exec (.arbHoldCut a now l) s = .next (arbRestamp (event
        ((t.raise F.ARB_STATUS_HOLD_SEEN a).incSat F.ARB_STATUS_CUTS a) 2 evArbHold (108 + a) 0xFFFF (leBytes 1 a ++ leBytes 2 m))
        a now.toNat)) ∧
      ((s.arbiter a).holder = none → exec (.arbBurstEnd a now l) s = .next t ∧ exec (.arbHoldCut a now l) s = .next t) ∧
      (∀ (m : BitVec 10) x, arbOldest (t.arbiter a) m.toNat = some x →
        exec (.arbSaturation a m l) s = .next ((t.setArb a { t.arbiter a with
          waiting := (t.arbiter a).waiting.map (fun (r : ArbReq) =>
            if r.stamp = x.stamp ∧ r.sat.isNone then { r with sat := some (t.arbiter a).satNext } else r)
          satNext := (t.arbiter a).satNext + 1 }).raise F.ARB_STATUS_SAT_SEEN a)))

/-- How hold-off, claims, completions, priorities, software sources and the recorder act. Rests on
16_event_routing_and_record.md R399; 16_event_routing_and_record.md R401; 16_event_routing_and_record.md R405;
16_event_routing_and_record.md R407; 16_event_routing_and_record.md R408; 16_event_routing_and_record.md R409;
16_event_routing_and_record.md R410; 16_event_routing_and_record.md R412; 16_event_routing_and_record.md R417;
16_event_routing_and_record.md R419. -/
def Obligations.RouterAndRecorderCommandsComplete : Prop :=
  ∀ (s : State),
    (∀ g : Fin 64, s.evr.held.any (fun x => decide (x / 32 = g.val)) = true → exec (.holdoffExpiry g) s =
      .next (evSettle { s with evr := { s.evr with
        held := s.evr.held.filter (fun x => !(decide (x / 32 = g.val)))
        timers := sdel s.evr.timers g } })) ∧
    (∀ (a : Agent) (t : Fin 6), s.outOfReach a 0x6000 = false → evOwner t a = true →
      (∀ n, tget 0 s.evr.offer t = n + 1 → exec (.evrClaimRead a t) s = .next (evSettle { s with
        rdata := BitVec.ofNat 64 n
        evr := { s.evr with claims := tset [] s.evr.claims t (n :: s.evStack t), withdrawn := sdel s.evr.withdrawn t } })) ∧
      (tget 0 s.evr.offer t = 0 → s.evr.withdrawn.contains t.val = true → exec (.evrClaimRead a t) s = .next ({ s with
        rdata := 2047, evr := { s.evr with withdrawn := sdel s.evr.withdrawn t } }.incSat F.EVR_STATUS_SPURIOUS)) ∧
      (tget 0 s.evr.offer t = 0 → s.evr.withdrawn.contains t.val = false →
        exec (.evrClaimRead a t) s = .next { s with rdata := 2047 }) ∧
      (∀ (x : Fin 2048) r, x.val ≠ 2047 → s.evStack t = x.val :: r → exec (.evrCompleteWrite a t x) s =
        .next (evSettle { s with evr := { s.evr with claims := tset [] s.evr.claims t r, held := sdel s.evr.held x.val } })) ∧
      (∀ (x : Fin 2048), (s.evStack t).head? ≠ some x.val → exec (.evrCompleteWrite a t x) s = .next (s.raise F.EVR_STATUS_CMPL_ERR))) ∧
    (∀ a : Agent, s.outOfReach a 0x4000 = false → s.isPrimary a = true →
      (∀ v : BitVec 3, let t := s.poke F.EVR_PRIGROUP_G v.toNat
        exec (.prigroupWrite a v) s = .next (evSettle (({ t with evr := { t.evr with gWait := some v.toNat } }).poke
          F.EVR_STATUS_PG_PENDING (if s.evr.claims = [] then 0 else 1)))) ∧
      (s.prioGood = true → exec (.prioEnable a) s = .next (evSettle ((s.poke F.EVR_CTRL_PRIO_EN 1).poke F.EVR_CTRL_MODE 1))) ∧
      (s.prioGood = false → exec (.prioEnable a) s = .next (prioFail s)) ∧
      exec (.prioDisable a) s = .next (evSettle ((s.poke F.EVR_CTRL_PRIO_EN 0).poke F.EVR_CTRL_MODE 0)) ∧
      (∀ mask : Word, exec (.evrSwsetWrite a mask) s =
        .next (((List.range 32).filter (fun k => mask.getLsbD k)).foldl (fun s k => evLatch s (1984 + k)) s))) ∧
    (s.is F.EVR_CTRL_PRIO_EN = true → (s.prioGood = false → exec (.prioTableCheck false) s = .next (prioFail s)) ∧
      exec (.prioTableCheck true) s = .next (prioFail s) ∧ (s.prioGood = true → exec (.prioTableCheck false) s = .next s)) ∧
    (∀ t : Fin 6, exec (.targetUnavailable t) s = .next (evSettle { s with evr := { s.evr with
      avail := sdel s.evr.avail t, claims := tset [] s.evr.claims t [], held := s.evr.held.filter (fun x => !((s.evStack t).contains x)) } })) ∧
    exec .eventFlushTimer s = .next (logFlush s) ∧
    (∀ a : Agent, s.outOfReach a 0x8000 = false → s.isPrimary a = true →
      exec (.logFlush a) s = .next (logFlush s) ∧
      (∀ hi : Word, let t := s.poke F.LOG_SEL_HI hi.toNat;
        (∀ b, logFind t (t.get F.LOG_SEL_LO + hi.toNat * 4294967296) = some b → exec (.logSelect a hi) s =
          .next (((List.range 16).foldl (fun s k => s.poke F.LOG_WIN (leNat (sliceBytes b (4 * k) 4)) k) t).poke F.LOG_STATUS_SEL_VALID 1)) ∧
        (logFind t (t.get F.LOG_SEL_LO + hi.toNat * 4294967296) = none → exec (.logSelect a hi) s =
          .next (((List.range 16).foldl (fun s k => s.poke F.LOG_WIN 0 k) t).poke F.LOG_STATUS_SEL_VALID 0))))

/-- How life-cycle requests, their programming, tamper alarms and low cells act. Rests on 17_device_custody.md R420;
17_device_custody.md R424; 17_device_custody.md R425; 17_device_custody.md Table 17.2; 17_device_custody.md Table 17.3;
17_device_custody.md R432; 17_device_custody.md R434; 17_device_custody.md R435; 17_device_custody.md R437;
17_device_custody.md R439. -/
def Obligations.LifeCycleAndTamperCommandsComplete : Prop :=
  ∀ (s : State),
    (∀ (a : Agent) (v : Word), s.outOfReach a 0x2000 = false → s.isPrimary a = true →
      let t := s.poke F.LC_CMD_TARGET (bitsOf v 28 2);
      v.getLsbD 31 = true → t.is F.LC_CMD_BUSY = false → (t.lcState = 1 ∨ t.lcState = 2) → 5 ≤ t.get F.DEV_START_STAGE →
      exec (.lcCmdGo a v) s = .next (lcRequest t (bitsOf v 28 2)
        ((List.range 8).flatMap (fun k => leBytes 4 (t.reg (F.LC_TOKEN.at k 0)).toNat))).2) ∧
    (∀ target token, lcPermitted s.lcState target = true → (s.counterSpent = true → target = 3) →
      s.get F.LC_STATE_TOKEN_FAILS < 3 →
      let good := sha384 (ascii "PH64-LC" ++ [BitVec.ofNat 8 target] ++ Config.serial ++ token) = Config.tokenDigest target
      let t := if s.lcState ≠ 0 then eraseShare s else s;
      (good → lcRequest s target token =
        (1, (({ t with lc := { t.lc with prog := some target } }).poke F.LC_CMD_BUSY 1).poke F.LC_CMD_RESULT 1)) ∧
      (¬ good → lcRequest s target token =
        (2, (event (s.poke F.LC_STATE_TOKEN_FAILS (min 3 (s.get F.LC_STATE_TOKEN_FAILS + 1))) 5 evTokenWrong stewardSrc).poke
          F.LC_CMD_RESULT 2))) ∧
    (∀ target, s.lc.prog = some target →
      let ask := fun (s : State) => if s.rst.pfail ∨ (s.rst.level = 3 ∧ s.rst.begun = false) then s
        else setRst s { s.rst with level := 3, begun := false, src := 10, joined := 0, esc := false }
      let t := { s with lc := { s.lc with copies := List.replicate 3 (lcCode target), prog := none } };
      (target = 3 → exec (.lcProgrammingComplete true) s = .next (ask ((mramClearAll t).poke F.LC_CMD_BUSY 0))) ∧
      (target = 2 → exec (.lcProgrammingComplete true) s =
        .next (ask ((mramClear { t with sec := { t.sec with seed := Config.rootSeed 2 } }).poke F.LC_CMD_BUSY 0))) ∧
      (target < 2 → exec (.lcProgrammingComplete true) s =
        .next (ask (({ t with sec := { t.sec with seed := Config.rootSeed target } }).poke F.LC_CMD_BUSY 0))) ∧
      exec (.lcProgrammingComplete false) s =
        .next (ask ((event ((lcStop s).poke F.LC_CMD_RESULT 5) 4 evLcProgFail stewardSrc).poke F.LC_CMD_BUSY 0))) ∧
    (∀ n : Fin 8, s.mainPower = true → s.lc.alarms.contains n.val = false → s.sensorOff n = false →
      let t := { s with lc := { s.lc with alarms := sput s.lc.alarms n } }
      let u := mirrorRelease (goDark (tmpLatch (t.poke F.TMP_STATUS_LIVE (t.get F.TMP_STATUS_LIVE ||| 2 ^ n.val)) n))
      let ask := fun (v : State) => if s.lc.alarms = [] then requestReset v 5 2 else v;
      (u.eraseClass n = true → let w := lcStop (eraseShare u)
        exec (.tamperAlarm n) s = .next (ask (event { w with lc := { w.lc with advance := w.lc.advance + 1 } } 5 evTamper
          tmpSrc 0xFFFF (leBytes 1 n)))) ∧
      (u.eraseClass n = false → exec (.tamperAlarm n) s = .next (ask (event u 5 evTamper tmpSrc 0xFFFF (leBytes 1 n))))) ∧
    (∀ n : Fin 8,
      let t := { s with lc := { s.lc with alarms := sdel s.lc.alarms n } }
      let v := t.get F.TMP_STATUS_LIVE
      let u := t.poke F.TMP_STATUS_LIVE (if v.testBit n then v - 2 ^ n.val else v)
      exec (.tamperAlarmClear n) s = .next (if u.is F.TMP_STATUS_HOLD && u.lc.alarms.isEmpty then holdEnds u else u)) ∧
    (∀ n : Fin 8, s.mainPower = false → (n.val = 0 ∨ n.val = 1) →
      let t := ({ s with sec := { s.sec with share := none } }).poke F.TMP_STATUS_ERASED 1
      exec (.unpoweredTamperEpisode n) s = .next (((t.poke F.TMP_STATUS_LATCHED (t.get F.TMP_STATUS_LATCHED ||| 2 ^ n.val)).poke
        F.TMP_STATUS_UNPOWERED 1).incSat F.TMP_OTP_COUNT_PENDING)) ∧
    (∀ k : Fin 2, (s.get F.TMP_STATUS_CELL_LOW).testBit k = false → exec (.cellLow k) s =
      .next ((s.poke F.TMP_STATUS_CELL_LOW (s.get F.TMP_STATUS_CELL_LOW + 2 ^ k.val)).raise F.TMP_STATUS_CELL_LOW_SEEN))

/-- What each instruction of the Loupe port shifts out and does with the main rails up. Rests on 17_device_custody.md R424;
17_device_custody.md R426; 17_device_custody.md R427; 17_device_custody.md R428; 17_device_custody.md R429;
17_device_custody.md R431; 17_device_custody.md Table 17.4; 17_device_custody.md Table 17.5; 17_device_custody.md Table 17.7.
-/
def Obligations.LoupeCommandsComplete : Prop :=
  ∀ (s : State), s.mainPower = true →
    (∀ pads drive, exec (.loupeExtest pads drive) s =
        .next (loupeDrive { s with lc := { s.lc with boundary := drive } } 0 1 pads) ∧
      exec (.loupeClamp pads drive) s = .next (loupeDrive s 4 1 [0]) ∧
      exec (.loupeSamplePreload pads drive) s =
        .next (loupeOut { loupeLeave s with lc := { (loupeLeave s).lc with boundary := drive } } 2 pads)) ∧
    exec .loupeHighz s = .next (loupeDrive s 5 2 [0]) ∧
    exec .loupeIdcode s = .next (loupeOut (loupeLeave s) 1 (leBytes 4 0x064005AB)) ∧
    exec .loupeBypass s = .next (loupeOut (loupeLeave s) 0xFF [0]) ∧
    exec .loupeLcRead s = .next (loupeOut (loupeLeave s) 0x40 (leBytes 4 (s.reg (F.LC_STATE_STATE.at 0 0)).toNat)) ∧
    (∀ (target : Fin 4) token, let t := loupeOut (loupeLeave s) 0x41 [];
      (t.is F.LC_CMD_BUSY = false → exec (.loupeLcXfer target token) s = .next (lcRequest t target (sliceBytes token 0 32)).2) ∧
      (t.is F.LC_CMD_BUSY = true → exec (.loupeLcXfer target token) s = .next t)) ∧
    (let t := loupeLeave s;
      (t.lcState ≠ 2 → exec .loupeDbgChal s = .next (loupeOut t 0x42 (List.replicate 32 0))) ∧
      (t.lcState = 2 → exec .loupeDbgChal s = .next (loupeOut (drawChallenge t).2 0x42 (drawChallenge t).1))) ∧
    (∀ cert, let t := loupeOut (loupeLeave s) 0x43 [];
      (t.lcState = 2 → exec (.loupeDbgCert cert) s = .next (presentCert t cert)) ∧
      (t.lcState ≠ 2 → exec (.loupeDbgCert cert) s = .next t)) ∧
    (∀ (q : Fin 72) (r : DbgReg) (data : BitVec 64), let t := loupeLeave s;
      (t.right (haltRight t q) = true → (t.facet q).halt = 1 →
        exec (.loupeDbgAccess (.reg q r) false data) s = .next (loupeOut t 0x44 (dbgRegRead t q r ++ [0])) ∧
        exec (.loupeDbgAccess (.reg q r) true data) s =
          .next (loupeOut (dbgRegWrite t q r data) 0x44 (List.replicate 8 0 ++ [0]))) ∧
      (t.right (haltRight t q) = false ∨ (t.facet q).halt ≠ 1 → ∀ wr, exec (.loupeDbgAccess (.reg q r) wr data) s =
        .next (loupeOut t 0x44 (List.replicate 8 0 ++ [1])))) ∧
    (∀ (a : BitVec 64) wr (data : BitVec 64), let t := loupeLeave s;
      let log := t.right 4 && !(t.right 0) && !wr && within a.toNat 8 logBase (logBase + 0xFFFFF);
      (log = true → exec (.loupeDbgAccess (.mem a) wr data) s =
        .next (loupeOut t 0x44 (t.devRead a.toNat 8 ++ [0]))) ∧
      (log = false → t.right 0 = false → t.right 2 = false →
        exec (.loupeDbgAccess (.mem a) wr data) s = .next (loupeOut t 0x44 (List.replicate 8 0 ++ [1]))) ∧
      (∀ un d, log = false → (t.right 0 = true ∨ t.right 2 = true) → place (t.right 0) wr a.toNat 8 = .glob un d →
        (aptCause t un d 8 0xB8 (t.right 0) wr false).1 = 0 →
        (wr = true → exec (.loupeDbgAccess (.mem a) wr data) s = .next (loupeOut { visible t with
          gmem := memWrite (visible t).gmem a.toNat (leBytes 8 data.toNat) } 0x44 (List.replicate 8 0 ++ [0]))) ∧
        (wr = false → exec (.loupeDbgAccess (.mem a) wr data) s =
          .next (loupeOut (visible t) 0x44 ((visible t).devRead a.toNat 8 ++ [0]))))) ∧
    (∀ (unit : Fin 73) sel, let t := loupeOut (loupeLeave s) 0x45 [];
      (t.right (haltRight t unit + 1) = true →
        exec (.loupeDbgCtrl unit 3 sel) s = .next { t with lc := { t.lc with trace := sel } }) ∧
      (t.right (haltRight t unit) = true → unit.val ≠ 72 →
        exec (.loupeDbgCtrl unit 0 sel) s = .next (haltFacet t unit) ∧
        exec (.loupeDbgCtrl unit 1 sel) s = .next (t.modFacet unit (fun f => { f with halt := if f.halt = 0 then 0 else 2 })) ∧
        exec (.loupeDbgCtrl unit 2 sel) s = .next (t.modFacet unit (fun f => { f with halt := 0 }))) ∧
      (t.right (haltRight t unit) = true → unit.val = 72 →
        exec (.loupeDbgCtrl unit 0 sel) s = .next { t with lc := { t.lc with stewardHalt := true } } ∧
        exec (.loupeDbgCtrl unit 2 sel) s = .next { t with lc := { t.lc with stewardHalt := false } }) ∧
      (∀ op : Fin 4, op.val ≠ 3 → t.right (haltRight t unit) = false → exec (.loupeDbgCtrl unit op sel) s = .next t))

/-- How reset sources ask for a reset level and what each level does. Rests on 18_start_reset_clocks_power.md R440;
18_start_reset_clocks_power.md R444; 18_start_reset_clocks_power.md R445; 18_start_reset_clocks_power.md R446;
18_start_reset_clocks_power.md R447; 18_start_reset_clocks_power.md R450; 18_start_reset_clocks_power.md Table 18.5;
18_start_reset_clocks_power.md Table 18.6; 17_device_custody.md R435. -/
def Obligations.ResetCommandsComplete : Prop :=
  ∀ (s : State),
    (let hold := fun (src : Nat) (rails : Bool) => let t := requestReset s src 3;
        { t with mainPower := t.mainPower && rails, rst := { t.rst with padsHold := true, begun := false } };
      exec .pwrgoodLow s = .next (hold 0 false) ∧ exec .rstNAssert s = .next (hold 2 true) ∧
      (s.rst.pfail = false → exec .supplyPor s = .next (hold 1 false)) ∧ (s.rst.pfail = true → exec .supplyPor s = .next s)) ∧
    (∀ p : Fin 4, (p.val = 0 → s.get F.RST_CTRL_PERST0 = 1 → exec (.perstAssert p) s = .next (requestReset s 3 2)) ∧
      (p.val = 0 → s.get F.RST_CTRL_PERST0 = 2 → exec (.perstAssert p) s = .next (requestReset s 3 3)) ∧
      (p.val ≠ 0 → exec (.perstAssert p) s = .next (hotReset p s))) ∧
    (5 ≤ s.get F.DEV_START_STAGE → exec .watchdogExpiry s = .next (requestReset s 4 2)) ∧
    (s.ring.fenceReset = true →
      exec .ringFencingReset s = .next (requestReset (setRing s { s.ring with fenceReset := false }) 9 2)) ∧
    (∀ a : Agent, s.outOfReach a 0x1000 = false → s.isPrimary a = true →
      exec (.softwareCReset a) s = .next (requestReset s 7 1) ∧ exec (.softwareSReset a) s = .next (requestReset s 7 2) ∧
      exec (.softwarePReset a) s = .next (requestReset s 7 3)) ∧
    (∀ row : Fin 10, exec (.criticalStateError row) s = .next (critical s (row.val + 1))) ∧
    (∀ pass, s.rst.level = 2 → s.rst.begun = false → s.rst.pfail = false →
      let t := resetDie 1 pass (beforeReset2 (decide (s.rst.src ≠ 5)) (decide (s.rst.src ≠ 4) && !s.rst.noFlush) s)
      let u := otpLowStart (setRst (t.poke F.RST_CAUSE_LEVEL 2) { t.rst with escStart := false, recovery := true });
      (u.lc.loupeHold = true → exec (.sReset pass) s = .next u) ∧
      (u.lc.loupeHold = false → u.lc.alarms = [] → u.lcState ≠ 3 → u.counterSpent = false →
        exec (.sReset pass) s = .next (u.poke F.DEV_START_STAGE (if s.is F.CLK_STATUS_LOCK then 3 else 2)))) ∧
    (∀ pass, s.rst.level = 3 → s.rst.begun = false → s.rst.pfail = false →
      let soft := decide (s.rst.src = 3) || decide (s.rst.src = 7) || decide (s.rst.src = 8)
      let t := powerCount soft (resetDie 2 pass (beforeReset2 soft soft s))
      let u := ((t.poke F.RST_CAUSE_SOURCES s.rst.joined).poke F.RST_CAUSE_ESCALATED (b2n s.rst.esc)).poke F.RST_CAUSE_PFAIL
        (b2n s.rst.pfEnd)
      let v := { u with
        lc := { u.lc with challenge := none, certBuf := [], mismatches := [], trace := 0, stewardHalt := false }
        rst := { u.rst with escStart := s.rst.esc, recovery := false, pfail := false, pfEnd := false } };
      (v.rst.padsHold = true → exec (.pReset pass) s = .next v) ∧
      (v.rst.padsHold = false → exec (.pReset pass) s = .next ((sampleStraps v).poke F.DEV_START_STAGE 1))) ∧
    (∀ ok, s.rst.level = 1 → s.rst.begun = false → s.rst.pfail = false →
      let t := substitutionAgain (streamCReset (hxCReset (jrCReset s)))
      let u := { t with
        facets := tmap Facet.zero (fun _ f => { Facet.zero with nextRole := f.nextRole, halt := f.halt }) t.facets
        regs := resetRegs 0 t.regs
        cv := none
        rng := { t.rng with waiting := [] }
        ks := { t.ks with fills := [], leaseWait := [] } }
      let v := (evSettle { loadSets (markShow u) with
        latches := []
        apt := { u.apt with slots := [] }
        evr := { u.evr with claims := tset [] u.evr.claims 0 [], held := u.evr.held.filter (fun x => !((u.evStack 0).contains x))
                            woken := false } }).poke F.RST_CAUSE_LEVEL 1;
      (ok = true → exec (.cReset ok) s = .next (setRst v { v.rst with level := 0, begun := true })) ∧
      (ok = false → exec (.cReset ok) s = .next (critical (setRst v { v.rst with begun := true }) 8))) ∧
    (∀ straps : BitVec 12, s.rst.padsHold = true → s.vaux = true →
      let t := ({ s with mainPower := true, rst := { s.rst with padsHold := false, straps := straps.toNat } }.poke
        F.PWR_STATUS_VIN_OK 1).poke F.PWR_STATUS_VHOLD_READY 1;
      exec (.pwrgoodRise straps) s =
        .next (if t.rst.level = 3 ∧ t.rst.begun then (sampleStraps t).poke F.DEV_START_STAGE 1 else t))

/-- What each step of the release order does, and the image sources. Rests on 17_device_custody.md R422; 17_device_custody.md
R437; 17_device_custody.md R438; 18_start_reset_clocks_power.md R443; 18_start_reset_clocks_power.md R451;
18_start_reset_clocks_power.md R453; 18_start_reset_clocks_power.md R455; 18_start_reset_clocks_power.md R456;
05_key_custody.md R145; 04_key_store.md R102; 11_huxel_arrays.md R306; 18_start_reset_clocks_power.md Table 18.9. -/
def Obligations.StartCommandsComplete : Prop :=
  ∀ (s : State),
    (∀ st dis, s.atStep 1 = true → s.get F.DEV_START_FAIL ≠ 12 → lcDecode s.lc.copies = (st, false, none, dis) → st ≠ 3 →
      s.lc.alarms = [] → s.get F.TMP_OTP_COUNT_PENDING = 0 →
      let clk := s.get F.STRAP_CAPTURE_CLKMODE
      let t := (((s.poke F.LC_STATE_STATE st).poke F.LC_STATE_FORCED 0).poke F.LC_STATE_INTERRUPTED 0).poke F.LC_STATE_DISAGREE dis
      let u := t.poke F.CLK_STATUS_MODE (if clk = 3 ∧ 2 ≤ st then 2 else clk)
      let v := ((u.poke F.TMP_OTP_COUNT_COUNT (min 1024 (u.get F.TMP_OTP_COUNT_COUNT))).poke F.TMP_OTP_COUNT_PENDING 0).poke
        F.TMP_STATUS_HOLD 0;
      t.get F.STRAP_CAPTURE_CLKMODE = clk → u.get F.TMP_OTP_COUNT_PENDING = 0 → u.lc.alarms = [] →
      ((u.poke F.TMP_OTP_COUNT_COUNT (min 1024 (u.get F.TMP_OTP_COUNT_COUNT))).poke F.TMP_OTP_COUNT_PENDING 0).get
        F.TMP_OTP_COUNT_COUNT < 960 → v.counterSpent = false → exec (.startStep1 0) s = .next (setStage v 2)) ∧
    (s.atStep 2 = true → s.get F.DEV_START_FAIL ≠ 8 →
      let t := ((setDomains (setDomain (setDomains s 96 99 true) 112 true) 114 115 true).poke F.CLK_STATUS_LOCK 1).poke
        F.CLK_STATUS_REFCLK_OK 1
      exec .pllLocked s = .next (setStage (setRst t { t.rst with pllTries := 0 }) 3)) ∧
    (s.atStep 2 = true → s.is F.CLK_STATUS_LOCK = false → let t := setRst s { s.rst with pllTries := s.rst.pllTries + 1 };
      (s.rst.pllTries < 2 → exec .pllLockTimeout s = .next t) ∧
      (2 ≤ s.rst.pllTries → exec .pllLockTimeout s = .next (t.poke F.DEV_START_FAIL 8))) ∧
    (s.is F.CLK_STATUS_LOCK = true →
      exec .pllLossOfLock s = .next (critical ((s.poke F.CLK_STATUS_LOCK 0).poke F.CLK_STATUS_LOCK_LOST_SEEN 1) 7)) ∧
    (s.atStep 3 = true →
      let t := setDomain (setDomain (setDomain (setDomains (setDomains s 100 101 true) 104 107 true) 110 true) 113 true) 111 true
      let u := logScan (t.poke F.KS_SCRUB_STATUS_RUNNING 1)
      let v := if u.rst.clean then u.poke F.RST_CAUSE_FLUSHED 1 else u;
      exec (.startStep3 true true) s = .next (setStage ((setRst v { v.rst with clean := false }).poke F.DEV_START_FAIL 0) 4) ∧
      (∀ mram, exec (.startStep3 false mram) s = .next (critical (s.poke F.DEV_START_FAIL 9) 9)) ∧
      exec (.startStep3 true false) s = .next (critical (s.poke F.DEV_START_FAIL 10) 10)) ∧
    (∀ image, s.loads = true → s.is F.DEV_START_RECOVERY = false → s.get F.STRAP_CAPTURE_BOOTSRC = 0 →
      exec (.startStep4 image) s = .next (bootImage image 0 s)) ∧
    (∀ f image, f.port.val = 0 → f.vf = none → s.loads = true →
      (s.is F.DEV_START_RECOVERY = true ∨ s.get F.STRAP_CAPTURE_BOOTSRC = 1) →
      exec (.devBootGo (.fn f) image) s = .next (bootImage (image.take (s.get F.DEV_BOOT_LEN)) 1 s)) ∧
    (s.loads = true → s.is F.DEV_START_RECOVERY = false → s.rst.imageBuf = [] →
      exec .imageSourceTimeout s = .next (imageRefused s 7)) ∧
    (s.atStep 5 = true → s.get F.KS_STATUS_RELOAD = 0 → s.sec.share.isSome →
      let t := formKeys s;
      (kekCheckOf t = t.ks.kekCheck → exec (.startStep5 false) s = .next (critical t 3)) ∧
      (kekCheckOf t = t.ks.kekCheck → (rootLast t.ks.roots).digest = treeRoot t.ks.tree 0 →
        let u := rootAdvance (setEpoch t 0 (t.ks.epoch + 1)) 0;
        u.ks.tree.any (fun e => decide (e.1 < 65536)) = true → exec (.startStep5 true) s =
          .next (u.poke F.KS_STATUS_RELOAD (if (List.range 8).all (groupLive u) then 2 else 1))) ∧
      (kekCheckOf t ≠ t.ks.kekCheck → let u := treeEmpty t;
        u.ks.tree.any (fun e => decide (e.1 < 65536)) = false → ∀ ok, exec (.startStep5 ok) s =
          .next ((rootDraw u).poke F.KS_STATUS_RELOAD (if (List.range 8).all (groupLive (rootDraw u)) then 2 else 1)))) ∧
    (∀ late kat, s.atStep 6 = true → let t := (arraysTested kat s);
      (t.rst.ringEnable && decide (t.ring.table ≠ [])) = false → exec (.startStep6 late kat) s = .next (setStage (focusDefaults
        (mirrorRelease (setDomains (t.poke F.VR_CFG_ENABLE 0) 102 103 false))) 7)) ∧
    (∀ bad, s.atStep 7 = true →
      let t := (List.range 4).foldl (fun (s : State) p => setHport s p { s.hport p with total := s.rst.totals.getD p 0 }) s
      let u := floorAdvance bad (portsEnable (waitOwners (resumeResets (queuesRecover t))))
      let v := setStage (setRst u { u.rst with level := 0, recovery := false, escStart := false, critStage := 0 }) 8
      let w := openAcceptance (if (v.reg 0x2100).toNat &&& 0xE000FF00 ≠ 0 then evLatch v tmpSrc else v);
      w.is F.PWR_STATUS_PFAIL_PIN = false → exec (.startStep7 bad) s = .next w)

/-- How power failure, the hold-up supply, VAUX, host links and management ticks act. Rests on 18_start_reset_clocks_power.md
R452; 18_start_reset_clocks_power.md R457; 18_start_reset_clocks_power.md R458; 18_start_reset_clocks_power.md R459;
18_start_reset_clocks_power.md R462; 18_start_reset_clocks_power.md Table 18.19; 19_periscope_port.md R466;
01_shape_of_the_device.md R12; 01_shape_of_the_device.md R13. -/
def Obligations.PowerCommandsComplete : Prop :=
  ∀ (s : State),
    (s.mainPower = true → exec (.powerFailTrigger true) s = .next (powerFail (s.poke F.PWR_STATUS_VIN_OK 0)) ∧
      (7 ≤ (s.put F.PWR_STATUS_PFAIL_PIN 1).stage → exec (.powerFailTrigger false) s = .next (powerFail (s.put F.PWR_STATUS_PFAIL_PIN 1))) ∧
      ((s.put F.PWR_STATUS_PFAIL_PIN 1).stage < 7 → exec (.powerFailTrigger false) s = .next (s.put F.PWR_STATUS_PFAIL_PIN 1))) ∧
    (s.rst.pfail = true → ∀ collapse,
      let t := requestReset (setRst s { s.rst with pfail := false, level := 0 }) 1 3
      let u := { t with
        mainPower := !collapse
        rst := { t.rst with joined := t.rst.joined ||| s.rst.joined, pfEnd := true, padsHold := t.rst.padsHold || collapse } }
      let v := u.poke F.PWR_STATUS_PFAIL 0
      exec (.powerFailEnd collapse) s = .next (if collapse then v.poke F.PWR_STATUS_VIN_OK 0
        else (v.poke F.PWR_STATUS_VIN_OK 1).poke F.PWR_STATUS_PFAIL_PIN 0)) ∧
    (s.get F.DEV_START_STAGE = 8 → exec .vholdLow s =
      .next (event ((s.poke F.PWR_STATUS_VHOLD_READY 0).raise F.PWR_STATUS_VHOLD_LOW_SEEN) 4 evHoldLow 138)) ∧
    (s.vaux = true → exec .vauxFall s = .next { holdReset 1 false (setRst s { s.rst with
      pfail := false, pfEnd := s.rst.pfEnd || s.rst.pfail }) with vaux := false }) ∧
    (s.vaux = false →
      let t := (({ s with vaux := true, psc := PscSt.zero }.setReg 0x3000 (resetWord 0x3000)).setReg 0x3008 (resetWord 0x3008))
      exec .vauxRise s =
        .next (targetGone 5 (((t.poke F.PSC_STATUS_MODE 0).poke F.PSC_STATUS_DYN_ADDR 0).poke F.PSC_STATUS_EID 0))) ∧
    (∀ p : Fin 4, s.domainOn (96 + p) = true → (s.hport p).up = false →
      exec (.hostLinkUp p) s = .next (evLatch (setHport s p { s.hport p with up := true }) (116 + p))) ∧
    (let t := if 3 ≤ s.get F.DEV_START_STAGE then mramTick (s.add64 F.DEV_MTICK_LO 1) else s
      let u := { t with auxTick := if t.vaux then t.auxTick + 1 else t.auxTick };
      let v := tickCounters u
      exec .managementTick s =
        .next (timeBlocks (timeAt (setFoc v { v.foc with slew := v.foc.slew - slewStep v }) (v.now + tickNs v))))

/-- What the bus, MCTP, PLDM and alert commands of the Periscope port do with VAUX up. Rests on 19_periscope_port.md R464;
19_periscope_port.md R465; 19_periscope_port.md R466; 19_periscope_port.md R467; 19_periscope_port.md R469;
19_periscope_port.md R470; 19_periscope_port.md R472; 19_periscope_port.md R477; 19_periscope_port.md R478;
19_periscope_port.md Table 19.4. -/
def Obligations.PeriscopeBusCommandsComplete : Prop :=
  ∀ (s : State), s.vaux = true →
    (s.i3c = false → (∀ d : BitVec 7, exec (.entdaa d) s = .next (i3cEnter s d.toNat) ∧
        (∀ st : BitVec 7, st.toNat = s.get F.PSC_STATUS_STATIC_ADDR → exec (.setdasa st d) s = .next (i3cEnter s d.toNat))) ∧
      exec .smbusTimeout s = .next (s.incSat F.PSC_ERRORS_TIMEOUTS)) ∧
    exec .rstdaa s = .next ((s.poke F.PSC_STATUS_MODE 0).poke F.PSC_STATUS_DYN_ADDR 0) ∧
    (s.i3c = true →
      (∀ o n : BitVec 7, o.toNat = s.dynAddr → exec (.setnewda o n) s = .next (s.poke F.PSC_STATUS_DYN_ADDR n.toNat)) ∧
      (∀ to_ : Option (BitVec 7), (to_ = none ∨ to_.map (fun x => x.toNat) = some s.dynAddr) →
        (∀ ev : BitVec 8, ev.getLsbD 0 = true → exec (.enec to_ ev) s = .next (setPsc s { s.psc with ibi := true }) ∧
          exec (.disec to_ ev) s = .next (setPsc s { s.psc with ibi := false })) ∧
        (∀ n : BitVec 16, exec (.setmrl to_ n) s = .next (setPsc s { s.psc with mrl := min 256 n.toNat }))) ∧
      (∀ a : BitVec 7, a.toNat = s.dynAddr →
        exec (.getpid a) s = .next (pscSend s (beBytes 6 s.pid)) ∧ exec (.getbcr a) s = .next (pscSend s [0x06]) ∧
        exec (.getdcr a) s = .next (pscSend s [0x00]) ∧
        exec (.getstatus a) s = .next (pscSend s (beBytes 2 (b2n (decide (s.evStack 5 ≠ []))))) ∧
        exec (.getmrl a) s = .next (pscSend s (beBytes 2 s.psc.mrl)))) ∧
    (∀ p : Packet, (s.i3c = true ∨ p.pecOk = true) → p.size ≤ 1088 → p.others < 4 →
      (∀ (op : BitVec 2) (eid : BitVec 8), op.toNat < 2 → eid ≠ 0 → eid ≠ 0xFF → exec (.setEndpointId p op eid) s =
        .next (mctpReply (s.poke F.PSC_STATUS_EID eid.toNat) 1 0 ([0x00] ++ leBytes 1 eid.toNat ++ [0x00]))) ∧
      exec (.getEndpointId p) s = .next (mctpReply s 2 0 (leBytes 1 (s.get F.PSC_STATUS_EID) ++ [0x00, 0x00])) ∧
      exec (.getEndpointUuid p) s = .next (mctpReply s 3 0 (fitBytes 16 Config.endpointUuid)) ∧
      (∀ sel : BitVec 8, (sel = 0xFF ∨ sel ∈ s.typesServed) →
        exec (.getMctpVersionSupport p sel) s = .next (mctpReply s 4 0 [0x01, 0xF1, 0xF3, 0xFF, 0x00])) ∧
      exec (.getMessageTypeSupport p) s = .next (mctpReply s 5 0 (leBytes 1 s.typesServed.length ++ s.typesServed)) ∧
      exec (.getVendorMessageSupport p 0) s =
        .next (mctpReply s 6 0 ([0xFF, 0x00] ++ beBytes 2 Config.pciVendor.toNat ++ [0x00, 0x01])) ∧
      (∀ (typ cmd inst : BitVec 8) d, (typ = 0 ∨ typ = 2) → exec (.pldmMessage p typ cmd inst none d) s =
        .next (pscSend s.free.2 ([0x01] ++ leBytes 1 (inst.toNat % 32) ++ leBytes 1 typ.toNat ++ leBytes 1 cmd.toNat ++ [0x00] ++
          Config.pldmData typ.toNat cmd.toNat d s.freeCtr)))) ∧
    (∀ n : Fin 11, s.is F.PSC_CFG_ALERT_EN = true → s.sensorHeld n = true → exec (.pldmSensorEvent n) s =
      .next (pscSend s.free.2 ([0x01, 0x80, 0x02, 0x0A, 0x01, 0x00, 0x00] ++ leBytes 2 n ++ Config.pldmData 2 10 [] s.freeCtr))) ∧
    (∀ lost src, tget 0 s.evr.offer 5 = src + 1 →
      exec (.pscAlertOffer lost) s = .next (announce (claimRead .psc 5 s) src lost)) ∧
    (∀ lost src n, s.psc.notify = some (src, n) → exec (.pscNotifyRetry lost) s = .next (notifyTry s src n lost)) ∧
    (s.psc.alertN = true → s.i3c = false → exec .alertResponseRead s =
      .next (pscSend (setPsc s { s.psc with alertN := false }) (leBytes 1 (s.get F.PSC_STATUS_STATIC_ADDR)))) ∧
    (∀ lost, exec (.mainRailAlert lost) s = .next (announce s 138 lost))

/-- What the vendor messages of the Periscope port do and answer. Rests on 19_periscope_port.md R473; 19_periscope_port.md
R474; 19_periscope_port.md R475; 19_periscope_port.md R476; 19_periscope_port.md R477; 19_periscope_port.md R479;
19_periscope_port.md Table 19.5; 19_periscope_port.md Table 19.6; 17_device_custody.md R429. -/
def Obligations.PeriscopeVendorCommandsComplete : Prop :=
  ∀ (h : VendorHead) (s : State), s.vaux = true → (s.i3c = true ∨ h.pkt.pecOk = true) → h.pkt.size ≤ 1088 → h.pkt.others < 4 →
    h.version = 1 → h.flags = 0 → h.status = 0 →
    (h.bodyLen.toNat = 0 → exec (.pscVersion h) s = .next (vendorReply s 1 h sOk [1, 1]) ∧
      exec (.pscStatus h) s = .next (vendorReply s 2 h sOk (pscStatus s))) ∧
    (∀ (q : BitVec 64) (n : BitVec 8), h.bodyLen.toNat = 9 → 1 ≤ n.toNat → n.toNat ≤ 16 →
      exec (.logRead h q n) s = .next (vendorReply s 3 h sOk (logRead q.toNat n.toNat s))) ∧
    (∀ (r : BitVec 8) (off len : BitVec 32), h.bodyLen.toNat = 12 → 1 ≤ len.toNat → len.toNat ≤ 1024 →
      off.toNat + len.toNat ≤ regionSize r.toNat →
      exec (.regionRead h r 0 off len) s = .next (vendorReply s.free.2 4 h sOk (regionRead r.toNat off.toNat len.toNat s))) ∧
    (∀ v : Word, h.bodyLen.toNat = 4 → exec (.alertCfg h v) s = .next (vendorReply (pscCfg v s) 11 h sOk [])) ∧
    (∀ lv : BitVec 8, h.bodyLen.toNat = 1 → 1 ≤ lv.toNat → lv.toNat ≤ 3 →
      (s.mainUp = true → s.is F.PSC_CFG_RESET_EN = true →
        exec (.pscReset h lv) s = .next (vendorReply (requestReset s 8 lv.toNat) 5 h sOk [])) ∧
      (s.mainUp = true → s.is F.PSC_CFG_RESET_EN = false → exec (.pscReset h lv) s = .next (vendorReply s 5 h sDenied [])) ∧
      (s.mainUp = false → exec (.pscReset h lv) s = .next (vendorReply s 5 h sDenied []))) ∧
    (∀ (t : BitVec 8) token, h.bodyLen.toNat = 36 → token.length = 32 →
      (s.mainUp = true → s.is F.LC_CMD_BUSY = false → exec (.lcTransition h t 0 token) s =
        .next (vendorReply (lcRequest s t.toNat token).2 6 h sOk (leBytes 1 (lcRequest s t.toNat token).1))) ∧
      ((s.mainUp = false ∨ s.is F.LC_CMD_BUSY = true) →
        exec (.lcTransition h t 0 token) s = .next (vendorReply s 6 h sDenied []))) ∧
    (h.bodyLen.toNat = 0 → (s.mainUp = true → exec (.dbgChallenge h) s =
        .next (vendorReply (drawChallenge s).2 7 h sOk (drawChallenge s).1)) ∧
      (s.mainUp = false → exec (.dbgChallenge h) s = .next (vendorReply s 7 h sDenied []))) ∧
    (∀ (off : BitVec 32) (d : List (BitVec 8)), h.bodyLen.toNat = 8 + d.length → d.length ≤ 1024 → s.mainUp = true →
      (off.toNat = s.lc.certBuf.length →
        exec (.pscDbgCert h off 0 0 d) s =
          .next (vendorReply { s with lc := { s.lc with certBuf := s.lc.certBuf ++ d } } 8 h sOk []) ∧
        (let t := presentCert { s with lc := { s.lc with certBuf := [] } } (s.lc.certBuf ++ d);
          exec (.pscDbgCert h off 1 0 d) s = .next (vendorReply t 8 h sOk (leBytes 1 (t.get F.LC_DEBUG_LAST))))) ∧
      (off.toNat ≠ s.lc.certBuf.length → exec (.pscDbgCert h off 0 0 d) s =
        .next (vendorReply { s with lc := { s.lc with certBuf := [] } } 8 h sMalformed [])) ∧
      (s.loads = true → (s.is F.DEV_START_RECOVERY = true ∨ s.get F.STRAP_CAPTURE_BOOTSRC = 2) → off.toNat = s.rst.imageBuf.length →
        exec (.imageChunk h off 0 0 d) s = .next (vendorReply (setRst s { s.rst with imageBuf := s.rst.imageBuf ++ d }) 9 h sOk []) ∧
        exec (.imageChunk h off 1 0 d) s =
          .next (vendorReply (bootImage (s.rst.imageBuf ++ d) 2 (setRst s { s.rst with imageBuf := [] })) 9 h sOk []))) ∧
    (∀ src : BitVec 16, h.bodyLen.toNat = 2 → s.mainUp = true →
      (∀ r, s.evStack 5 = src.toNat :: r → let t := completeWrite .psc 5 src.toNat s
        exec (.alertAck h src) s =
          .next (vendorReply (setPsc t { t.psc with alertN := false, named := none, notify := none }) 10 h sOk [])) ∧
      ((s.evStack 5).head? ≠ some src.toNat → exec (.alertAck h src) s = .next (vendorReply s 10 h sMalformed [])))

/-- What reads that latch, latched reads, reads that clear, register writes and FCT_PERF_CLEAR do. Rests on 00_scope.md R4;
21_register_map.md R494; 21_register_map.md R495; 21_register_map.md R496; 21_register_map.md R497; 02_facets_and_lenses.md
R49. -/
def Obligations.RegisterCommandsComplete : Prop :=
  ∀ (a : Agent) (s : State),
    (∀ i off len, (i = .latchingLoRead a (.bar0 off) len ∨ i = .latchedHiRead a (.bar0 off) len ∨ i = .rcRead a (.bar0 off) len) →
      ((16777216 ≤ off ∨ s.mayRead a off = false) → exec i s = .next { s with rdata := 0 }) ∧
      (off < 16777216 → s.mayRead a off = true →
        (len = 4 → off % 4 = 0 → (∀ t, ¬ (off = 0x6000 + 256 * t + 4 ∧ t < 6)) →
          (∀ w, tget none s.latches (latchKey a off) = some w → exec i s = .next { s with
            rdata := w.setWidth 64, latches := tset none s.latches (latchKey a off) none }) ∧
          (tget none s.latches (latchKey a off) = none →
            let t := { s with latches := (latchOf off).foldl (fun t h => tset none t (latchKey a h) (some (s.shown h))) s.latches }
            exec i s = .next { rcClear t off with rdata := (s.shown off).setWidth 64 })) ∧
        (len = 8 → off % 8 = 0 → pairAt off = true → exec i s = .next { s with
          rdata := BitVec.ofNat 64 ((s.shown off).toNat + (s.shown (off + 4)).toNat * 4294967296) }) ∧
        (len = 8 → off % 8 = 0 → pairAt off = false →
          let x := regRead a off s
          let y := regRead a (off + 4) x.2
          exec i s = .next { y.2 with rdata := BitVec.ofNat 64 (x.1.toNat + y.1.toNat * 4294967296) }) ∧
        (¬ ((len = 4 ∨ len = 8) ∧ off % len = 0) → exec i s = .next { badAccess s with rdata := 0 }))) ∧
    (∀ off (v : BitVec 64), off < 16777216 → s.outOfReach a off = false →
      (off % 4 = 0 → exec (.registerWrite a (.bar0 off) 4 v) s = .next (regWrite a off (v.setWidth 32) s)) ∧
      (off % 8 = 0 → exec (.registerWrite a (.bar0 off) 8 v) s =
        .next (writeTwo (regWrite a) (some (off + 4)) off (v.setWidth 32) ((v >>> 32).setWidth 32) s)) ∧
      (∀ len, ¬ ((len = 4 ∨ len = 8) ∧ off % len = 0) → exec (.registerWrite a (.bar0 off) len v) s = .next (badAccess s))) ∧
    (∀ f len (v : BitVec 64), a = .fn f → s.outOfReach a 0 = false →
      exec (.registerWrite a (.cfg f) len v) s = .next (cfgWrite f v.toNat s) ∧
      exec (.rcRead a (.cfg f) len) s = .next { s with rdata := BitVec.ofNat 64 (s.fn (fnNum f)).cfg }) ∧
    (∀ p : Fin 72, s.outOfReach a 0x100000 = false → s.isPrimary a = true →
      exec (.fctPerfClear a p) s = .next ((List.range 16).foldl (fun (s : State) j => s.poke F.FCT_PERF 0 p j) s))

/-- A step runs the command at the front of the queue, and an empty queue idles. Rests on 01_shape_of_the_device.md R9;
21_register_map.md R498. -/
def Obligations.StepTakesTheFrontCommand : Prop :=
  ∀ (s : State) (c : Instr) (rest : List Instr),
    (s.pending = c :: rest → step s = exec c { s with pending := rest }) ∧
    (s.pending = [] → step s = .next s)

/-- Reset has an empty queue, a canonical empty memory, no key in any facet, and a sound router in fall-back mode. Rests on
16_event_routing_and_record.md R410; 18_start_reset_clocks_power.md R440; 18_start_reset_clocks_power.md Table 18.5;
02_facets_and_lenses.md R27; 04_key_store.md R94. -/
def Obligations.ResetStateIsSound : Prop :=
  State.reset.pending = [] ∧ State.reset.gmem = [] ∧ memWf State.reset.gmem = true ∧
  (∀ p, (State.reset.facet p).k = none) ∧ (∀ i, (State.reset.krec i).live = false) ∧
  State.reset.evr.latched = [] ∧ (∀ t, tget 0 State.reset.evr.offer t = 0 ∧ State.reset.evStack t = []) ∧
  RouterInv State.reset ∧ State.reset.is F.EVR_CTRL_MODE = false ∧ State.reset.get F.DEV_START_STAGE = 0

/-- Every step of router and recorder commands keeps the router's invariant. Rests on 16_event_routing_and_record.md R404;
16_event_routing_and_record.md R405; 16_event_routing_and_record.md R406; 16_event_routing_and_record.md R407;
16_event_routing_and_record.md R408; 16_event_routing_and_record.md R409; 16_event_routing_and_record.md R410. -/
def Obligations.RouterInvariantKept : Prop :=
  ∀ (s t : State), (∀ c ∈ s.pending, routerCommand c = true) → RouterInv s → step s = .next t →
    RouterInv t ∧ t.pending = s.pending.tail

/-- No register read, and no reading Loupe instruction, depends on key material or on what a facet holds. Rests on
02_facets_and_lenses.md R28; 21_register_map.md R497; 17_device_custody.md R424; 17_device_custody.md R427;
17_device_custody.md Table 17.4. -/
def Obligations.ReadsIgnoreKeyMaterial : Prop :=
  (∀ (s x : State) (i : Instr),
    ((∃ a r len, i = .latchingLoRead a r len ∨ i = .latchedHiRead a r len ∨ i = .rcRead a r len) ∨ i = .loupeIdcode ∨ i = .loupeLcRead ∨
      (∃ pads drive, i = .loupeSamplePreload pads drive)) →
    ∃ t, exec i s = .next t ∧ exec i (withKeys s x) = .next (withKeys t x)) ∧
  (∀ (s x : State) (t : DbgTarget) (w : Bool) (d : BitVec 64), SameOpen s x →
    ∃ u v, exec (.loupeDbgAccess t w d) s = .next u ∧ exec (.loupeDbgAccess t w d) (withKeys s x) = .next v ∧ v.out = u.out)

/-- Integer instructions and branches change only their facet's registers, pc and counters. Rests on 02_facets_and_lenses.md
Table 02.1; 03_facet_programs.md R55; 03_facet_programs.md R56; 02_facets_and_lenses.md R49. -/
def Obligations.IntegerInstructionsFrame : Prop :=
  ∀ (i : Instr) (h : Slot) (s t : State), integerSlot i = some h → h.parity = false → h.also = [] → exec i s = .next t →
    { t with facets := s.facets, regs := s.regs } = s ∧
    (∀ q, q ≠ h.p.val → t.facet q = s.facet q) ∧
    (∀ off, (∀ j, j < 16 → off ≠ F.FCT_PERF.at h.p j) → t.reg off = s.reg off) ∧
    { t.facet h.p with g := (s.facet h.p).g, pc := (s.facet h.p).pc, c := (s.facet h.p).c, squash := (s.facet h.p).squash, halt := (s.facet h.p).halt } =
      s.facet h.p

/-- A halted facet, or one without power, executes no instruction, and the second of a pair behind a taken branch is
discarded. Rests on 17_device_custody.md R428; 03_facet_programs.md R56; 17_device_custody.md Table 17.5;
18_start_reset_clocks_power.md R457. -/
def Obligations.HaltedOrSquashedExecutesNothing : Prop :=
  ∀ (i : Instr) (h : Slot) (s : State), slotOf i = some h →
    ((s.facet h.p).halt = 1 → exec i s = .next s) ∧ (s.domainOn h.p = false → exec i s = .next s) ∧
    ((s.facet h.p).halt = 0 → s.domainOn h.p = true → (s.facet h.p).squash = true → exec i s = .next (s.modFacet h.p (fun f => { f with squash := false })))

/-- Shared memory: a read after a write gives what was written, other bytes stay, and the form stays canonical. Rests on
01_shape_of_the_device.md R20; 01_shape_of_the_device.md R22; 03_facet_programs.md R74; 03_facet_programs.md Table 03.1. -/
def Obligations.SharedMemoryReadsWhatWasWritten : Prop :=
  ∀ (m : List Host.Cell), memWf m = true → ∀ (a : Nat) (d : Bytes) (n : Nat),
    memRead (memWrite m a d) a d.length = d ∧
    (∀ b, (b < a ∨ a + d.length ≤ b) → memRead (memWrite m a d) b 1 = memRead m b 1) ∧
    memWf (memWrite m a d) = true ∧
    memRead (memZero m a n) a n = List.replicate n 0 ∧
    (∀ b, (b < a ∨ a + n ≤ b) → memRead (memZero m a n) b 1 = memRead m b 1) ∧
    memWf (memZero m a n) = true

/-- A read of EVR_CLAIM claims the offer for the target's own agent, and returns 2,047 otherwise. Rests on
16_event_routing_and_record.md R407. -/
def Obligations.ClaimReadsAsStated : Prop :=
  ∀ (a : Agent) (t : Fin 6) (s : State), s.outOfReach a 0x6000 = false →
    let own := (t.val = 0 ∧ a = .steward) ∨ (∃ f : FnId, a = .fn f ∧ f.vf = none ∧ t.val = f.port.val + 1) ∨ (t.val = 5 ∧ a = .psc);
    (own → ∀ n, n < 2047 → tget 0 s.evr.offer t = n + 1 → ∃ u, exec (.evrClaimRead a t) s = .next u ∧ u.rdata.toNat = n ∧
      u.evStack t = n :: s.evStack t ∧ u.evClaimed n = true) ∧
    (own → tget 0 s.evr.offer t = 0 → t.val ∈ s.evr.withdrawn → ∃ u, exec (.evrClaimRead a t) s = .next u ∧ u.rdata.toNat = 2047 ∧
      u.evr.claims = s.evr.claims ∧
      u.get F.EVR_STATUS_SPURIOUS = min (2 ^ F.EVR_STATUS_SPURIOUS.w - 1) (s.get F.EVR_STATUS_SPURIOUS + 1)) ∧
    (own → tget 0 s.evr.offer t = 0 → t.val ∉ s.evr.withdrawn → exec (.evrClaimRead a t) s = .next { s with rdata := 2047 }) ∧
    (¬ own → exec (.evrClaimRead a t) s = .next { s with rdata := 2047 })

/-- No descriptor lifts the outer-world floor of the aperture units. Rests on 15_apertures_worlds_arbitration.md R391. -/
def Obligations.FloorAsStated : Prop :=
  ∀ (s : State) (u a len master : Nat) (write served : Bool), u < 12 →
    1 ≤ len →
    let hit := fun (lo hi : Nat) => ∃ x, a ≤ x ∧ x < a + len ∧ lo ≤ x ∧ x ≤ hi
    let floor := (u = 0 ∧ (hit 0 0x313FFFFFF ∨ hit 0x340000000 0x37FFFFFFF ∨ hit 0x400000000 0x47FFFFFFF ∨
        (write = true ∧ hit 0x380000000 0x3BFFFFFFF))) ∨
      (u = 1 ∧ hit 0x900000000 0xBFFFFFFFF) ∨ u = 2 ∨ u = 5 ∨ u = 7 ∨ (8 ≤ u ∧ served = false);
    (floor → aptCause s u a len master false write served = (3, 0, 0) ∧ (aptCheck s u a len master false write served).1 = false) ∧
    (¬ floor → (aptCause s u a len master false write served).1 ≠ 3) ∧
    (aptCause s u a len master true write served).1 ≠ 3
end

