-- ==== Sys2Proof/Laws/Command.lean ====
section
/-! SUPPORT. Laws/Command.lean: what the shared operations of the commands do: one lemma for each way one can go. -/

namespace Sys2Proof.Machine

open Sys2Proof

theorem command_runs (op : Nat) (w : Work) (s : State) (body : State → State) (h : Runs op w s) : command op w s body = body s := by
  simp [command, h.fresh, h.idle, h.turn, h.opcode, h.layout]

theorem command_again (op : Nat) (w : Work) (s : State) (body : State → State) (c : Nat × Bytes)
    (h : s.changeOf w.o w.t = some c) (hw : waitsAlready s w = false) :
    command op w s body = endWith s w c.1 c.2 := by
  simp [command, h, hw]

theorem command_waits (op : Nat) (w : Work) (s : State) (body : State → State) (hw : waitsAlready s w = true) :
    command op w s body = releaseFacet s w := by
  simp only [command, hw, if_true]
  split <;> rfl

theorem command_not_in_turn (op : Nat) (w : Work) (s : State) (body : State → State)
    (h : s.changeOf w.o w.t = none) (hw : waitsAlready s w = false) (ht : inTurn s op w = false) : command op w s body = s := by
  simp [command, h, hw, ht]

theorem command_unsupported (op : Nat) (w : Work) (s : State) (body : State → State)
    (h : s.changeOf w.o w.t = none) (hw : waitsAlready s w = false)
    (ht : inTurn s op w = true) (hu : opDefined w.ver.toNat op = false ∨ verOk s w.ver.toNat = false) : command op w s body = endWith s w sUnsupported := by
  simp [command, h, hw, ht, hu]

theorem withChecks_pass (s : State) (w : Work) (l : List (Bool × Nat)) (k : State → State) (h : firstFail l = none) :
    withChecks s w l k = k s := by
  simp only [withChecks, h]

theorem withChecks_fail (s : State) (w : Work) (l : List (Bool × Nat)) (k : State → State) (st : Nat)
    (h : firstFail l = some st) : withChecks s w l k = endWith s w st := by
  simp only [withChecks, h]

theorem firstFail_nil : firstFail [] = none := rfl

theorem firstFail_cons (b : Bool) (st : Nat) (l : List (Bool × Nat)) :
    firstFail ((b, st) :: l) = if b then firstFail l else some st := by
  cases b <;> simp [firstFail]

theorem withQuorum_ok (s : State) (w : Work) (op cls o : Nat) (k : Bytes → Bytes → State → State)
    (h : (quorum s w op cls o).st = sOk) :
    withQuorum s w op cls o k = k (quorum s w op cls o).body (quorum s w op cls o).m (quorum s w op cls o).s := by
  simp [withQuorum, h, sOk, sWait]

theorem withQuorum_denied (s : State) (w : Work) (op cls o : Nat) (k : Bytes → Bytes → State → State)
    (h : (quorum s w op cls o).st ≠ sOk) (hw : (quorum s w op cls o).st ≠ sWait) :
    withQuorum s w op cls o k = endWith (quorum s w op cls o).s w (quorum s w op cls o).st := by
  simp [withQuorum, h, hw]

theorem withQuorum_waits (s : State) (w : Work) (op cls o : Nat) (k : Bytes → Bytes → State → State)
    (h : (quorum s w op cls o).st = sWait) :
    withQuorum s w op cls o k = parkJudges (quorum s w op cls o).s w op (quorum s w op cls o).body (quorum s w op cls o).m
      (quorum s w op cls o).sigs := by
  simp [withQuorum, h]

theorem withCredential_ok (s : State) (w : Work) (op : Nat) (body m : Bytes) (q : QSig) (k : State → State)
    (h : verifyInputOk q.alg q.pub q.sig = true) (hv : s.verdict w.o w.t q.slot = some sOk) : withCredential s w op body m q k = k s := by
  simp [withCredential, h, hv]

theorem withKey_ok (s : State) (w : Work) (h : Word) (use : Nat) (fits : Nat → Bool) (k : KeyRec → State → State) (inner : Bool)
    (base : Option State) (r : KeyRec) (t : State) (hl : LoadsKey s w h use inner r t) (hf : fits r.alg = true) :
    withKey s w h use fits k inner base = k r t := by
  obtain ⟨h1, h2⟩ := hl
  simp only [withKey, h1, ne_eq, not_true_eq_false, if_false, h2, hf, if_true]

theorem createFor_ok (s : State) (w : Work) (n : NewKey) (more : Bytes) (i : Nat) (t : State) (h : createRec s n = some (i, t)) :
    createFor s w n more = endDurable t w (pageOf i) (createResult w (t.krec i) ++ more) := by
  simp only [createFor, h]

theorem creates_of (i : Instr) (s0 s : State) (w : Work) (n : NewKey) (more : Bytes)
    (h : exec i s0 = .next (createFor s w n more)) : Creates i s0 s w n more :=
  fun j t hc => by rw [h, createFor_ok _ _ _ _ _ _ hc]

end Sys2Proof.Machine
end

