-- ==== Sys2Proof/Laws/Crc.lean ====
section
/-! SUPPORT. Laws/Crc.lean: a CRC-32C fits the 32-bit register or field that holds it. -/

namespace Sys2Proof.Machine

theorem cvBitR_lt (r : Nat) (h : r < 2 ^ 32) : cvBitR 0x82F63B78 r < 2 ^ 32 := by
  unfold cvBitR
  split
  · exact Nat.xor_lt_two_pow (by omega) (by norm_num)
  · omega

theorem cvStep_lt (r : Nat) (x : Byte) (h : r < 2 ^ 32) : cvStep 0 r x < 2 ^ 32 := by
  have hx : x.toNat < 2 ^ 32 := Nat.lt_trans x.isLt (by norm_num)
  exact cvBitR_lt _ (cvBitR_lt _ (cvBitR_lt _ (cvBitR_lt _ (cvBitR_lt _ (cvBitR_lt _ (cvBitR_lt _ (cvBitR_lt _
    (Nat.xor_lt_two_pow h hx))))))))

theorem cvFeed_lt (d : Bytes) (r : Nat) (h : r < 2 ^ 32) : cvFeed 0 r d < 2 ^ 32 := by
  induction d generalizing r with
  | nil => exact h
  | cons x l ih => exact ih _ (cvStep_lt r x h)

/-- 12 Table 12.8: CRC-32C has 32 bits. -/
theorem crc32c_lt (ctx : Nat) (d : Bytes) : crc32c ctx d < 2 ^ 32 :=
  Nat.xor_lt_two_pow (cvFeed_lt _ _ (cvFeed_lt _ _ (by decide))) (by decide)

end Sys2Proof.Machine
end

