-- ==== Sys2Proof/Laws/Tab.lean ====
section
/-! SUPPORT. Laws/Tab.lean: reading a table after a write, the canonical form, and byte memories. -/

namespace Sys2Proof.Machine

open Sys2Proof

variable {α : Type}

theorem tget_tput_same (d : α) (t : Tab α) (k : Nat) (v : α) : tget d (tput t k v) k = v := by
  induction t with
  | nil => simp [tput, tget]
  | cons e r ih =>
    obtain ⟨k', v'⟩ := e
    simp only [tput]
    split
    · simp [tget]
    · split
      · simp [tget]
      · rename_i h1 h2
        simp only [tget, ih, ite_eq_right_iff]
        intro h; omega

theorem tget_tput_other (d : α) (t : Tab α) (k j : Nat) (v : α) (h : j ≠ k) : tget d (tput t k v) j = tget d t j := by
  induction t with
  | nil => simp [tput, tget, Ne.symm h]
  | cons e r ih =>
    obtain ⟨k', v'⟩ := e
    simp only [tput]
    split
    · simp [tget, Ne.symm h]
    · split
      · rename_i h1 h2; subst h2; simp [tget, Ne.symm h]
      · simp only [tget, ih]

theorem tget_tdel_other (d : α) (t : Tab α) (k j : Nat) (h : j ≠ k) : tget d (tdel t k) j = tget d t j := by
  induction t with
  | nil => rfl
  | cons e r ih =>
    obtain ⟨k', v'⟩ := e
    simp only [tdel]
    split
    · rename_i h1; subst h1; simp [tget, Ne.symm h, ih]
    · simp only [tget, ih]

theorem tabove_tget (d : α) (t : Tab α) (k j : Nat) (h : tabove k t = true) (hj : j ≤ k) : tget d t j = d := by
  induction t with
  | nil => rfl
  | cons e r ih =>
    obtain ⟨k', v'⟩ := e
    simp only [tabove, Bool.and_eq_true, decide_eq_true_eq] at h
    simp only [tget]
    split
    · omega
    · exact ih h.2

variable [DecidableEq α]

theorem tget_tset_other (d : α) (t : Tab α) (k j : Nat) (v : α) (h : j ≠ k) : tget d (tset d t k v) j = tget d t j := by
  unfold tset
  split
  · exact tget_tdel_other d t k j h
  · exact tget_tput_other d t k j v h

omit [DecidableEq α] in
theorem tget_tdel_same (d : α) (t : Tab α) (k : Nat) : tget d (tdel t k) k = d := by
  induction t with
  | nil => rfl
  | cons e r ih =>
    obtain ⟨k', v'⟩ := e
    simp only [tdel]
    split
    · exact ih
    · rename_i h1
      simp only [tget, h1, if_false]
      exact ih

/-- A write is read back. -/
theorem tget_tset_same (d : α) (t : Tab α) (k : Nat) (v : α) : tget d (tset d t k v) k = v := by
  unfold tset
  split
  · rename_i hv; rw [hv]; exact tget_tdel_same d t k
  · exact tget_tput_same d t k v

omit [DecidableEq α] in
theorem tabove_mono (t : Tab α) (j k : Nat) (h : tabove k t = true) (hj : j ≤ k) : tabove j t = true := by
  induction t with
  | nil => rfl
  | cons e r ih =>
    obtain ⟨k', v'⟩ := e
    simp only [tabove, Bool.and_eq_true, decide_eq_true_eq] at h ⊢
    exact ⟨by omega, ih h.2⟩

omit [DecidableEq α] in
theorem tabove_tput (t : Tab α) (j k : Nat) (v : α) (h : tabove j t = true) (hj : j < k) : tabove j (tput t k v) = true := by
  induction t with
  | nil => simp [tput, tabove, hj]
  | cons e r ih =>
    obtain ⟨k', v'⟩ := e
    simp only [tabove, Bool.and_eq_true, decide_eq_true_eq] at h
    simp only [tput]
    split
    · simp [tabove, hj, h]
    · split
      · simp [tabove, hj, h]
      · simp only [tabove, Bool.and_eq_true, decide_eq_true_eq]; exact ⟨h.1, ih h.2⟩

omit [DecidableEq α] in
theorem tabove_tdel (t : Tab α) (j k : Nat) (h : tabove j t = true) : tabove j (tdel t k) = true := by
  induction t with
  | nil => rfl
  | cons e r ih =>
    obtain ⟨k', v'⟩ := e
    simp only [tabove, Bool.and_eq_true, decide_eq_true_eq] at h
    simp only [tdel]
    split
    · exact ih h.2
    · simp only [tabove, Bool.and_eq_true, decide_eq_true_eq]; exact ⟨h.1, ih h.2⟩

theorem twf_tdel (d : α) (t : Tab α) (k : Nat) (h : twf d t = true) : twf d (tdel t k) = true := by
  induction t with
  | nil => rfl
  | cons e r ih =>
    obtain ⟨k', v'⟩ := e
    simp only [twf, Bool.and_eq_true, decide_eq_true_eq] at h
    simp only [tdel]
    split
    · exact ih h.2
    · simp only [twf, Bool.and_eq_true, decide_eq_true_eq]
      exact ⟨⟨h.1.1, tabove_tdel r k' k h.1.2⟩, ih h.2⟩

theorem twf_tput (d : α) (t : Tab α) (k : Nat) (v : α) (hv : v ≠ d) (h : twf d t = true) : twf d (tput t k v) = true := by
  induction t with
  | nil => simp [tput, twf, tabove, hv]
  | cons e r ih =>
    obtain ⟨k', v'⟩ := e
    simp only [twf, Bool.and_eq_true, decide_eq_true_eq] at h
    simp only [tput]
    split
    · rename_i h1
      simp only [twf, tabove, Bool.and_eq_true, decide_eq_true_eq]
      exact ⟨⟨hv, h1, tabove_mono r k k' h.1.2 (by omega)⟩, h.1, h.2⟩
    · split
      · rename_i h1 h2; subst h2
        simp only [twf, Bool.and_eq_true, decide_eq_true_eq]
        exact ⟨⟨hv, h.1.2⟩, h.2⟩
      · simp only [twf, Bool.and_eq_true, decide_eq_true_eq]
        exact ⟨⟨h.1.1, tabove_tput r k' k v h.1.2 (by omega)⟩, ih h.2⟩

/-- Every write keeps the canonical form. -/
theorem twf_tset (d : α) (t : Tab α) (k : Nat) (v : α) (h : twf d t = true) : twf d (tset d t k v) = true := by
  unfold tset
  split
  · exact twf_tdel d t k h
  · rename_i hv; exact twf_tput d t k v hv h

omit [DecidableEq α] in
theorem tabove_filter (t : Tab α) (j : Nat) (p : Nat × α → Bool) (h : tabove j t = true) : tabove j (t.filter p) = true := by
  induction t with
  | nil => rfl
  | cons e r ih =>
    obtain ⟨k', v'⟩ := e
    simp only [tabove, Bool.and_eq_true, decide_eq_true_eq] at h
    rw [List.filter_cons]
    split
    · simp only [tabove, Bool.and_eq_true, decide_eq_true_eq]; exact ⟨h.1, ih h.2⟩
    · exact ih h.2

theorem twf_filter (d : α) (t : Tab α) (p : Nat × α → Bool) (h : twf d t = true) : twf d (t.filter p) = true := by
  induction t with
  | nil => rfl
  | cons e r ih =>
    obtain ⟨k', v'⟩ := e
    simp only [twf, Bool.and_eq_true, decide_eq_true_eq] at h
    rw [List.filter_cons]
    split
    · simp only [twf, Bool.and_eq_true, decide_eq_true_eq]
      exact ⟨⟨h.1.1, tabove_filter r k' p h.1.2⟩, ih h.2⟩
    · exact ih h.2

/-! ## Byte memories -/

omit α in
theorem memWf_memSet (m : List Host.Cell) (a : Nat) (b : Byte) (h : memWf m = true) : memWf (memSet m a b) = true :=
  twf_tset 0 m a b h

theorem memWf_memWrite (d : Bytes) (m : List Host.Cell) (a : Nat) (h : memWf m = true) : memWf (memWrite m a d) = true := by
  induction d generalizing m a with
  | nil => exact h
  | cons b r ih => exact ih _ _ (memWf_memSet m a b h)

theorem memWf_memZero (m : List Host.Cell) (a n : Nat) (h : memWf m = true) : memWf (memZero m a n) = true :=
  twf_filter 0 m _ h

theorem memGet_memSet_same (m : List Host.Cell) (a : Nat) (b : Byte) : memGet (memSet m a b) a = b :=
  tget_tset_same 0 m a b

theorem memGet_memSet_other (m : List Host.Cell) (a j : Nat) (b : Byte) (h : j ≠ a) : memGet (memSet m a b) j = memGet m j :=
  tget_tset_other 0 m a j b h

end Sys2Proof.Machine
end

