-- ==== Sys2Proof/Laws/Facet.lean ====
section
/-! SUPPORT. Laws/Facet.lean: what issuing an instruction does, and what the fetch leaves as it was. -/

namespace Sys2Proof.Machine

open Sys2Proof

theorem setReg_reg_other (s : State) (off j : Nat) (w : Word) (h : j ≠ off) : (s.setReg off w).reg j = s.reg j := by
  unfold State.setReg State.reg
  rw [tset]
  split
  · exact tget_tdel_other _ _ _ _ h
  · exact tget_tput_other _ _ _ _ _ h

/-- Is the register one of the performance counters of facet `p`? -/
def isPerf (p off : Nat) : Prop := ∃ j, j < 16 ∧ off = F.FCT_PERF.at p j

theorem perf_fold (p code n : Nat) (l : List Nat) (hl : ∀ j ∈ l, j < 16) (s : State) :
    let t := l.foldl (fun (s : State) j =>
      if (s.get F.FCT_PERF_SEL p (j / 4) / 2 ^ (8 * (j % 4))) % 256 = code then s.poke F.FCT_PERF (s.get F.FCT_PERF p j + n) p j else s) s
    { t with regs := s.regs } = s ∧ ∀ off, ¬ isPerf p off → t.reg off = s.reg off := by
  induction l generalizing s with
  | nil => exact ⟨rfl, fun _ _ => rfl⟩
  | cons j r ih =>
    simp only [List.foldl_cons]
    have hj := hl j (List.mem_cons_self ..)
    have hr := fun k hk => hl k (List.mem_cons_of_mem _ hk)
    split
    · have := ih hr (s.poke F.FCT_PERF (s.get F.FCT_PERF p j + n) p j)
      refine ⟨?_, fun off ho => ?_⟩
      · have h1 := this.1
        have h2 := congrArg (fun (x : State) => { x with regs := s.regs }) h1
        exact h2
      · rw [this.2 off ho]
        exact setReg_reg_other _ _ _ _ (fun h => ho ⟨j, hj, h⟩)
    · exact ih hr s

/-- Counting events on performance counters changes only those counters. -/
theorem perf_spec (s : State) (p code n : Nat) :
    { perf s p code n with regs := s.regs } = s ∧ ∀ off, ¬ isPerf p off → (perf s p code n).reg off = s.reg off := by
  unfold perf
  split
  · exact ⟨rfl, fun _ _ => rfl⟩
  · exact perf_fold p code n (List.range 16) (fun j hj => List.mem_range.mp hj) s

theorem perf_facets (s : State) (p code n : Nat) : (perf s p code n).facets = s.facets := by
  have h := congrArg State.facets (perf_spec s p code n).1
  exact h

theorem perf_facet (s : State) (p code n q : Nat) : (perf s p code n).facet q = s.facet q := by
  simp [State.facet, perf_facets]

theorem perf_map (s : State) (p code n q : Nat) : (perf s p code n).reg (F.FCT_MAP_ROLE.at q 0) = s.reg (F.FCT_MAP_ROLE.at q 0) := by
  apply (perf_spec s p code n).2
  rintro ⟨j, hj, h⟩
  simp only [Fld.at, F.FCT_MAP_ROLE, F.FCT_PERF] at h
  omega

theorem inner_perf (s : State) (p code n q : Nat) : inner (perf s p code n) q = inner s q := by
  have := perf_map s p code n q
  simp only [inner, perf_facet, State.is, State.get, F.FCT_MAP_VALID, F.FCT_MAP_ROLE, Fld.at] at *
  simp only [this]
  rfl

theorem facet_setFacet_same (s : State) (p : Nat) (f : Facet) : (s.setFacet p f).facet p = f :=
  tget_tset_same _ _ _ _

theorem facet_setFacet_other (s : State) (p q : Nat) (f : Facet) (h : q ≠ p) : (s.setFacet p f).facet q = s.facet q :=
  tget_tset_other _ _ _ _ _ h

/-- The facet of a fetched instruction: only its program counter has moved. -/
theorem fetched_facet (h : Slot) (s : State) :
    (fetched h s).facet h.p.val = { s.facet h.p.val with pc := (s.facet h.p.val).pc + 1 } := by
  unfold fetched State.modFacet
  rw [perf_facet, perf_facet, facet_setFacet_same]

theorem setFacet_reg (s : State) (p : Nat) (f : Facet) (off : Nat) : (s.setFacet p f).reg off = s.reg off := rfl

theorem inner_modFacet_gate (s : State) (p : Nat) (f : Facet → Facet) (h : (s.modFacet p f).facet p = f (s.facet p))
    (hg : (f (s.facet p)).gate = (s.facet p).gate) : inner (s.modFacet p f) p = inner s p := by
  unfold inner State.is State.get
  rw [h, hg]
  rfl

theorem fetched_inner (h : Slot) (s : State) : inner (fetched h s) h.p.val = inner s h.p.val := by
  have e := fetched_facet h s
  unfold fetched at *
  rw [inner_modFacet_gate]
  · rw [inner_perf, inner_perf]
  · rw [e, perf_facet, perf_facet]
  · rfl

/-- The fetch leaves every general register as it was. -/
theorem getG_fetched (h : Slot) (s : State) (r : GR) : getG (fetched h s) h.p.val r = getG s h.p.val r := by
  unfold getG
  rw [fetched_inner, fetched_facet]

/-- An instruction that may issue has its effect on the fetched state. -/
theorem issue_ready (h : Slot) (s : State) (regs : List Nat) (k : State → State) (hr : Ready h regs s) :
    issue h s regs k = k (fetched h s) := by
  unfold issue
  simp [hr.runs, hr.power, hr.kept, hr.free, hr.parity, hr.alone, withCauses, fetched]

theorem getG_setG_other (s : State) (p : Nat) (d r : GR) (x : W64) (hd : r ≠ d) :
    getG (setG s p d x) p r = getG s p r := by
  have hn : r.val ≠ d.val := fun e => hd (Fin.ext e)
  unfold setG
  split
  · rfl
  · have hf : (s.modFacet p (fun f => { f with g := tset 0 f.g d.val x })).facet p = { s.facet p with g := tset 0 (s.facet p).g d.val x } :=
      facet_setFacet_same _ _ _
    unfold getG
    rw [inner_modFacet_gate _ _ _ hf rfl, hf]
    simp only [tget_tset_other _ _ _ _ _ hn]

end Sys2Proof.Machine
end

