-- ==== Sys2Proof/Laws/State.lean ====
section
/-! SUPPORT. Laws/State.lean: each single update of the state, read at each field: one lemma per field per update, true by
unfolding, so that no later proof unfolds a record update. -/

namespace Sys2Proof.Machine

open Sys2Proof

variable (s : State)

/-! ## `State.setReg` -/

@[simp] theorem setReg_pending (off : Nat) (w : Word) : (s.setReg off w).pending = s.pending := rfl
@[simp] theorem setReg_freeCtr (off : Nat) (w : Word) : (s.setReg off w).freeCtr = s.freeCtr := rfl
@[simp] theorem setReg_regs (off : Nat) (w : Word) : (s.setReg off w).regs = tset (resetWord off) s.regs off w := rfl
@[simp] theorem setReg_latches (off : Nat) (w : Word) : (s.setReg off w).latches = s.latches := rfl
@[simp] theorem setReg_rdata (off : Nat) (w : Word) : (s.setReg off w).rdata = s.rdata := rfl
@[simp] theorem setReg_out (off : Nat) (w : Word) : (s.setReg off w).out = s.out := rfl
@[simp] theorem setReg_sent (off : Nat) (w : Word) : (s.setReg off w).sent = s.sent := rfl
@[simp] theorem setReg_dones (off : Nat) (w : Word) : (s.setReg off w).dones = s.dones := rfl
@[simp] theorem setReg_evr (off : Nat) (w : Word) : (s.setReg off w).evr = s.evr := rfl
@[simp] theorem setReg_log (off : Nat) (w : Word) : (s.setReg off w).log = s.log := rfl
@[simp] theorem setReg_apt (off : Nat) (w : Word) : (s.setReg off w).apt = s.apt := rfl
@[simp] theorem setReg_arb (off : Nat) (w : Word) : (s.setReg off w).arb = s.arb := rfl
@[simp] theorem setReg_rng (off : Nat) (w : Word) : (s.setReg off w).rng = s.rng := rfl
@[simp] theorem setReg_cv (off : Nat) (w : Word) : (s.setReg off w).cv = s.cv := rfl
@[simp] theorem setReg_gmem (off : Nat) (w : Word) : (s.setReg off w).gmem = s.gmem := rfl
@[simp] theorem setReg_facets (off : Nat) (w : Word) : (s.setReg off w).facets = s.facets := rfl
@[simp] theorem setReg_progs (off : Nat) (w : Word) : (s.setReg off w).progs = s.progs := rfl
@[simp] theorem setReg_ks (off : Nat) (w : Word) : (s.setReg off w).ks = s.ks := rfl
@[simp] theorem setReg_mainPower (off : Nat) (w : Word) : (s.setReg off w).mainPower = s.mainPower := rfl
@[simp] theorem setReg_primary (off : Nat) (w : Word) : (s.setReg off w).primary = s.primary := rfl
@[simp] theorem setReg_rst (off : Nat) (w : Word) : (s.setReg off w).rst = s.rst := rfl
@[simp] theorem setReg_auxTick (off : Nat) (w : Word) : (s.setReg off w).auxTick = s.auxTick := rfl
@[simp] theorem setReg_wear (off : Nat) (w : Word) : (s.setReg off w).wear = s.wear := rfl
@[simp] theorem setReg_jr (off : Nat) (w : Word) : (s.setReg off w).jr = s.jr := rfl
@[simp] theorem setReg_own (off : Nat) (w : Word) : (s.setReg off w).own = s.own := rfl
@[simp] theorem setReg_sessions (off : Nat) (w : Word) : (s.setReg off w).sessions = s.sessions := rfl
@[simp] theorem setReg_sec (off : Nat) (w : Word) : (s.setReg off w).sec = s.sec := rfl
@[simp] theorem setReg_ownKeys (off : Nat) (w : Word) : (s.setReg off w).ownKeys = s.ownKeys := rfl
@[simp] theorem setReg_acted (off : Nat) (w : Word) : (s.setReg off w).acted = s.acted := rfl
@[simp] theorem setReg_gates (off : Nat) (w : Word) : (s.setReg off w).gates = s.gates := rfl
@[simp] theorem setReg_str (off : Nat) (w : Word) : (s.setReg off w).str = s.str := rfl
@[simp] theorem setReg_streamEnt (off : Nat) (w : Word) : (s.setReg off w).streamEnt = s.streamEnt := rfl
@[simp] theorem setReg_lc (off : Nat) (w : Word) : (s.setReg off w).lc = s.lc := rfl
@[simp] theorem setReg_vaux (off : Nat) (w : Word) : (s.setReg off w).vaux = s.vaux := rfl
@[simp] theorem setReg_ring (off : Nat) (w : Word) : (s.setReg off w).ring = s.ring := rfl
@[simp] theorem setReg_foc (off : Nat) (w : Word) : (s.setReg off w).foc = s.foc := rfl
@[simp] theorem setReg_hx (off : Nat) (w : Word) : (s.setReg off w).hx = s.hx := rfl
@[simp] theorem setReg_fns (off : Nat) (w : Word) : (s.setReg off w).fns = s.fns := rfl
@[simp] theorem setReg_hports (off : Nat) (w : Word) : (s.setReg off w).hports = s.hports := rfl
@[simp] theorem setReg_hbmBad (off : Nat) (w : Word) : (s.setReg off w).hbmBad = s.hbmBad := rfl
@[simp] theorem setReg_marked (off : Nat) (w : Word) : (s.setReg off w).marked = s.marked := rfl
@[simp] theorem setReg_slots (off : Nat) (w : Word) : (s.setReg off w).slots = s.slots := rfl
@[simp] theorem setReg_blobIds (off : Nat) (w : Word) : (s.setReg off w).blobIds = s.blobIds := rfl
@[simp] theorem setReg_psc (off : Nat) (w : Word) : (s.setReg off w).psc = s.psc := rfl

/-! ## `State.poke` -/

@[simp] theorem poke_pending (f : Fld) (v i j : Nat) : (s.poke f v i j).pending = s.pending := rfl
@[simp] theorem poke_freeCtr (f : Fld) (v i j : Nat) : (s.poke f v i j).freeCtr = s.freeCtr := rfl
@[simp] theorem poke_regs (f : Fld) (v i j : Nat) : (s.poke f v i j).regs = tset (resetWord (f.at i j)) s.regs (f.at i j) (setBits (s.reg (f.at i j)) f.lo f.w v) := rfl
@[simp] theorem poke_latches (f : Fld) (v i j : Nat) : (s.poke f v i j).latches = s.latches := rfl
@[simp] theorem poke_rdata (f : Fld) (v i j : Nat) : (s.poke f v i j).rdata = s.rdata := rfl
@[simp] theorem poke_out (f : Fld) (v i j : Nat) : (s.poke f v i j).out = s.out := rfl
@[simp] theorem poke_sent (f : Fld) (v i j : Nat) : (s.poke f v i j).sent = s.sent := rfl
@[simp] theorem poke_dones (f : Fld) (v i j : Nat) : (s.poke f v i j).dones = s.dones := rfl
@[simp] theorem poke_evr (f : Fld) (v i j : Nat) : (s.poke f v i j).evr = s.evr := rfl
@[simp] theorem poke_log (f : Fld) (v i j : Nat) : (s.poke f v i j).log = s.log := rfl
@[simp] theorem poke_apt (f : Fld) (v i j : Nat) : (s.poke f v i j).apt = s.apt := rfl
@[simp] theorem poke_arb (f : Fld) (v i j : Nat) : (s.poke f v i j).arb = s.arb := rfl
@[simp] theorem poke_rng (f : Fld) (v i j : Nat) : (s.poke f v i j).rng = s.rng := rfl
@[simp] theorem poke_cv (f : Fld) (v i j : Nat) : (s.poke f v i j).cv = s.cv := rfl
@[simp] theorem poke_gmem (f : Fld) (v i j : Nat) : (s.poke f v i j).gmem = s.gmem := rfl
@[simp] theorem poke_facets (f : Fld) (v i j : Nat) : (s.poke f v i j).facets = s.facets := rfl
@[simp] theorem poke_progs (f : Fld) (v i j : Nat) : (s.poke f v i j).progs = s.progs := rfl
@[simp] theorem poke_ks (f : Fld) (v i j : Nat) : (s.poke f v i j).ks = s.ks := rfl
@[simp] theorem poke_mainPower (f : Fld) (v i j : Nat) : (s.poke f v i j).mainPower = s.mainPower := rfl
@[simp] theorem poke_primary (f : Fld) (v i j : Nat) : (s.poke f v i j).primary = s.primary := rfl
@[simp] theorem poke_rst (f : Fld) (v i j : Nat) : (s.poke f v i j).rst = s.rst := rfl
@[simp] theorem poke_auxTick (f : Fld) (v i j : Nat) : (s.poke f v i j).auxTick = s.auxTick := rfl
@[simp] theorem poke_wear (f : Fld) (v i j : Nat) : (s.poke f v i j).wear = s.wear := rfl
@[simp] theorem poke_jr (f : Fld) (v i j : Nat) : (s.poke f v i j).jr = s.jr := rfl
@[simp] theorem poke_own (f : Fld) (v i j : Nat) : (s.poke f v i j).own = s.own := rfl
@[simp] theorem poke_sessions (f : Fld) (v i j : Nat) : (s.poke f v i j).sessions = s.sessions := rfl
@[simp] theorem poke_sec (f : Fld) (v i j : Nat) : (s.poke f v i j).sec = s.sec := rfl
@[simp] theorem poke_ownKeys (f : Fld) (v i j : Nat) : (s.poke f v i j).ownKeys = s.ownKeys := rfl
@[simp] theorem poke_acted (f : Fld) (v i j : Nat) : (s.poke f v i j).acted = s.acted := rfl
@[simp] theorem poke_gates (f : Fld) (v i j : Nat) : (s.poke f v i j).gates = s.gates := rfl
@[simp] theorem poke_str (f : Fld) (v i j : Nat) : (s.poke f v i j).str = s.str := rfl
@[simp] theorem poke_streamEnt (f : Fld) (v i j : Nat) : (s.poke f v i j).streamEnt = s.streamEnt := rfl
@[simp] theorem poke_lc (f : Fld) (v i j : Nat) : (s.poke f v i j).lc = s.lc := rfl
@[simp] theorem poke_vaux (f : Fld) (v i j : Nat) : (s.poke f v i j).vaux = s.vaux := rfl
@[simp] theorem poke_ring (f : Fld) (v i j : Nat) : (s.poke f v i j).ring = s.ring := rfl
@[simp] theorem poke_foc (f : Fld) (v i j : Nat) : (s.poke f v i j).foc = s.foc := rfl
@[simp] theorem poke_hx (f : Fld) (v i j : Nat) : (s.poke f v i j).hx = s.hx := rfl
@[simp] theorem poke_fns (f : Fld) (v i j : Nat) : (s.poke f v i j).fns = s.fns := rfl
@[simp] theorem poke_hports (f : Fld) (v i j : Nat) : (s.poke f v i j).hports = s.hports := rfl
@[simp] theorem poke_hbmBad (f : Fld) (v i j : Nat) : (s.poke f v i j).hbmBad = s.hbmBad := rfl
@[simp] theorem poke_marked (f : Fld) (v i j : Nat) : (s.poke f v i j).marked = s.marked := rfl
@[simp] theorem poke_slots (f : Fld) (v i j : Nat) : (s.poke f v i j).slots = s.slots := rfl
@[simp] theorem poke_blobIds (f : Fld) (v i j : Nat) : (s.poke f v i j).blobIds = s.blobIds := rfl
@[simp] theorem poke_psc (f : Fld) (v i j : Nat) : (s.poke f v i j).psc = s.psc := rfl

/-! ## `State.setFacet` -/

@[simp] theorem setFacet_pending (p : Nat) (f : Facet) : (s.setFacet p f).pending = s.pending := rfl
@[simp] theorem setFacet_freeCtr (p : Nat) (f : Facet) : (s.setFacet p f).freeCtr = s.freeCtr := rfl
@[simp] theorem setFacet_regs (p : Nat) (f : Facet) : (s.setFacet p f).regs = s.regs := rfl
@[simp] theorem setFacet_latches (p : Nat) (f : Facet) : (s.setFacet p f).latches = s.latches := rfl
@[simp] theorem setFacet_rdata (p : Nat) (f : Facet) : (s.setFacet p f).rdata = s.rdata := rfl
@[simp] theorem setFacet_out (p : Nat) (f : Facet) : (s.setFacet p f).out = s.out := rfl
@[simp] theorem setFacet_sent (p : Nat) (f : Facet) : (s.setFacet p f).sent = s.sent := rfl
@[simp] theorem setFacet_dones (p : Nat) (f : Facet) : (s.setFacet p f).dones = s.dones := rfl
@[simp] theorem setFacet_evr (p : Nat) (f : Facet) : (s.setFacet p f).evr = s.evr := rfl
@[simp] theorem setFacet_log (p : Nat) (f : Facet) : (s.setFacet p f).log = s.log := rfl
@[simp] theorem setFacet_apt (p : Nat) (f : Facet) : (s.setFacet p f).apt = s.apt := rfl
@[simp] theorem setFacet_arb (p : Nat) (f : Facet) : (s.setFacet p f).arb = s.arb := rfl
@[simp] theorem setFacet_rng (p : Nat) (f : Facet) : (s.setFacet p f).rng = s.rng := rfl
@[simp] theorem setFacet_cv (p : Nat) (f : Facet) : (s.setFacet p f).cv = s.cv := rfl
@[simp] theorem setFacet_gmem (p : Nat) (f : Facet) : (s.setFacet p f).gmem = s.gmem := rfl
@[simp] theorem setFacet_facets (p : Nat) (f : Facet) : (s.setFacet p f).facets = tset Facet.zero s.facets p f := rfl
@[simp] theorem setFacet_progs (p : Nat) (f : Facet) : (s.setFacet p f).progs = s.progs := rfl
@[simp] theorem setFacet_ks (p : Nat) (f : Facet) : (s.setFacet p f).ks = s.ks := rfl
@[simp] theorem setFacet_mainPower (p : Nat) (f : Facet) : (s.setFacet p f).mainPower = s.mainPower := rfl
@[simp] theorem setFacet_primary (p : Nat) (f : Facet) : (s.setFacet p f).primary = s.primary := rfl
@[simp] theorem setFacet_rst (p : Nat) (f : Facet) : (s.setFacet p f).rst = s.rst := rfl
@[simp] theorem setFacet_auxTick (p : Nat) (f : Facet) : (s.setFacet p f).auxTick = s.auxTick := rfl
@[simp] theorem setFacet_wear (p : Nat) (f : Facet) : (s.setFacet p f).wear = s.wear := rfl
@[simp] theorem setFacet_jr (p : Nat) (f : Facet) : (s.setFacet p f).jr = s.jr := rfl
@[simp] theorem setFacet_own (p : Nat) (f : Facet) : (s.setFacet p f).own = s.own := rfl
@[simp] theorem setFacet_sessions (p : Nat) (f : Facet) : (s.setFacet p f).sessions = s.sessions := rfl
@[simp] theorem setFacet_sec (p : Nat) (f : Facet) : (s.setFacet p f).sec = s.sec := rfl
@[simp] theorem setFacet_ownKeys (p : Nat) (f : Facet) : (s.setFacet p f).ownKeys = s.ownKeys := rfl
@[simp] theorem setFacet_acted (p : Nat) (f : Facet) : (s.setFacet p f).acted = s.acted := rfl
@[simp] theorem setFacet_gates (p : Nat) (f : Facet) : (s.setFacet p f).gates = s.gates := rfl
@[simp] theorem setFacet_str (p : Nat) (f : Facet) : (s.setFacet p f).str = s.str := rfl
@[simp] theorem setFacet_streamEnt (p : Nat) (f : Facet) : (s.setFacet p f).streamEnt = s.streamEnt := rfl
@[simp] theorem setFacet_lc (p : Nat) (f : Facet) : (s.setFacet p f).lc = s.lc := rfl
@[simp] theorem setFacet_vaux (p : Nat) (f : Facet) : (s.setFacet p f).vaux = s.vaux := rfl
@[simp] theorem setFacet_ring (p : Nat) (f : Facet) : (s.setFacet p f).ring = s.ring := rfl
@[simp] theorem setFacet_foc (p : Nat) (f : Facet) : (s.setFacet p f).foc = s.foc := rfl
@[simp] theorem setFacet_hx (p : Nat) (f : Facet) : (s.setFacet p f).hx = s.hx := rfl
@[simp] theorem setFacet_fns (p : Nat) (f : Facet) : (s.setFacet p f).fns = s.fns := rfl
@[simp] theorem setFacet_hports (p : Nat) (f : Facet) : (s.setFacet p f).hports = s.hports := rfl
@[simp] theorem setFacet_hbmBad (p : Nat) (f : Facet) : (s.setFacet p f).hbmBad = s.hbmBad := rfl
@[simp] theorem setFacet_marked (p : Nat) (f : Facet) : (s.setFacet p f).marked = s.marked := rfl
@[simp] theorem setFacet_slots (p : Nat) (f : Facet) : (s.setFacet p f).slots = s.slots := rfl
@[simp] theorem setFacet_blobIds (p : Nat) (f : Facet) : (s.setFacet p f).blobIds = s.blobIds := rfl
@[simp] theorem setFacet_psc (p : Nat) (f : Facet) : (s.setFacet p f).psc = s.psc := rfl

/-! ## `State.modFacet` -/

@[simp] theorem modFacet_pending (p : Nat) (f : Facet → Facet) : (s.modFacet p f).pending = s.pending := rfl
@[simp] theorem modFacet_freeCtr (p : Nat) (f : Facet → Facet) : (s.modFacet p f).freeCtr = s.freeCtr := rfl
@[simp] theorem modFacet_regs (p : Nat) (f : Facet → Facet) : (s.modFacet p f).regs = s.regs := rfl
@[simp] theorem modFacet_latches (p : Nat) (f : Facet → Facet) : (s.modFacet p f).latches = s.latches := rfl
@[simp] theorem modFacet_rdata (p : Nat) (f : Facet → Facet) : (s.modFacet p f).rdata = s.rdata := rfl
@[simp] theorem modFacet_out (p : Nat) (f : Facet → Facet) : (s.modFacet p f).out = s.out := rfl
@[simp] theorem modFacet_sent (p : Nat) (f : Facet → Facet) : (s.modFacet p f).sent = s.sent := rfl
@[simp] theorem modFacet_dones (p : Nat) (f : Facet → Facet) : (s.modFacet p f).dones = s.dones := rfl
@[simp] theorem modFacet_evr (p : Nat) (f : Facet → Facet) : (s.modFacet p f).evr = s.evr := rfl
@[simp] theorem modFacet_log (p : Nat) (f : Facet → Facet) : (s.modFacet p f).log = s.log := rfl
@[simp] theorem modFacet_apt (p : Nat) (f : Facet → Facet) : (s.modFacet p f).apt = s.apt := rfl
@[simp] theorem modFacet_arb (p : Nat) (f : Facet → Facet) : (s.modFacet p f).arb = s.arb := rfl
@[simp] theorem modFacet_rng (p : Nat) (f : Facet → Facet) : (s.modFacet p f).rng = s.rng := rfl
@[simp] theorem modFacet_cv (p : Nat) (f : Facet → Facet) : (s.modFacet p f).cv = s.cv := rfl
@[simp] theorem modFacet_gmem (p : Nat) (f : Facet → Facet) : (s.modFacet p f).gmem = s.gmem := rfl
@[simp] theorem modFacet_facets (p : Nat) (f : Facet → Facet) : (s.modFacet p f).facets = tset Facet.zero s.facets p (f (s.facet p)) := rfl
@[simp] theorem modFacet_progs (p : Nat) (f : Facet → Facet) : (s.modFacet p f).progs = s.progs := rfl
@[simp] theorem modFacet_ks (p : Nat) (f : Facet → Facet) : (s.modFacet p f).ks = s.ks := rfl
@[simp] theorem modFacet_mainPower (p : Nat) (f : Facet → Facet) : (s.modFacet p f).mainPower = s.mainPower := rfl
@[simp] theorem modFacet_primary (p : Nat) (f : Facet → Facet) : (s.modFacet p f).primary = s.primary := rfl
@[simp] theorem modFacet_rst (p : Nat) (f : Facet → Facet) : (s.modFacet p f).rst = s.rst := rfl
@[simp] theorem modFacet_auxTick (p : Nat) (f : Facet → Facet) : (s.modFacet p f).auxTick = s.auxTick := rfl
@[simp] theorem modFacet_wear (p : Nat) (f : Facet → Facet) : (s.modFacet p f).wear = s.wear := rfl
@[simp] theorem modFacet_jr (p : Nat) (f : Facet → Facet) : (s.modFacet p f).jr = s.jr := rfl
@[simp] theorem modFacet_own (p : Nat) (f : Facet → Facet) : (s.modFacet p f).own = s.own := rfl
@[simp] theorem modFacet_sessions (p : Nat) (f : Facet → Facet) : (s.modFacet p f).sessions = s.sessions := rfl
@[simp] theorem modFacet_sec (p : Nat) (f : Facet → Facet) : (s.modFacet p f).sec = s.sec := rfl
@[simp] theorem modFacet_ownKeys (p : Nat) (f : Facet → Facet) : (s.modFacet p f).ownKeys = s.ownKeys := rfl
@[simp] theorem modFacet_acted (p : Nat) (f : Facet → Facet) : (s.modFacet p f).acted = s.acted := rfl
@[simp] theorem modFacet_gates (p : Nat) (f : Facet → Facet) : (s.modFacet p f).gates = s.gates := rfl
@[simp] theorem modFacet_str (p : Nat) (f : Facet → Facet) : (s.modFacet p f).str = s.str := rfl
@[simp] theorem modFacet_streamEnt (p : Nat) (f : Facet → Facet) : (s.modFacet p f).streamEnt = s.streamEnt := rfl
@[simp] theorem modFacet_lc (p : Nat) (f : Facet → Facet) : (s.modFacet p f).lc = s.lc := rfl
@[simp] theorem modFacet_vaux (p : Nat) (f : Facet → Facet) : (s.modFacet p f).vaux = s.vaux := rfl
@[simp] theorem modFacet_ring (p : Nat) (f : Facet → Facet) : (s.modFacet p f).ring = s.ring := rfl
@[simp] theorem modFacet_foc (p : Nat) (f : Facet → Facet) : (s.modFacet p f).foc = s.foc := rfl
@[simp] theorem modFacet_hx (p : Nat) (f : Facet → Facet) : (s.modFacet p f).hx = s.hx := rfl
@[simp] theorem modFacet_fns (p : Nat) (f : Facet → Facet) : (s.modFacet p f).fns = s.fns := rfl
@[simp] theorem modFacet_hports (p : Nat) (f : Facet → Facet) : (s.modFacet p f).hports = s.hports := rfl
@[simp] theorem modFacet_hbmBad (p : Nat) (f : Facet → Facet) : (s.modFacet p f).hbmBad = s.hbmBad := rfl
@[simp] theorem modFacet_marked (p : Nat) (f : Facet → Facet) : (s.modFacet p f).marked = s.marked := rfl
@[simp] theorem modFacet_slots (p : Nat) (f : Facet → Facet) : (s.modFacet p f).slots = s.slots := rfl
@[simp] theorem modFacet_blobIds (p : Nat) (f : Facet → Facet) : (s.modFacet p f).blobIds = s.blobIds := rfl
@[simp] theorem modFacet_psc (p : Nat) (f : Facet → Facet) : (s.modFacet p f).psc = s.psc := rfl

/-! ## `State.setArb` -/

@[simp] theorem setArb_pending (a : Nat) (t : ArbSt) : (s.setArb a t).pending = s.pending := rfl
@[simp] theorem setArb_freeCtr (a : Nat) (t : ArbSt) : (s.setArb a t).freeCtr = s.freeCtr := rfl
@[simp] theorem setArb_regs (a : Nat) (t : ArbSt) : (s.setArb a t).regs = s.regs := rfl
@[simp] theorem setArb_latches (a : Nat) (t : ArbSt) : (s.setArb a t).latches = s.latches := rfl
@[simp] theorem setArb_rdata (a : Nat) (t : ArbSt) : (s.setArb a t).rdata = s.rdata := rfl
@[simp] theorem setArb_out (a : Nat) (t : ArbSt) : (s.setArb a t).out = s.out := rfl
@[simp] theorem setArb_sent (a : Nat) (t : ArbSt) : (s.setArb a t).sent = s.sent := rfl
@[simp] theorem setArb_dones (a : Nat) (t : ArbSt) : (s.setArb a t).dones = s.dones := rfl
@[simp] theorem setArb_evr (a : Nat) (t : ArbSt) : (s.setArb a t).evr = s.evr := rfl
@[simp] theorem setArb_log (a : Nat) (t : ArbSt) : (s.setArb a t).log = s.log := rfl
@[simp] theorem setArb_apt (a : Nat) (t : ArbSt) : (s.setArb a t).apt = s.apt := rfl
@[simp] theorem setArb_arb (a : Nat) (t : ArbSt) : (s.setArb a t).arb = tset ArbSt.zero s.arb a t := rfl
@[simp] theorem setArb_rng (a : Nat) (t : ArbSt) : (s.setArb a t).rng = s.rng := rfl
@[simp] theorem setArb_cv (a : Nat) (t : ArbSt) : (s.setArb a t).cv = s.cv := rfl
@[simp] theorem setArb_gmem (a : Nat) (t : ArbSt) : (s.setArb a t).gmem = s.gmem := rfl
@[simp] theorem setArb_facets (a : Nat) (t : ArbSt) : (s.setArb a t).facets = s.facets := rfl
@[simp] theorem setArb_progs (a : Nat) (t : ArbSt) : (s.setArb a t).progs = s.progs := rfl
@[simp] theorem setArb_ks (a : Nat) (t : ArbSt) : (s.setArb a t).ks = s.ks := rfl
@[simp] theorem setArb_mainPower (a : Nat) (t : ArbSt) : (s.setArb a t).mainPower = s.mainPower := rfl
@[simp] theorem setArb_primary (a : Nat) (t : ArbSt) : (s.setArb a t).primary = s.primary := rfl
@[simp] theorem setArb_rst (a : Nat) (t : ArbSt) : (s.setArb a t).rst = s.rst := rfl
@[simp] theorem setArb_auxTick (a : Nat) (t : ArbSt) : (s.setArb a t).auxTick = s.auxTick := rfl
@[simp] theorem setArb_wear (a : Nat) (t : ArbSt) : (s.setArb a t).wear = s.wear := rfl
@[simp] theorem setArb_jr (a : Nat) (t : ArbSt) : (s.setArb a t).jr = s.jr := rfl
@[simp] theorem setArb_own (a : Nat) (t : ArbSt) : (s.setArb a t).own = s.own := rfl
@[simp] theorem setArb_sessions (a : Nat) (t : ArbSt) : (s.setArb a t).sessions = s.sessions := rfl
@[simp] theorem setArb_sec (a : Nat) (t : ArbSt) : (s.setArb a t).sec = s.sec := rfl
@[simp] theorem setArb_ownKeys (a : Nat) (t : ArbSt) : (s.setArb a t).ownKeys = s.ownKeys := rfl
@[simp] theorem setArb_acted (a : Nat) (t : ArbSt) : (s.setArb a t).acted = s.acted := rfl
@[simp] theorem setArb_gates (a : Nat) (t : ArbSt) : (s.setArb a t).gates = s.gates := rfl
@[simp] theorem setArb_str (a : Nat) (t : ArbSt) : (s.setArb a t).str = s.str := rfl
@[simp] theorem setArb_streamEnt (a : Nat) (t : ArbSt) : (s.setArb a t).streamEnt = s.streamEnt := rfl
@[simp] theorem setArb_lc (a : Nat) (t : ArbSt) : (s.setArb a t).lc = s.lc := rfl
@[simp] theorem setArb_vaux (a : Nat) (t : ArbSt) : (s.setArb a t).vaux = s.vaux := rfl
@[simp] theorem setArb_ring (a : Nat) (t : ArbSt) : (s.setArb a t).ring = s.ring := rfl
@[simp] theorem setArb_foc (a : Nat) (t : ArbSt) : (s.setArb a t).foc = s.foc := rfl
@[simp] theorem setArb_hx (a : Nat) (t : ArbSt) : (s.setArb a t).hx = s.hx := rfl
@[simp] theorem setArb_fns (a : Nat) (t : ArbSt) : (s.setArb a t).fns = s.fns := rfl
@[simp] theorem setArb_hports (a : Nat) (t : ArbSt) : (s.setArb a t).hports = s.hports := rfl
@[simp] theorem setArb_hbmBad (a : Nat) (t : ArbSt) : (s.setArb a t).hbmBad = s.hbmBad := rfl
@[simp] theorem setArb_marked (a : Nat) (t : ArbSt) : (s.setArb a t).marked = s.marked := rfl
@[simp] theorem setArb_slots (a : Nat) (t : ArbSt) : (s.setArb a t).slots = s.slots := rfl
@[simp] theorem setArb_blobIds (a : Nat) (t : ArbSt) : (s.setArb a t).blobIds = s.blobIds := rfl
@[simp] theorem setArb_psc (a : Nat) (t : ArbSt) : (s.setArb a t).psc = s.psc := rfl

/-! ## `State.setSource` -/

@[simp] theorem setSource_pending (n : Nat) (x : Source) : (s.setSource n x).pending = s.pending := rfl
@[simp] theorem setSource_freeCtr (n : Nat) (x : Source) : (s.setSource n x).freeCtr = s.freeCtr := rfl
@[simp] theorem setSource_regs (n : Nat) (x : Source) : (s.setSource n x).regs = s.regs := rfl
@[simp] theorem setSource_latches (n : Nat) (x : Source) : (s.setSource n x).latches = s.latches := rfl
@[simp] theorem setSource_rdata (n : Nat) (x : Source) : (s.setSource n x).rdata = s.rdata := rfl
@[simp] theorem setSource_out (n : Nat) (x : Source) : (s.setSource n x).out = s.out := rfl
@[simp] theorem setSource_sent (n : Nat) (x : Source) : (s.setSource n x).sent = s.sent := rfl
@[simp] theorem setSource_dones (n : Nat) (x : Source) : (s.setSource n x).dones = s.dones := rfl
@[simp] theorem setSource_evr (n : Nat) (x : Source) : (s.setSource n x).evr = s.evr := rfl
@[simp] theorem setSource_log (n : Nat) (x : Source) : (s.setSource n x).log = s.log := rfl
@[simp] theorem setSource_apt (n : Nat) (x : Source) : (s.setSource n x).apt = s.apt := rfl
@[simp] theorem setSource_arb (n : Nat) (x : Source) : (s.setSource n x).arb = s.arb := rfl
@[simp] theorem setSource_rng (n : Nat) (x : Source) : (s.setSource n x).rng = { s.rng with src := tset Source.zero s.rng.src n x } := rfl
@[simp] theorem setSource_cv (n : Nat) (x : Source) : (s.setSource n x).cv = s.cv := rfl
@[simp] theorem setSource_gmem (n : Nat) (x : Source) : (s.setSource n x).gmem = s.gmem := rfl
@[simp] theorem setSource_facets (n : Nat) (x : Source) : (s.setSource n x).facets = s.facets := rfl
@[simp] theorem setSource_progs (n : Nat) (x : Source) : (s.setSource n x).progs = s.progs := rfl
@[simp] theorem setSource_ks (n : Nat) (x : Source) : (s.setSource n x).ks = s.ks := rfl
@[simp] theorem setSource_mainPower (n : Nat) (x : Source) : (s.setSource n x).mainPower = s.mainPower := rfl
@[simp] theorem setSource_primary (n : Nat) (x : Source) : (s.setSource n x).primary = s.primary := rfl
@[simp] theorem setSource_rst (n : Nat) (x : Source) : (s.setSource n x).rst = s.rst := rfl
@[simp] theorem setSource_auxTick (n : Nat) (x : Source) : (s.setSource n x).auxTick = s.auxTick := rfl
@[simp] theorem setSource_wear (n : Nat) (x : Source) : (s.setSource n x).wear = s.wear := rfl
@[simp] theorem setSource_jr (n : Nat) (x : Source) : (s.setSource n x).jr = s.jr := rfl
@[simp] theorem setSource_own (n : Nat) (x : Source) : (s.setSource n x).own = s.own := rfl
@[simp] theorem setSource_sessions (n : Nat) (x : Source) : (s.setSource n x).sessions = s.sessions := rfl
@[simp] theorem setSource_sec (n : Nat) (x : Source) : (s.setSource n x).sec = s.sec := rfl
@[simp] theorem setSource_ownKeys (n : Nat) (x : Source) : (s.setSource n x).ownKeys = s.ownKeys := rfl
@[simp] theorem setSource_acted (n : Nat) (x : Source) : (s.setSource n x).acted = s.acted := rfl
@[simp] theorem setSource_gates (n : Nat) (x : Source) : (s.setSource n x).gates = s.gates := rfl
@[simp] theorem setSource_str (n : Nat) (x : Source) : (s.setSource n x).str = s.str := rfl
@[simp] theorem setSource_streamEnt (n : Nat) (x : Source) : (s.setSource n x).streamEnt = s.streamEnt := rfl
@[simp] theorem setSource_lc (n : Nat) (x : Source) : (s.setSource n x).lc = s.lc := rfl
@[simp] theorem setSource_vaux (n : Nat) (x : Source) : (s.setSource n x).vaux = s.vaux := rfl
@[simp] theorem setSource_ring (n : Nat) (x : Source) : (s.setSource n x).ring = s.ring := rfl
@[simp] theorem setSource_foc (n : Nat) (x : Source) : (s.setSource n x).foc = s.foc := rfl
@[simp] theorem setSource_hx (n : Nat) (x : Source) : (s.setSource n x).hx = s.hx := rfl
@[simp] theorem setSource_fns (n : Nat) (x : Source) : (s.setSource n x).fns = s.fns := rfl
@[simp] theorem setSource_hports (n : Nat) (x : Source) : (s.setSource n x).hports = s.hports := rfl
@[simp] theorem setSource_hbmBad (n : Nat) (x : Source) : (s.setSource n x).hbmBad = s.hbmBad := rfl
@[simp] theorem setSource_marked (n : Nat) (x : Source) : (s.setSource n x).marked = s.marked := rfl
@[simp] theorem setSource_slots (n : Nat) (x : Source) : (s.setSource n x).slots = s.slots := rfl
@[simp] theorem setSource_blobIds (n : Nat) (x : Source) : (s.setSource n x).blobIds = s.blobIds := rfl
@[simp] theorem setSource_psc (n : Nat) (x : Source) : (s.setSource n x).psc = s.psc := rfl

/-! ## `setKs` -/

@[simp] theorem setKs_pending (k : KsSt) : (setKs s k).pending = s.pending := rfl
@[simp] theorem setKs_freeCtr (k : KsSt) : (setKs s k).freeCtr = s.freeCtr := rfl
@[simp] theorem setKs_regs (k : KsSt) : (setKs s k).regs = s.regs := rfl
@[simp] theorem setKs_latches (k : KsSt) : (setKs s k).latches = s.latches := rfl
@[simp] theorem setKs_rdata (k : KsSt) : (setKs s k).rdata = s.rdata := rfl
@[simp] theorem setKs_out (k : KsSt) : (setKs s k).out = s.out := rfl
@[simp] theorem setKs_sent (k : KsSt) : (setKs s k).sent = s.sent := rfl
@[simp] theorem setKs_dones (k : KsSt) : (setKs s k).dones = s.dones := rfl
@[simp] theorem setKs_evr (k : KsSt) : (setKs s k).evr = s.evr := rfl
@[simp] theorem setKs_log (k : KsSt) : (setKs s k).log = s.log := rfl
@[simp] theorem setKs_apt (k : KsSt) : (setKs s k).apt = s.apt := rfl
@[simp] theorem setKs_arb (k : KsSt) : (setKs s k).arb = s.arb := rfl
@[simp] theorem setKs_rng (k : KsSt) : (setKs s k).rng = s.rng := rfl
@[simp] theorem setKs_cv (k : KsSt) : (setKs s k).cv = s.cv := rfl
@[simp] theorem setKs_gmem (k : KsSt) : (setKs s k).gmem = s.gmem := rfl
@[simp] theorem setKs_facets (k : KsSt) : (setKs s k).facets = s.facets := rfl
@[simp] theorem setKs_progs (k : KsSt) : (setKs s k).progs = s.progs := rfl
@[simp] theorem setKs_ks (k : KsSt) : (setKs s k).ks = k := rfl
@[simp] theorem setKs_mainPower (k : KsSt) : (setKs s k).mainPower = s.mainPower := rfl
@[simp] theorem setKs_primary (k : KsSt) : (setKs s k).primary = s.primary := rfl
@[simp] theorem setKs_rst (k : KsSt) : (setKs s k).rst = s.rst := rfl
@[simp] theorem setKs_auxTick (k : KsSt) : (setKs s k).auxTick = s.auxTick := rfl
@[simp] theorem setKs_wear (k : KsSt) : (setKs s k).wear = s.wear := rfl
@[simp] theorem setKs_jr (k : KsSt) : (setKs s k).jr = s.jr := rfl
@[simp] theorem setKs_own (k : KsSt) : (setKs s k).own = s.own := rfl
@[simp] theorem setKs_sessions (k : KsSt) : (setKs s k).sessions = s.sessions := rfl
@[simp] theorem setKs_sec (k : KsSt) : (setKs s k).sec = s.sec := rfl
@[simp] theorem setKs_ownKeys (k : KsSt) : (setKs s k).ownKeys = s.ownKeys := rfl
@[simp] theorem setKs_acted (k : KsSt) : (setKs s k).acted = s.acted := rfl
@[simp] theorem setKs_gates (k : KsSt) : (setKs s k).gates = s.gates := rfl
@[simp] theorem setKs_str (k : KsSt) : (setKs s k).str = s.str := rfl
@[simp] theorem setKs_streamEnt (k : KsSt) : (setKs s k).streamEnt = s.streamEnt := rfl
@[simp] theorem setKs_lc (k : KsSt) : (setKs s k).lc = s.lc := rfl
@[simp] theorem setKs_vaux (k : KsSt) : (setKs s k).vaux = s.vaux := rfl
@[simp] theorem setKs_ring (k : KsSt) : (setKs s k).ring = s.ring := rfl
@[simp] theorem setKs_foc (k : KsSt) : (setKs s k).foc = s.foc := rfl
@[simp] theorem setKs_hx (k : KsSt) : (setKs s k).hx = s.hx := rfl
@[simp] theorem setKs_fns (k : KsSt) : (setKs s k).fns = s.fns := rfl
@[simp] theorem setKs_hports (k : KsSt) : (setKs s k).hports = s.hports := rfl
@[simp] theorem setKs_hbmBad (k : KsSt) : (setKs s k).hbmBad = s.hbmBad := rfl
@[simp] theorem setKs_marked (k : KsSt) : (setKs s k).marked = s.marked := rfl
@[simp] theorem setKs_slots (k : KsSt) : (setKs s k).slots = s.slots := rfl
@[simp] theorem setKs_blobIds (k : KsSt) : (setKs s k).blobIds = s.blobIds := rfl
@[simp] theorem setKs_psc (k : KsSt) : (setKs s k).psc = s.psc := rfl

/-! ## `setProg` -/

@[simp] theorem setProg_pending (k : Nat) (g : Option Prog) : (setProg s k g).pending = s.pending := rfl
@[simp] theorem setProg_freeCtr (k : Nat) (g : Option Prog) : (setProg s k g).freeCtr = s.freeCtr := rfl
@[simp] theorem setProg_regs (k : Nat) (g : Option Prog) : (setProg s k g).regs = s.regs := rfl
@[simp] theorem setProg_latches (k : Nat) (g : Option Prog) : (setProg s k g).latches = s.latches := rfl
@[simp] theorem setProg_rdata (k : Nat) (g : Option Prog) : (setProg s k g).rdata = s.rdata := rfl
@[simp] theorem setProg_out (k : Nat) (g : Option Prog) : (setProg s k g).out = s.out := rfl
@[simp] theorem setProg_sent (k : Nat) (g : Option Prog) : (setProg s k g).sent = s.sent := rfl
@[simp] theorem setProg_dones (k : Nat) (g : Option Prog) : (setProg s k g).dones = s.dones := rfl
@[simp] theorem setProg_evr (k : Nat) (g : Option Prog) : (setProg s k g).evr = s.evr := rfl
@[simp] theorem setProg_log (k : Nat) (g : Option Prog) : (setProg s k g).log = s.log := rfl
@[simp] theorem setProg_apt (k : Nat) (g : Option Prog) : (setProg s k g).apt = s.apt := rfl
@[simp] theorem setProg_arb (k : Nat) (g : Option Prog) : (setProg s k g).arb = s.arb := rfl
@[simp] theorem setProg_rng (k : Nat) (g : Option Prog) : (setProg s k g).rng = s.rng := rfl
@[simp] theorem setProg_cv (k : Nat) (g : Option Prog) : (setProg s k g).cv = s.cv := rfl
@[simp] theorem setProg_gmem (k : Nat) (g : Option Prog) : (setProg s k g).gmem = s.gmem := rfl
@[simp] theorem setProg_facets (k : Nat) (g : Option Prog) : (setProg s k g).facets = s.facets := rfl
@[simp] theorem setProg_progs (k : Nat) (g : Option Prog) : (setProg s k g).progs = tset none s.progs k g := rfl
@[simp] theorem setProg_ks (k : Nat) (g : Option Prog) : (setProg s k g).ks = s.ks := rfl
@[simp] theorem setProg_mainPower (k : Nat) (g : Option Prog) : (setProg s k g).mainPower = s.mainPower := rfl
@[simp] theorem setProg_primary (k : Nat) (g : Option Prog) : (setProg s k g).primary = s.primary := rfl
@[simp] theorem setProg_rst (k : Nat) (g : Option Prog) : (setProg s k g).rst = s.rst := rfl
@[simp] theorem setProg_auxTick (k : Nat) (g : Option Prog) : (setProg s k g).auxTick = s.auxTick := rfl
@[simp] theorem setProg_wear (k : Nat) (g : Option Prog) : (setProg s k g).wear = s.wear := rfl
@[simp] theorem setProg_jr (k : Nat) (g : Option Prog) : (setProg s k g).jr = s.jr := rfl
@[simp] theorem setProg_own (k : Nat) (g : Option Prog) : (setProg s k g).own = s.own := rfl
@[simp] theorem setProg_sessions (k : Nat) (g : Option Prog) : (setProg s k g).sessions = s.sessions := rfl
@[simp] theorem setProg_sec (k : Nat) (g : Option Prog) : (setProg s k g).sec = s.sec := rfl
@[simp] theorem setProg_ownKeys (k : Nat) (g : Option Prog) : (setProg s k g).ownKeys = s.ownKeys := rfl
@[simp] theorem setProg_acted (k : Nat) (g : Option Prog) : (setProg s k g).acted = s.acted := rfl
@[simp] theorem setProg_gates (k : Nat) (g : Option Prog) : (setProg s k g).gates = s.gates := rfl
@[simp] theorem setProg_str (k : Nat) (g : Option Prog) : (setProg s k g).str = s.str := rfl
@[simp] theorem setProg_streamEnt (k : Nat) (g : Option Prog) : (setProg s k g).streamEnt = s.streamEnt := rfl
@[simp] theorem setProg_lc (k : Nat) (g : Option Prog) : (setProg s k g).lc = s.lc := rfl
@[simp] theorem setProg_vaux (k : Nat) (g : Option Prog) : (setProg s k g).vaux = s.vaux := rfl
@[simp] theorem setProg_ring (k : Nat) (g : Option Prog) : (setProg s k g).ring = s.ring := rfl
@[simp] theorem setProg_foc (k : Nat) (g : Option Prog) : (setProg s k g).foc = s.foc := rfl
@[simp] theorem setProg_hx (k : Nat) (g : Option Prog) : (setProg s k g).hx = s.hx := rfl
@[simp] theorem setProg_fns (k : Nat) (g : Option Prog) : (setProg s k g).fns = s.fns := rfl
@[simp] theorem setProg_hports (k : Nat) (g : Option Prog) : (setProg s k g).hports = s.hports := rfl
@[simp] theorem setProg_hbmBad (k : Nat) (g : Option Prog) : (setProg s k g).hbmBad = s.hbmBad := rfl
@[simp] theorem setProg_marked (k : Nat) (g : Option Prog) : (setProg s k g).marked = s.marked := rfl
@[simp] theorem setProg_slots (k : Nat) (g : Option Prog) : (setProg s k g).slots = s.slots := rfl
@[simp] theorem setProg_blobIds (k : Nat) (g : Option Prog) : (setProg s k g).blobIds = s.blobIds := rfl
@[simp] theorem setProg_psc (k : Nat) (g : Option Prog) : (setProg s k g).psc = s.psc := rfl

/-! ## `setJr` -/

@[simp] theorem setJr_pending (j : JrSt) : (setJr s j).pending = s.pending := rfl
@[simp] theorem setJr_freeCtr (j : JrSt) : (setJr s j).freeCtr = s.freeCtr := rfl
@[simp] theorem setJr_regs (j : JrSt) : (setJr s j).regs = s.regs := rfl
@[simp] theorem setJr_latches (j : JrSt) : (setJr s j).latches = s.latches := rfl
@[simp] theorem setJr_rdata (j : JrSt) : (setJr s j).rdata = s.rdata := rfl
@[simp] theorem setJr_out (j : JrSt) : (setJr s j).out = s.out := rfl
@[simp] theorem setJr_sent (j : JrSt) : (setJr s j).sent = s.sent := rfl
@[simp] theorem setJr_dones (j : JrSt) : (setJr s j).dones = s.dones := rfl
@[simp] theorem setJr_evr (j : JrSt) : (setJr s j).evr = s.evr := rfl
@[simp] theorem setJr_log (j : JrSt) : (setJr s j).log = s.log := rfl
@[simp] theorem setJr_apt (j : JrSt) : (setJr s j).apt = s.apt := rfl
@[simp] theorem setJr_arb (j : JrSt) : (setJr s j).arb = s.arb := rfl
@[simp] theorem setJr_rng (j : JrSt) : (setJr s j).rng = s.rng := rfl
@[simp] theorem setJr_cv (j : JrSt) : (setJr s j).cv = s.cv := rfl
@[simp] theorem setJr_gmem (j : JrSt) : (setJr s j).gmem = s.gmem := rfl
@[simp] theorem setJr_facets (j : JrSt) : (setJr s j).facets = s.facets := rfl
@[simp] theorem setJr_progs (j : JrSt) : (setJr s j).progs = s.progs := rfl
@[simp] theorem setJr_ks (j : JrSt) : (setJr s j).ks = s.ks := rfl
@[simp] theorem setJr_mainPower (j : JrSt) : (setJr s j).mainPower = s.mainPower := rfl
@[simp] theorem setJr_primary (j : JrSt) : (setJr s j).primary = s.primary := rfl
@[simp] theorem setJr_rst (j : JrSt) : (setJr s j).rst = s.rst := rfl
@[simp] theorem setJr_auxTick (j : JrSt) : (setJr s j).auxTick = s.auxTick := rfl
@[simp] theorem setJr_wear (j : JrSt) : (setJr s j).wear = s.wear := rfl
@[simp] theorem setJr_jr (j : JrSt) : (setJr s j).jr = j := rfl
@[simp] theorem setJr_own (j : JrSt) : (setJr s j).own = s.own := rfl
@[simp] theorem setJr_sessions (j : JrSt) : (setJr s j).sessions = s.sessions := rfl
@[simp] theorem setJr_sec (j : JrSt) : (setJr s j).sec = s.sec := rfl
@[simp] theorem setJr_ownKeys (j : JrSt) : (setJr s j).ownKeys = s.ownKeys := rfl
@[simp] theorem setJr_acted (j : JrSt) : (setJr s j).acted = s.acted := rfl
@[simp] theorem setJr_gates (j : JrSt) : (setJr s j).gates = s.gates := rfl
@[simp] theorem setJr_str (j : JrSt) : (setJr s j).str = s.str := rfl
@[simp] theorem setJr_streamEnt (j : JrSt) : (setJr s j).streamEnt = s.streamEnt := rfl
@[simp] theorem setJr_lc (j : JrSt) : (setJr s j).lc = s.lc := rfl
@[simp] theorem setJr_vaux (j : JrSt) : (setJr s j).vaux = s.vaux := rfl
@[simp] theorem setJr_ring (j : JrSt) : (setJr s j).ring = s.ring := rfl
@[simp] theorem setJr_foc (j : JrSt) : (setJr s j).foc = s.foc := rfl
@[simp] theorem setJr_hx (j : JrSt) : (setJr s j).hx = s.hx := rfl
@[simp] theorem setJr_fns (j : JrSt) : (setJr s j).fns = s.fns := rfl
@[simp] theorem setJr_hports (j : JrSt) : (setJr s j).hports = s.hports := rfl
@[simp] theorem setJr_hbmBad (j : JrSt) : (setJr s j).hbmBad = s.hbmBad := rfl
@[simp] theorem setJr_marked (j : JrSt) : (setJr s j).marked = s.marked := rfl
@[simp] theorem setJr_slots (j : JrSt) : (setJr s j).slots = s.slots := rfl
@[simp] theorem setJr_blobIds (j : JrSt) : (setJr s j).blobIds = s.blobIds := rfl
@[simp] theorem setJr_psc (j : JrSt) : (setJr s j).psc = s.psc := rfl

/-! ## `jrSet` -/

@[simp] theorem jrSet_pending (i : Nat) (r : Option JRec) : (jrSet s i r).pending = s.pending := rfl
@[simp] theorem jrSet_freeCtr (i : Nat) (r : Option JRec) : (jrSet s i r).freeCtr = s.freeCtr := rfl
@[simp] theorem jrSet_regs (i : Nat) (r : Option JRec) : (jrSet s i r).regs = s.regs := rfl
@[simp] theorem jrSet_latches (i : Nat) (r : Option JRec) : (jrSet s i r).latches = s.latches := rfl
@[simp] theorem jrSet_rdata (i : Nat) (r : Option JRec) : (jrSet s i r).rdata = s.rdata := rfl
@[simp] theorem jrSet_out (i : Nat) (r : Option JRec) : (jrSet s i r).out = s.out := rfl
@[simp] theorem jrSet_sent (i : Nat) (r : Option JRec) : (jrSet s i r).sent = s.sent := rfl
@[simp] theorem jrSet_dones (i : Nat) (r : Option JRec) : (jrSet s i r).dones = s.dones := rfl
@[simp] theorem jrSet_evr (i : Nat) (r : Option JRec) : (jrSet s i r).evr = s.evr := rfl
@[simp] theorem jrSet_log (i : Nat) (r : Option JRec) : (jrSet s i r).log = s.log := rfl
@[simp] theorem jrSet_apt (i : Nat) (r : Option JRec) : (jrSet s i r).apt = s.apt := rfl
@[simp] theorem jrSet_arb (i : Nat) (r : Option JRec) : (jrSet s i r).arb = s.arb := rfl
@[simp] theorem jrSet_rng (i : Nat) (r : Option JRec) : (jrSet s i r).rng = s.rng := rfl
@[simp] theorem jrSet_cv (i : Nat) (r : Option JRec) : (jrSet s i r).cv = s.cv := rfl
@[simp] theorem jrSet_gmem (i : Nat) (r : Option JRec) : (jrSet s i r).gmem = s.gmem := rfl
@[simp] theorem jrSet_facets (i : Nat) (r : Option JRec) : (jrSet s i r).facets = s.facets := rfl
@[simp] theorem jrSet_progs (i : Nat) (r : Option JRec) : (jrSet s i r).progs = s.progs := rfl
@[simp] theorem jrSet_ks (i : Nat) (r : Option JRec) : (jrSet s i r).ks = s.ks := rfl
@[simp] theorem jrSet_mainPower (i : Nat) (r : Option JRec) : (jrSet s i r).mainPower = s.mainPower := rfl
@[simp] theorem jrSet_primary (i : Nat) (r : Option JRec) : (jrSet s i r).primary = s.primary := rfl
@[simp] theorem jrSet_rst (i : Nat) (r : Option JRec) : (jrSet s i r).rst = s.rst := rfl
@[simp] theorem jrSet_auxTick (i : Nat) (r : Option JRec) : (jrSet s i r).auxTick = s.auxTick := rfl
@[simp] theorem jrSet_wear (i : Nat) (r : Option JRec) : (jrSet s i r).wear = s.wear := rfl
@[simp] theorem jrSet_jr (i : Nat) (r : Option JRec) : (jrSet s i r).jr = { s.jr with recs := tset none s.jr.recs i r } := rfl
@[simp] theorem jrSet_own (i : Nat) (r : Option JRec) : (jrSet s i r).own = s.own := rfl
@[simp] theorem jrSet_sessions (i : Nat) (r : Option JRec) : (jrSet s i r).sessions = s.sessions := rfl
@[simp] theorem jrSet_sec (i : Nat) (r : Option JRec) : (jrSet s i r).sec = s.sec := rfl
@[simp] theorem jrSet_ownKeys (i : Nat) (r : Option JRec) : (jrSet s i r).ownKeys = s.ownKeys := rfl
@[simp] theorem jrSet_acted (i : Nat) (r : Option JRec) : (jrSet s i r).acted = s.acted := rfl
@[simp] theorem jrSet_gates (i : Nat) (r : Option JRec) : (jrSet s i r).gates = s.gates := rfl
@[simp] theorem jrSet_str (i : Nat) (r : Option JRec) : (jrSet s i r).str = s.str := rfl
@[simp] theorem jrSet_streamEnt (i : Nat) (r : Option JRec) : (jrSet s i r).streamEnt = s.streamEnt := rfl
@[simp] theorem jrSet_lc (i : Nat) (r : Option JRec) : (jrSet s i r).lc = s.lc := rfl
@[simp] theorem jrSet_vaux (i : Nat) (r : Option JRec) : (jrSet s i r).vaux = s.vaux := rfl
@[simp] theorem jrSet_ring (i : Nat) (r : Option JRec) : (jrSet s i r).ring = s.ring := rfl
@[simp] theorem jrSet_foc (i : Nat) (r : Option JRec) : (jrSet s i r).foc = s.foc := rfl
@[simp] theorem jrSet_hx (i : Nat) (r : Option JRec) : (jrSet s i r).hx = s.hx := rfl
@[simp] theorem jrSet_fns (i : Nat) (r : Option JRec) : (jrSet s i r).fns = s.fns := rfl
@[simp] theorem jrSet_hports (i : Nat) (r : Option JRec) : (jrSet s i r).hports = s.hports := rfl
@[simp] theorem jrSet_hbmBad (i : Nat) (r : Option JRec) : (jrSet s i r).hbmBad = s.hbmBad := rfl
@[simp] theorem jrSet_marked (i : Nat) (r : Option JRec) : (jrSet s i r).marked = s.marked := rfl
@[simp] theorem jrSet_slots (i : Nat) (r : Option JRec) : (jrSet s i r).slots = s.slots := rfl
@[simp] theorem jrSet_blobIds (i : Nat) (r : Option JRec) : (jrSet s i r).blobIds = s.blobIds := rfl
@[simp] theorem jrSet_psc (i : Nat) (r : Option JRec) : (jrSet s i r).psc = s.psc := rfl

/-! ## `setOwner` -/

@[simp] theorem setOwner_pending (o : Nat) (x : Owner) : (setOwner s o x).pending = s.pending := rfl
@[simp] theorem setOwner_freeCtr (o : Nat) (x : Owner) : (setOwner s o x).freeCtr = s.freeCtr := rfl
@[simp] theorem setOwner_regs (o : Nat) (x : Owner) : (setOwner s o x).regs = s.regs := rfl
@[simp] theorem setOwner_latches (o : Nat) (x : Owner) : (setOwner s o x).latches = s.latches := rfl
@[simp] theorem setOwner_rdata (o : Nat) (x : Owner) : (setOwner s o x).rdata = s.rdata := rfl
@[simp] theorem setOwner_out (o : Nat) (x : Owner) : (setOwner s o x).out = s.out := rfl
@[simp] theorem setOwner_sent (o : Nat) (x : Owner) : (setOwner s o x).sent = s.sent := rfl
@[simp] theorem setOwner_dones (o : Nat) (x : Owner) : (setOwner s o x).dones = s.dones := rfl
@[simp] theorem setOwner_evr (o : Nat) (x : Owner) : (setOwner s o x).evr = s.evr := rfl
@[simp] theorem setOwner_log (o : Nat) (x : Owner) : (setOwner s o x).log = s.log := rfl
@[simp] theorem setOwner_apt (o : Nat) (x : Owner) : (setOwner s o x).apt = s.apt := rfl
@[simp] theorem setOwner_arb (o : Nat) (x : Owner) : (setOwner s o x).arb = s.arb := rfl
@[simp] theorem setOwner_rng (o : Nat) (x : Owner) : (setOwner s o x).rng = s.rng := rfl
@[simp] theorem setOwner_cv (o : Nat) (x : Owner) : (setOwner s o x).cv = s.cv := rfl
@[simp] theorem setOwner_gmem (o : Nat) (x : Owner) : (setOwner s o x).gmem = s.gmem := rfl
@[simp] theorem setOwner_facets (o : Nat) (x : Owner) : (setOwner s o x).facets = s.facets := rfl
@[simp] theorem setOwner_progs (o : Nat) (x : Owner) : (setOwner s o x).progs = s.progs := rfl
@[simp] theorem setOwner_ks (o : Nat) (x : Owner) : (setOwner s o x).ks = s.ks := rfl
@[simp] theorem setOwner_mainPower (o : Nat) (x : Owner) : (setOwner s o x).mainPower = s.mainPower := rfl
@[simp] theorem setOwner_primary (o : Nat) (x : Owner) : (setOwner s o x).primary = s.primary := rfl
@[simp] theorem setOwner_rst (o : Nat) (x : Owner) : (setOwner s o x).rst = s.rst := rfl
@[simp] theorem setOwner_auxTick (o : Nat) (x : Owner) : (setOwner s o x).auxTick = s.auxTick := rfl
@[simp] theorem setOwner_wear (o : Nat) (x : Owner) : (setOwner s o x).wear = s.wear := rfl
@[simp] theorem setOwner_jr (o : Nat) (x : Owner) : (setOwner s o x).jr = s.jr := rfl
@[simp] theorem setOwner_own (o : Nat) (x : Owner) : (setOwner s o x).own = tset Owner.absent s.own o x := rfl
@[simp] theorem setOwner_sessions (o : Nat) (x : Owner) : (setOwner s o x).sessions = s.sessions := rfl
@[simp] theorem setOwner_sec (o : Nat) (x : Owner) : (setOwner s o x).sec = s.sec := rfl
@[simp] theorem setOwner_ownKeys (o : Nat) (x : Owner) : (setOwner s o x).ownKeys = s.ownKeys := rfl
@[simp] theorem setOwner_acted (o : Nat) (x : Owner) : (setOwner s o x).acted = s.acted := rfl
@[simp] theorem setOwner_gates (o : Nat) (x : Owner) : (setOwner s o x).gates = s.gates := rfl
@[simp] theorem setOwner_str (o : Nat) (x : Owner) : (setOwner s o x).str = s.str := rfl
@[simp] theorem setOwner_streamEnt (o : Nat) (x : Owner) : (setOwner s o x).streamEnt = s.streamEnt := rfl
@[simp] theorem setOwner_lc (o : Nat) (x : Owner) : (setOwner s o x).lc = s.lc := rfl
@[simp] theorem setOwner_vaux (o : Nat) (x : Owner) : (setOwner s o x).vaux = s.vaux := rfl
@[simp] theorem setOwner_ring (o : Nat) (x : Owner) : (setOwner s o x).ring = s.ring := rfl
@[simp] theorem setOwner_foc (o : Nat) (x : Owner) : (setOwner s o x).foc = s.foc := rfl
@[simp] theorem setOwner_hx (o : Nat) (x : Owner) : (setOwner s o x).hx = s.hx := rfl
@[simp] theorem setOwner_fns (o : Nat) (x : Owner) : (setOwner s o x).fns = s.fns := rfl
@[simp] theorem setOwner_hports (o : Nat) (x : Owner) : (setOwner s o x).hports = s.hports := rfl
@[simp] theorem setOwner_hbmBad (o : Nat) (x : Owner) : (setOwner s o x).hbmBad = s.hbmBad := rfl
@[simp] theorem setOwner_marked (o : Nat) (x : Owner) : (setOwner s o x).marked = s.marked := rfl
@[simp] theorem setOwner_slots (o : Nat) (x : Owner) : (setOwner s o x).slots = s.slots := rfl
@[simp] theorem setOwner_blobIds (o : Nat) (x : Owner) : (setOwner s o x).blobIds = s.blobIds := rfl
@[simp] theorem setOwner_psc (o : Nat) (x : Owner) : (setOwner s o x).psc = s.psc := rfl

/-! ## `modOwner` -/

@[simp] theorem modOwner_pending (o : Nat) (f : Owner → Owner) : (modOwner s o f).pending = s.pending := rfl
@[simp] theorem modOwner_freeCtr (o : Nat) (f : Owner → Owner) : (modOwner s o f).freeCtr = s.freeCtr := rfl
@[simp] theorem modOwner_regs (o : Nat) (f : Owner → Owner) : (modOwner s o f).regs = s.regs := rfl
@[simp] theorem modOwner_latches (o : Nat) (f : Owner → Owner) : (modOwner s o f).latches = s.latches := rfl
@[simp] theorem modOwner_rdata (o : Nat) (f : Owner → Owner) : (modOwner s o f).rdata = s.rdata := rfl
@[simp] theorem modOwner_out (o : Nat) (f : Owner → Owner) : (modOwner s o f).out = s.out := rfl
@[simp] theorem modOwner_sent (o : Nat) (f : Owner → Owner) : (modOwner s o f).sent = s.sent := rfl
@[simp] theorem modOwner_dones (o : Nat) (f : Owner → Owner) : (modOwner s o f).dones = s.dones := rfl
@[simp] theorem modOwner_evr (o : Nat) (f : Owner → Owner) : (modOwner s o f).evr = s.evr := rfl
@[simp] theorem modOwner_log (o : Nat) (f : Owner → Owner) : (modOwner s o f).log = s.log := rfl
@[simp] theorem modOwner_apt (o : Nat) (f : Owner → Owner) : (modOwner s o f).apt = s.apt := rfl
@[simp] theorem modOwner_arb (o : Nat) (f : Owner → Owner) : (modOwner s o f).arb = s.arb := rfl
@[simp] theorem modOwner_rng (o : Nat) (f : Owner → Owner) : (modOwner s o f).rng = s.rng := rfl
@[simp] theorem modOwner_cv (o : Nat) (f : Owner → Owner) : (modOwner s o f).cv = s.cv := rfl
@[simp] theorem modOwner_gmem (o : Nat) (f : Owner → Owner) : (modOwner s o f).gmem = s.gmem := rfl
@[simp] theorem modOwner_facets (o : Nat) (f : Owner → Owner) : (modOwner s o f).facets = s.facets := rfl
@[simp] theorem modOwner_progs (o : Nat) (f : Owner → Owner) : (modOwner s o f).progs = s.progs := rfl
@[simp] theorem modOwner_ks (o : Nat) (f : Owner → Owner) : (modOwner s o f).ks = s.ks := rfl
@[simp] theorem modOwner_mainPower (o : Nat) (f : Owner → Owner) : (modOwner s o f).mainPower = s.mainPower := rfl
@[simp] theorem modOwner_primary (o : Nat) (f : Owner → Owner) : (modOwner s o f).primary = s.primary := rfl
@[simp] theorem modOwner_rst (o : Nat) (f : Owner → Owner) : (modOwner s o f).rst = s.rst := rfl
@[simp] theorem modOwner_auxTick (o : Nat) (f : Owner → Owner) : (modOwner s o f).auxTick = s.auxTick := rfl
@[simp] theorem modOwner_wear (o : Nat) (f : Owner → Owner) : (modOwner s o f).wear = s.wear := rfl
@[simp] theorem modOwner_jr (o : Nat) (f : Owner → Owner) : (modOwner s o f).jr = s.jr := rfl
@[simp] theorem modOwner_own (o : Nat) (f : Owner → Owner) : (modOwner s o f).own = tset Owner.absent s.own o (f (s.owner o)) := rfl
@[simp] theorem modOwner_sessions (o : Nat) (f : Owner → Owner) : (modOwner s o f).sessions = s.sessions := rfl
@[simp] theorem modOwner_sec (o : Nat) (f : Owner → Owner) : (modOwner s o f).sec = s.sec := rfl
@[simp] theorem modOwner_ownKeys (o : Nat) (f : Owner → Owner) : (modOwner s o f).ownKeys = s.ownKeys := rfl
@[simp] theorem modOwner_acted (o : Nat) (f : Owner → Owner) : (modOwner s o f).acted = s.acted := rfl
@[simp] theorem modOwner_gates (o : Nat) (f : Owner → Owner) : (modOwner s o f).gates = s.gates := rfl
@[simp] theorem modOwner_str (o : Nat) (f : Owner → Owner) : (modOwner s o f).str = s.str := rfl
@[simp] theorem modOwner_streamEnt (o : Nat) (f : Owner → Owner) : (modOwner s o f).streamEnt = s.streamEnt := rfl
@[simp] theorem modOwner_lc (o : Nat) (f : Owner → Owner) : (modOwner s o f).lc = s.lc := rfl
@[simp] theorem modOwner_vaux (o : Nat) (f : Owner → Owner) : (modOwner s o f).vaux = s.vaux := rfl
@[simp] theorem modOwner_ring (o : Nat) (f : Owner → Owner) : (modOwner s o f).ring = s.ring := rfl
@[simp] theorem modOwner_foc (o : Nat) (f : Owner → Owner) : (modOwner s o f).foc = s.foc := rfl
@[simp] theorem modOwner_hx (o : Nat) (f : Owner → Owner) : (modOwner s o f).hx = s.hx := rfl
@[simp] theorem modOwner_fns (o : Nat) (f : Owner → Owner) : (modOwner s o f).fns = s.fns := rfl
@[simp] theorem modOwner_hports (o : Nat) (f : Owner → Owner) : (modOwner s o f).hports = s.hports := rfl
@[simp] theorem modOwner_hbmBad (o : Nat) (f : Owner → Owner) : (modOwner s o f).hbmBad = s.hbmBad := rfl
@[simp] theorem modOwner_marked (o : Nat) (f : Owner → Owner) : (modOwner s o f).marked = s.marked := rfl
@[simp] theorem modOwner_slots (o : Nat) (f : Owner → Owner) : (modOwner s o f).slots = s.slots := rfl
@[simp] theorem modOwner_blobIds (o : Nat) (f : Owner → Owner) : (modOwner s o f).blobIds = s.blobIds := rfl
@[simp] theorem modOwner_psc (o : Nat) (f : Owner → Owner) : (modOwner s o f).psc = s.psc := rfl

/-! ## `setFoc` -/

@[simp] theorem setFoc_pending (f : FocSt) : (setFoc s f).pending = s.pending := rfl
@[simp] theorem setFoc_freeCtr (f : FocSt) : (setFoc s f).freeCtr = s.freeCtr := rfl
@[simp] theorem setFoc_regs (f : FocSt) : (setFoc s f).regs = s.regs := rfl
@[simp] theorem setFoc_latches (f : FocSt) : (setFoc s f).latches = s.latches := rfl
@[simp] theorem setFoc_rdata (f : FocSt) : (setFoc s f).rdata = s.rdata := rfl
@[simp] theorem setFoc_out (f : FocSt) : (setFoc s f).out = s.out := rfl
@[simp] theorem setFoc_sent (f : FocSt) : (setFoc s f).sent = s.sent := rfl
@[simp] theorem setFoc_dones (f : FocSt) : (setFoc s f).dones = s.dones := rfl
@[simp] theorem setFoc_evr (f : FocSt) : (setFoc s f).evr = s.evr := rfl
@[simp] theorem setFoc_log (f : FocSt) : (setFoc s f).log = s.log := rfl
@[simp] theorem setFoc_apt (f : FocSt) : (setFoc s f).apt = s.apt := rfl
@[simp] theorem setFoc_arb (f : FocSt) : (setFoc s f).arb = s.arb := rfl
@[simp] theorem setFoc_rng (f : FocSt) : (setFoc s f).rng = s.rng := rfl
@[simp] theorem setFoc_cv (f : FocSt) : (setFoc s f).cv = s.cv := rfl
@[simp] theorem setFoc_gmem (f : FocSt) : (setFoc s f).gmem = s.gmem := rfl
@[simp] theorem setFoc_facets (f : FocSt) : (setFoc s f).facets = s.facets := rfl
@[simp] theorem setFoc_progs (f : FocSt) : (setFoc s f).progs = s.progs := rfl
@[simp] theorem setFoc_ks (f : FocSt) : (setFoc s f).ks = s.ks := rfl
@[simp] theorem setFoc_mainPower (f : FocSt) : (setFoc s f).mainPower = s.mainPower := rfl
@[simp] theorem setFoc_primary (f : FocSt) : (setFoc s f).primary = s.primary := rfl
@[simp] theorem setFoc_rst (f : FocSt) : (setFoc s f).rst = s.rst := rfl
@[simp] theorem setFoc_auxTick (f : FocSt) : (setFoc s f).auxTick = s.auxTick := rfl
@[simp] theorem setFoc_wear (f : FocSt) : (setFoc s f).wear = s.wear := rfl
@[simp] theorem setFoc_jr (f : FocSt) : (setFoc s f).jr = s.jr := rfl
@[simp] theorem setFoc_own (f : FocSt) : (setFoc s f).own = s.own := rfl
@[simp] theorem setFoc_sessions (f : FocSt) : (setFoc s f).sessions = s.sessions := rfl
@[simp] theorem setFoc_sec (f : FocSt) : (setFoc s f).sec = s.sec := rfl
@[simp] theorem setFoc_ownKeys (f : FocSt) : (setFoc s f).ownKeys = s.ownKeys := rfl
@[simp] theorem setFoc_acted (f : FocSt) : (setFoc s f).acted = s.acted := rfl
@[simp] theorem setFoc_gates (f : FocSt) : (setFoc s f).gates = s.gates := rfl
@[simp] theorem setFoc_str (f : FocSt) : (setFoc s f).str = s.str := rfl
@[simp] theorem setFoc_streamEnt (f : FocSt) : (setFoc s f).streamEnt = s.streamEnt := rfl
@[simp] theorem setFoc_lc (f : FocSt) : (setFoc s f).lc = s.lc := rfl
@[simp] theorem setFoc_vaux (f : FocSt) : (setFoc s f).vaux = s.vaux := rfl
@[simp] theorem setFoc_ring (f : FocSt) : (setFoc s f).ring = s.ring := rfl
@[simp] theorem setFoc_foc (f : FocSt) : (setFoc s f).foc = f := rfl
@[simp] theorem setFoc_hx (f : FocSt) : (setFoc s f).hx = s.hx := rfl
@[simp] theorem setFoc_fns (f : FocSt) : (setFoc s f).fns = s.fns := rfl
@[simp] theorem setFoc_hports (f : FocSt) : (setFoc s f).hports = s.hports := rfl
@[simp] theorem setFoc_hbmBad (f : FocSt) : (setFoc s f).hbmBad = s.hbmBad := rfl
@[simp] theorem setFoc_marked (f : FocSt) : (setFoc s f).marked = s.marked := rfl
@[simp] theorem setFoc_slots (f : FocSt) : (setFoc s f).slots = s.slots := rfl
@[simp] theorem setFoc_blobIds (f : FocSt) : (setFoc s f).blobIds = s.blobIds := rfl
@[simp] theorem setFoc_psc (f : FocSt) : (setFoc s f).psc = s.psc := rfl

/-! ## `setHx` -/

@[simp] theorem setHx_pending (h : HxSt) : (setHx s h).pending = s.pending := rfl
@[simp] theorem setHx_freeCtr (h : HxSt) : (setHx s h).freeCtr = s.freeCtr := rfl
@[simp] theorem setHx_regs (h : HxSt) : (setHx s h).regs = s.regs := rfl
@[simp] theorem setHx_latches (h : HxSt) : (setHx s h).latches = s.latches := rfl
@[simp] theorem setHx_rdata (h : HxSt) : (setHx s h).rdata = s.rdata := rfl
@[simp] theorem setHx_out (h : HxSt) : (setHx s h).out = s.out := rfl
@[simp] theorem setHx_sent (h : HxSt) : (setHx s h).sent = s.sent := rfl
@[simp] theorem setHx_dones (h : HxSt) : (setHx s h).dones = s.dones := rfl
@[simp] theorem setHx_evr (h : HxSt) : (setHx s h).evr = s.evr := rfl
@[simp] theorem setHx_log (h : HxSt) : (setHx s h).log = s.log := rfl
@[simp] theorem setHx_apt (h : HxSt) : (setHx s h).apt = s.apt := rfl
@[simp] theorem setHx_arb (h : HxSt) : (setHx s h).arb = s.arb := rfl
@[simp] theorem setHx_rng (h : HxSt) : (setHx s h).rng = s.rng := rfl
@[simp] theorem setHx_cv (h : HxSt) : (setHx s h).cv = s.cv := rfl
@[simp] theorem setHx_gmem (h : HxSt) : (setHx s h).gmem = s.gmem := rfl
@[simp] theorem setHx_facets (h : HxSt) : (setHx s h).facets = s.facets := rfl
@[simp] theorem setHx_progs (h : HxSt) : (setHx s h).progs = s.progs := rfl
@[simp] theorem setHx_ks (h : HxSt) : (setHx s h).ks = s.ks := rfl
@[simp] theorem setHx_mainPower (h : HxSt) : (setHx s h).mainPower = s.mainPower := rfl
@[simp] theorem setHx_primary (h : HxSt) : (setHx s h).primary = s.primary := rfl
@[simp] theorem setHx_rst (h : HxSt) : (setHx s h).rst = s.rst := rfl
@[simp] theorem setHx_auxTick (h : HxSt) : (setHx s h).auxTick = s.auxTick := rfl
@[simp] theorem setHx_wear (h : HxSt) : (setHx s h).wear = s.wear := rfl
@[simp] theorem setHx_jr (h : HxSt) : (setHx s h).jr = s.jr := rfl
@[simp] theorem setHx_own (h : HxSt) : (setHx s h).own = s.own := rfl
@[simp] theorem setHx_sessions (h : HxSt) : (setHx s h).sessions = s.sessions := rfl
@[simp] theorem setHx_sec (h : HxSt) : (setHx s h).sec = s.sec := rfl
@[simp] theorem setHx_ownKeys (h : HxSt) : (setHx s h).ownKeys = s.ownKeys := rfl
@[simp] theorem setHx_acted (h : HxSt) : (setHx s h).acted = s.acted := rfl
@[simp] theorem setHx_gates (h : HxSt) : (setHx s h).gates = s.gates := rfl
@[simp] theorem setHx_str (h : HxSt) : (setHx s h).str = s.str := rfl
@[simp] theorem setHx_streamEnt (h : HxSt) : (setHx s h).streamEnt = s.streamEnt := rfl
@[simp] theorem setHx_lc (h : HxSt) : (setHx s h).lc = s.lc := rfl
@[simp] theorem setHx_vaux (h : HxSt) : (setHx s h).vaux = s.vaux := rfl
@[simp] theorem setHx_ring (h : HxSt) : (setHx s h).ring = s.ring := rfl
@[simp] theorem setHx_foc (h : HxSt) : (setHx s h).foc = s.foc := rfl
@[simp] theorem setHx_hx (h : HxSt) : (setHx s h).hx = h := rfl
@[simp] theorem setHx_fns (h : HxSt) : (setHx s h).fns = s.fns := rfl
@[simp] theorem setHx_hports (h : HxSt) : (setHx s h).hports = s.hports := rfl
@[simp] theorem setHx_hbmBad (h : HxSt) : (setHx s h).hbmBad = s.hbmBad := rfl
@[simp] theorem setHx_marked (h : HxSt) : (setHx s h).marked = s.marked := rfl
@[simp] theorem setHx_slots (h : HxSt) : (setHx s h).slots = s.slots := rfl
@[simp] theorem setHx_blobIds (h : HxSt) : (setHx s h).blobIds = s.blobIds := rfl
@[simp] theorem setHx_psc (h : HxSt) : (setHx s h).psc = s.psc := rfl

/-! ## `setHport` -/

@[simp] theorem setHport_pending (p : Nat) (h : HPort) : (setHport s p h).pending = s.pending := rfl
@[simp] theorem setHport_freeCtr (p : Nat) (h : HPort) : (setHport s p h).freeCtr = s.freeCtr := rfl
@[simp] theorem setHport_regs (p : Nat) (h : HPort) : (setHport s p h).regs = s.regs := rfl
@[simp] theorem setHport_latches (p : Nat) (h : HPort) : (setHport s p h).latches = s.latches := rfl
@[simp] theorem setHport_rdata (p : Nat) (h : HPort) : (setHport s p h).rdata = s.rdata := rfl
@[simp] theorem setHport_out (p : Nat) (h : HPort) : (setHport s p h).out = s.out := rfl
@[simp] theorem setHport_sent (p : Nat) (h : HPort) : (setHport s p h).sent = s.sent := rfl
@[simp] theorem setHport_dones (p : Nat) (h : HPort) : (setHport s p h).dones = s.dones := rfl
@[simp] theorem setHport_evr (p : Nat) (h : HPort) : (setHport s p h).evr = s.evr := rfl
@[simp] theorem setHport_log (p : Nat) (h : HPort) : (setHport s p h).log = s.log := rfl
@[simp] theorem setHport_apt (p : Nat) (h : HPort) : (setHport s p h).apt = s.apt := rfl
@[simp] theorem setHport_arb (p : Nat) (h : HPort) : (setHport s p h).arb = s.arb := rfl
@[simp] theorem setHport_rng (p : Nat) (h : HPort) : (setHport s p h).rng = s.rng := rfl
@[simp] theorem setHport_cv (p : Nat) (h : HPort) : (setHport s p h).cv = s.cv := rfl
@[simp] theorem setHport_gmem (p : Nat) (h : HPort) : (setHport s p h).gmem = s.gmem := rfl
@[simp] theorem setHport_facets (p : Nat) (h : HPort) : (setHport s p h).facets = s.facets := rfl
@[simp] theorem setHport_progs (p : Nat) (h : HPort) : (setHport s p h).progs = s.progs := rfl
@[simp] theorem setHport_ks (p : Nat) (h : HPort) : (setHport s p h).ks = s.ks := rfl
@[simp] theorem setHport_mainPower (p : Nat) (h : HPort) : (setHport s p h).mainPower = s.mainPower := rfl
@[simp] theorem setHport_primary (p : Nat) (h : HPort) : (setHport s p h).primary = s.primary := rfl
@[simp] theorem setHport_rst (p : Nat) (h : HPort) : (setHport s p h).rst = s.rst := rfl
@[simp] theorem setHport_auxTick (p : Nat) (h : HPort) : (setHport s p h).auxTick = s.auxTick := rfl
@[simp] theorem setHport_wear (p : Nat) (h : HPort) : (setHport s p h).wear = s.wear := rfl
@[simp] theorem setHport_jr (p : Nat) (h : HPort) : (setHport s p h).jr = s.jr := rfl
@[simp] theorem setHport_own (p : Nat) (h : HPort) : (setHport s p h).own = s.own := rfl
@[simp] theorem setHport_sessions (p : Nat) (h : HPort) : (setHport s p h).sessions = s.sessions := rfl
@[simp] theorem setHport_sec (p : Nat) (h : HPort) : (setHport s p h).sec = s.sec := rfl
@[simp] theorem setHport_ownKeys (p : Nat) (h : HPort) : (setHport s p h).ownKeys = s.ownKeys := rfl
@[simp] theorem setHport_acted (p : Nat) (h : HPort) : (setHport s p h).acted = s.acted := rfl
@[simp] theorem setHport_gates (p : Nat) (h : HPort) : (setHport s p h).gates = s.gates := rfl
@[simp] theorem setHport_str (p : Nat) (h : HPort) : (setHport s p h).str = s.str := rfl
@[simp] theorem setHport_streamEnt (p : Nat) (h : HPort) : (setHport s p h).streamEnt = s.streamEnt := rfl
@[simp] theorem setHport_lc (p : Nat) (h : HPort) : (setHport s p h).lc = s.lc := rfl
@[simp] theorem setHport_vaux (p : Nat) (h : HPort) : (setHport s p h).vaux = s.vaux := rfl
@[simp] theorem setHport_ring (p : Nat) (h : HPort) : (setHport s p h).ring = s.ring := rfl
@[simp] theorem setHport_foc (p : Nat) (h : HPort) : (setHport s p h).foc = s.foc := rfl
@[simp] theorem setHport_hx (p : Nat) (h : HPort) : (setHport s p h).hx = s.hx := rfl
@[simp] theorem setHport_fns (p : Nat) (h : HPort) : (setHport s p h).fns = s.fns := rfl
@[simp] theorem setHport_hports (p : Nat) (h : HPort) : (setHport s p h).hports = tset HPort.zero s.hports p h := rfl
@[simp] theorem setHport_hbmBad (p : Nat) (h : HPort) : (setHport s p h).hbmBad = s.hbmBad := rfl
@[simp] theorem setHport_marked (p : Nat) (h : HPort) : (setHport s p h).marked = s.marked := rfl
@[simp] theorem setHport_slots (p : Nat) (h : HPort) : (setHport s p h).slots = s.slots := rfl
@[simp] theorem setHport_blobIds (p : Nat) (h : HPort) : (setHport s p h).blobIds = s.blobIds := rfl
@[simp] theorem setHport_psc (p : Nat) (h : HPort) : (setHport s p h).psc = s.psc := rfl

/-! ## `setFn` -/

@[simp] theorem setFn_pending (n : Nat) (f : FnSt) : (setFn s n f).pending = s.pending := rfl
@[simp] theorem setFn_freeCtr (n : Nat) (f : FnSt) : (setFn s n f).freeCtr = s.freeCtr := rfl
@[simp] theorem setFn_regs (n : Nat) (f : FnSt) : (setFn s n f).regs = s.regs := rfl
@[simp] theorem setFn_latches (n : Nat) (f : FnSt) : (setFn s n f).latches = s.latches := rfl
@[simp] theorem setFn_rdata (n : Nat) (f : FnSt) : (setFn s n f).rdata = s.rdata := rfl
@[simp] theorem setFn_out (n : Nat) (f : FnSt) : (setFn s n f).out = s.out := rfl
@[simp] theorem setFn_sent (n : Nat) (f : FnSt) : (setFn s n f).sent = s.sent := rfl
@[simp] theorem setFn_dones (n : Nat) (f : FnSt) : (setFn s n f).dones = s.dones := rfl
@[simp] theorem setFn_evr (n : Nat) (f : FnSt) : (setFn s n f).evr = s.evr := rfl
@[simp] theorem setFn_log (n : Nat) (f : FnSt) : (setFn s n f).log = s.log := rfl
@[simp] theorem setFn_apt (n : Nat) (f : FnSt) : (setFn s n f).apt = s.apt := rfl
@[simp] theorem setFn_arb (n : Nat) (f : FnSt) : (setFn s n f).arb = s.arb := rfl
@[simp] theorem setFn_rng (n : Nat) (f : FnSt) : (setFn s n f).rng = s.rng := rfl
@[simp] theorem setFn_cv (n : Nat) (f : FnSt) : (setFn s n f).cv = s.cv := rfl
@[simp] theorem setFn_gmem (n : Nat) (f : FnSt) : (setFn s n f).gmem = s.gmem := rfl
@[simp] theorem setFn_facets (n : Nat) (f : FnSt) : (setFn s n f).facets = s.facets := rfl
@[simp] theorem setFn_progs (n : Nat) (f : FnSt) : (setFn s n f).progs = s.progs := rfl
@[simp] theorem setFn_ks (n : Nat) (f : FnSt) : (setFn s n f).ks = s.ks := rfl
@[simp] theorem setFn_mainPower (n : Nat) (f : FnSt) : (setFn s n f).mainPower = s.mainPower := rfl
@[simp] theorem setFn_primary (n : Nat) (f : FnSt) : (setFn s n f).primary = s.primary := rfl
@[simp] theorem setFn_rst (n : Nat) (f : FnSt) : (setFn s n f).rst = s.rst := rfl
@[simp] theorem setFn_auxTick (n : Nat) (f : FnSt) : (setFn s n f).auxTick = s.auxTick := rfl
@[simp] theorem setFn_wear (n : Nat) (f : FnSt) : (setFn s n f).wear = s.wear := rfl
@[simp] theorem setFn_jr (n : Nat) (f : FnSt) : (setFn s n f).jr = s.jr := rfl
@[simp] theorem setFn_own (n : Nat) (f : FnSt) : (setFn s n f).own = s.own := rfl
@[simp] theorem setFn_sessions (n : Nat) (f : FnSt) : (setFn s n f).sessions = s.sessions := rfl
@[simp] theorem setFn_sec (n : Nat) (f : FnSt) : (setFn s n f).sec = s.sec := rfl
@[simp] theorem setFn_ownKeys (n : Nat) (f : FnSt) : (setFn s n f).ownKeys = s.ownKeys := rfl
@[simp] theorem setFn_acted (n : Nat) (f : FnSt) : (setFn s n f).acted = s.acted := rfl
@[simp] theorem setFn_gates (n : Nat) (f : FnSt) : (setFn s n f).gates = s.gates := rfl
@[simp] theorem setFn_str (n : Nat) (f : FnSt) : (setFn s n f).str = s.str := rfl
@[simp] theorem setFn_streamEnt (n : Nat) (f : FnSt) : (setFn s n f).streamEnt = s.streamEnt := rfl
@[simp] theorem setFn_lc (n : Nat) (f : FnSt) : (setFn s n f).lc = s.lc := rfl
@[simp] theorem setFn_vaux (n : Nat) (f : FnSt) : (setFn s n f).vaux = s.vaux := rfl
@[simp] theorem setFn_ring (n : Nat) (f : FnSt) : (setFn s n f).ring = s.ring := rfl
@[simp] theorem setFn_foc (n : Nat) (f : FnSt) : (setFn s n f).foc = s.foc := rfl
@[simp] theorem setFn_hx (n : Nat) (f : FnSt) : (setFn s n f).hx = s.hx := rfl
@[simp] theorem setFn_fns (n : Nat) (f : FnSt) : (setFn s n f).fns = tset FnSt.zero s.fns n f := rfl
@[simp] theorem setFn_hports (n : Nat) (f : FnSt) : (setFn s n f).hports = s.hports := rfl
@[simp] theorem setFn_hbmBad (n : Nat) (f : FnSt) : (setFn s n f).hbmBad = s.hbmBad := rfl
@[simp] theorem setFn_marked (n : Nat) (f : FnSt) : (setFn s n f).marked = s.marked := rfl
@[simp] theorem setFn_slots (n : Nat) (f : FnSt) : (setFn s n f).slots = s.slots := rfl
@[simp] theorem setFn_blobIds (n : Nat) (f : FnSt) : (setFn s n f).blobIds = s.blobIds := rfl
@[simp] theorem setFn_psc (n : Nat) (f : FnSt) : (setFn s n f).psc = s.psc := rfl

/-! ## `setPsc` -/

@[simp] theorem setPsc_pending (p : PscSt) : (setPsc s p).pending = s.pending := rfl
@[simp] theorem setPsc_freeCtr (p : PscSt) : (setPsc s p).freeCtr = s.freeCtr := rfl
@[simp] theorem setPsc_regs (p : PscSt) : (setPsc s p).regs = s.regs := rfl
@[simp] theorem setPsc_latches (p : PscSt) : (setPsc s p).latches = s.latches := rfl
@[simp] theorem setPsc_rdata (p : PscSt) : (setPsc s p).rdata = s.rdata := rfl
@[simp] theorem setPsc_out (p : PscSt) : (setPsc s p).out = s.out := rfl
@[simp] theorem setPsc_sent (p : PscSt) : (setPsc s p).sent = s.sent := rfl
@[simp] theorem setPsc_dones (p : PscSt) : (setPsc s p).dones = s.dones := rfl
@[simp] theorem setPsc_evr (p : PscSt) : (setPsc s p).evr = s.evr := rfl
@[simp] theorem setPsc_log (p : PscSt) : (setPsc s p).log = s.log := rfl
@[simp] theorem setPsc_apt (p : PscSt) : (setPsc s p).apt = s.apt := rfl
@[simp] theorem setPsc_arb (p : PscSt) : (setPsc s p).arb = s.arb := rfl
@[simp] theorem setPsc_rng (p : PscSt) : (setPsc s p).rng = s.rng := rfl
@[simp] theorem setPsc_cv (p : PscSt) : (setPsc s p).cv = s.cv := rfl
@[simp] theorem setPsc_gmem (p : PscSt) : (setPsc s p).gmem = s.gmem := rfl
@[simp] theorem setPsc_facets (p : PscSt) : (setPsc s p).facets = s.facets := rfl
@[simp] theorem setPsc_progs (p : PscSt) : (setPsc s p).progs = s.progs := rfl
@[simp] theorem setPsc_ks (p : PscSt) : (setPsc s p).ks = s.ks := rfl
@[simp] theorem setPsc_mainPower (p : PscSt) : (setPsc s p).mainPower = s.mainPower := rfl
@[simp] theorem setPsc_primary (p : PscSt) : (setPsc s p).primary = s.primary := rfl
@[simp] theorem setPsc_rst (p : PscSt) : (setPsc s p).rst = s.rst := rfl
@[simp] theorem setPsc_auxTick (p : PscSt) : (setPsc s p).auxTick = s.auxTick := rfl
@[simp] theorem setPsc_wear (p : PscSt) : (setPsc s p).wear = s.wear := rfl
@[simp] theorem setPsc_jr (p : PscSt) : (setPsc s p).jr = s.jr := rfl
@[simp] theorem setPsc_own (p : PscSt) : (setPsc s p).own = s.own := rfl
@[simp] theorem setPsc_sessions (p : PscSt) : (setPsc s p).sessions = s.sessions := rfl
@[simp] theorem setPsc_sec (p : PscSt) : (setPsc s p).sec = s.sec := rfl
@[simp] theorem setPsc_ownKeys (p : PscSt) : (setPsc s p).ownKeys = s.ownKeys := rfl
@[simp] theorem setPsc_acted (p : PscSt) : (setPsc s p).acted = s.acted := rfl
@[simp] theorem setPsc_gates (p : PscSt) : (setPsc s p).gates = s.gates := rfl
@[simp] theorem setPsc_str (p : PscSt) : (setPsc s p).str = s.str := rfl
@[simp] theorem setPsc_streamEnt (p : PscSt) : (setPsc s p).streamEnt = s.streamEnt := rfl
@[simp] theorem setPsc_lc (p : PscSt) : (setPsc s p).lc = s.lc := rfl
@[simp] theorem setPsc_vaux (p : PscSt) : (setPsc s p).vaux = s.vaux := rfl
@[simp] theorem setPsc_ring (p : PscSt) : (setPsc s p).ring = s.ring := rfl
@[simp] theorem setPsc_foc (p : PscSt) : (setPsc s p).foc = s.foc := rfl
@[simp] theorem setPsc_hx (p : PscSt) : (setPsc s p).hx = s.hx := rfl
@[simp] theorem setPsc_fns (p : PscSt) : (setPsc s p).fns = s.fns := rfl
@[simp] theorem setPsc_hports (p : PscSt) : (setPsc s p).hports = s.hports := rfl
@[simp] theorem setPsc_hbmBad (p : PscSt) : (setPsc s p).hbmBad = s.hbmBad := rfl
@[simp] theorem setPsc_marked (p : PscSt) : (setPsc s p).marked = s.marked := rfl
@[simp] theorem setPsc_slots (p : PscSt) : (setPsc s p).slots = s.slots := rfl
@[simp] theorem setPsc_blobIds (p : PscSt) : (setPsc s p).blobIds = s.blobIds := rfl
@[simp] theorem setPsc_psc (p : PscSt) : (setPsc s p).psc = p := rfl

/-! ## `setRst` -/

@[simp] theorem setRst_pending (r : RstSt) : (setRst s r).pending = s.pending := rfl
@[simp] theorem setRst_freeCtr (r : RstSt) : (setRst s r).freeCtr = s.freeCtr := rfl
@[simp] theorem setRst_regs (r : RstSt) : (setRst s r).regs = s.regs := rfl
@[simp] theorem setRst_latches (r : RstSt) : (setRst s r).latches = s.latches := rfl
@[simp] theorem setRst_rdata (r : RstSt) : (setRst s r).rdata = s.rdata := rfl
@[simp] theorem setRst_out (r : RstSt) : (setRst s r).out = s.out := rfl
@[simp] theorem setRst_sent (r : RstSt) : (setRst s r).sent = s.sent := rfl
@[simp] theorem setRst_dones (r : RstSt) : (setRst s r).dones = s.dones := rfl
@[simp] theorem setRst_evr (r : RstSt) : (setRst s r).evr = s.evr := rfl
@[simp] theorem setRst_log (r : RstSt) : (setRst s r).log = s.log := rfl
@[simp] theorem setRst_apt (r : RstSt) : (setRst s r).apt = s.apt := rfl
@[simp] theorem setRst_arb (r : RstSt) : (setRst s r).arb = s.arb := rfl
@[simp] theorem setRst_rng (r : RstSt) : (setRst s r).rng = s.rng := rfl
@[simp] theorem setRst_cv (r : RstSt) : (setRst s r).cv = s.cv := rfl
@[simp] theorem setRst_gmem (r : RstSt) : (setRst s r).gmem = s.gmem := rfl
@[simp] theorem setRst_facets (r : RstSt) : (setRst s r).facets = s.facets := rfl
@[simp] theorem setRst_progs (r : RstSt) : (setRst s r).progs = s.progs := rfl
@[simp] theorem setRst_ks (r : RstSt) : (setRst s r).ks = s.ks := rfl
@[simp] theorem setRst_mainPower (r : RstSt) : (setRst s r).mainPower = s.mainPower := rfl
@[simp] theorem setRst_primary (r : RstSt) : (setRst s r).primary = s.primary := rfl
@[simp] theorem setRst_rst (r : RstSt) : (setRst s r).rst = r := rfl
@[simp] theorem setRst_auxTick (r : RstSt) : (setRst s r).auxTick = s.auxTick := rfl
@[simp] theorem setRst_wear (r : RstSt) : (setRst s r).wear = s.wear := rfl
@[simp] theorem setRst_jr (r : RstSt) : (setRst s r).jr = s.jr := rfl
@[simp] theorem setRst_own (r : RstSt) : (setRst s r).own = s.own := rfl
@[simp] theorem setRst_sessions (r : RstSt) : (setRst s r).sessions = s.sessions := rfl
@[simp] theorem setRst_sec (r : RstSt) : (setRst s r).sec = s.sec := rfl
@[simp] theorem setRst_ownKeys (r : RstSt) : (setRst s r).ownKeys = s.ownKeys := rfl
@[simp] theorem setRst_acted (r : RstSt) : (setRst s r).acted = s.acted := rfl
@[simp] theorem setRst_gates (r : RstSt) : (setRst s r).gates = s.gates := rfl
@[simp] theorem setRst_str (r : RstSt) : (setRst s r).str = s.str := rfl
@[simp] theorem setRst_streamEnt (r : RstSt) : (setRst s r).streamEnt = s.streamEnt := rfl
@[simp] theorem setRst_lc (r : RstSt) : (setRst s r).lc = s.lc := rfl
@[simp] theorem setRst_vaux (r : RstSt) : (setRst s r).vaux = s.vaux := rfl
@[simp] theorem setRst_ring (r : RstSt) : (setRst s r).ring = s.ring := rfl
@[simp] theorem setRst_foc (r : RstSt) : (setRst s r).foc = s.foc := rfl
@[simp] theorem setRst_hx (r : RstSt) : (setRst s r).hx = s.hx := rfl
@[simp] theorem setRst_fns (r : RstSt) : (setRst s r).fns = s.fns := rfl
@[simp] theorem setRst_hports (r : RstSt) : (setRst s r).hports = s.hports := rfl
@[simp] theorem setRst_hbmBad (r : RstSt) : (setRst s r).hbmBad = s.hbmBad := rfl
@[simp] theorem setRst_marked (r : RstSt) : (setRst s r).marked = s.marked := rfl
@[simp] theorem setRst_slots (r : RstSt) : (setRst s r).slots = s.slots := rfl
@[simp] theorem setRst_blobIds (r : RstSt) : (setRst s r).blobIds = s.blobIds := rfl
@[simp] theorem setRst_psc (r : RstSt) : (setRst s r).psc = s.psc := rfl

/-! ## `setRing` -/

@[simp] theorem setRing_pending (r : RingSt) : (setRing s r).pending = s.pending := rfl
@[simp] theorem setRing_freeCtr (r : RingSt) : (setRing s r).freeCtr = s.freeCtr := rfl
@[simp] theorem setRing_regs (r : RingSt) : (setRing s r).regs = s.regs := rfl
@[simp] theorem setRing_latches (r : RingSt) : (setRing s r).latches = s.latches := rfl
@[simp] theorem setRing_rdata (r : RingSt) : (setRing s r).rdata = s.rdata := rfl
@[simp] theorem setRing_out (r : RingSt) : (setRing s r).out = s.out := rfl
@[simp] theorem setRing_sent (r : RingSt) : (setRing s r).sent = s.sent := rfl
@[simp] theorem setRing_dones (r : RingSt) : (setRing s r).dones = s.dones := rfl
@[simp] theorem setRing_evr (r : RingSt) : (setRing s r).evr = s.evr := rfl
@[simp] theorem setRing_log (r : RingSt) : (setRing s r).log = s.log := rfl
@[simp] theorem setRing_apt (r : RingSt) : (setRing s r).apt = s.apt := rfl
@[simp] theorem setRing_arb (r : RingSt) : (setRing s r).arb = s.arb := rfl
@[simp] theorem setRing_rng (r : RingSt) : (setRing s r).rng = s.rng := rfl
@[simp] theorem setRing_cv (r : RingSt) : (setRing s r).cv = s.cv := rfl
@[simp] theorem setRing_gmem (r : RingSt) : (setRing s r).gmem = s.gmem := rfl
@[simp] theorem setRing_facets (r : RingSt) : (setRing s r).facets = s.facets := rfl
@[simp] theorem setRing_progs (r : RingSt) : (setRing s r).progs = s.progs := rfl
@[simp] theorem setRing_ks (r : RingSt) : (setRing s r).ks = s.ks := rfl
@[simp] theorem setRing_mainPower (r : RingSt) : (setRing s r).mainPower = s.mainPower := rfl
@[simp] theorem setRing_primary (r : RingSt) : (setRing s r).primary = s.primary := rfl
@[simp] theorem setRing_rst (r : RingSt) : (setRing s r).rst = s.rst := rfl
@[simp] theorem setRing_auxTick (r : RingSt) : (setRing s r).auxTick = s.auxTick := rfl
@[simp] theorem setRing_wear (r : RingSt) : (setRing s r).wear = s.wear := rfl
@[simp] theorem setRing_jr (r : RingSt) : (setRing s r).jr = s.jr := rfl
@[simp] theorem setRing_own (r : RingSt) : (setRing s r).own = s.own := rfl
@[simp] theorem setRing_sessions (r : RingSt) : (setRing s r).sessions = s.sessions := rfl
@[simp] theorem setRing_sec (r : RingSt) : (setRing s r).sec = s.sec := rfl
@[simp] theorem setRing_ownKeys (r : RingSt) : (setRing s r).ownKeys = s.ownKeys := rfl
@[simp] theorem setRing_acted (r : RingSt) : (setRing s r).acted = s.acted := rfl
@[simp] theorem setRing_gates (r : RingSt) : (setRing s r).gates = s.gates := rfl
@[simp] theorem setRing_str (r : RingSt) : (setRing s r).str = s.str := rfl
@[simp] theorem setRing_streamEnt (r : RingSt) : (setRing s r).streamEnt = s.streamEnt := rfl
@[simp] theorem setRing_lc (r : RingSt) : (setRing s r).lc = s.lc := rfl
@[simp] theorem setRing_vaux (r : RingSt) : (setRing s r).vaux = s.vaux := rfl
@[simp] theorem setRing_ring (r : RingSt) : (setRing s r).ring = r := rfl
@[simp] theorem setRing_foc (r : RingSt) : (setRing s r).foc = s.foc := rfl
@[simp] theorem setRing_hx (r : RingSt) : (setRing s r).hx = s.hx := rfl
@[simp] theorem setRing_fns (r : RingSt) : (setRing s r).fns = s.fns := rfl
@[simp] theorem setRing_hports (r : RingSt) : (setRing s r).hports = s.hports := rfl
@[simp] theorem setRing_hbmBad (r : RingSt) : (setRing s r).hbmBad = s.hbmBad := rfl
@[simp] theorem setRing_marked (r : RingSt) : (setRing s r).marked = s.marked := rfl
@[simp] theorem setRing_slots (r : RingSt) : (setRing s r).slots = s.slots := rfl
@[simp] theorem setRing_blobIds (r : RingSt) : (setRing s r).blobIds = s.blobIds := rfl
@[simp] theorem setRing_psc (r : RingSt) : (setRing s r).psc = s.psc := rfl

/-! ## `setStr` -/

@[simp] theorem setStr_pending (t : StrSt) : (setStr s t).pending = s.pending := rfl
@[simp] theorem setStr_freeCtr (t : StrSt) : (setStr s t).freeCtr = s.freeCtr := rfl
@[simp] theorem setStr_regs (t : StrSt) : (setStr s t).regs = s.regs := rfl
@[simp] theorem setStr_latches (t : StrSt) : (setStr s t).latches = s.latches := rfl
@[simp] theorem setStr_rdata (t : StrSt) : (setStr s t).rdata = s.rdata := rfl
@[simp] theorem setStr_out (t : StrSt) : (setStr s t).out = s.out := rfl
@[simp] theorem setStr_sent (t : StrSt) : (setStr s t).sent = s.sent := rfl
@[simp] theorem setStr_dones (t : StrSt) : (setStr s t).dones = s.dones := rfl
@[simp] theorem setStr_evr (t : StrSt) : (setStr s t).evr = s.evr := rfl
@[simp] theorem setStr_log (t : StrSt) : (setStr s t).log = s.log := rfl
@[simp] theorem setStr_apt (t : StrSt) : (setStr s t).apt = s.apt := rfl
@[simp] theorem setStr_arb (t : StrSt) : (setStr s t).arb = s.arb := rfl
@[simp] theorem setStr_rng (t : StrSt) : (setStr s t).rng = s.rng := rfl
@[simp] theorem setStr_cv (t : StrSt) : (setStr s t).cv = s.cv := rfl
@[simp] theorem setStr_gmem (t : StrSt) : (setStr s t).gmem = s.gmem := rfl
@[simp] theorem setStr_facets (t : StrSt) : (setStr s t).facets = s.facets := rfl
@[simp] theorem setStr_progs (t : StrSt) : (setStr s t).progs = s.progs := rfl
@[simp] theorem setStr_ks (t : StrSt) : (setStr s t).ks = s.ks := rfl
@[simp] theorem setStr_mainPower (t : StrSt) : (setStr s t).mainPower = s.mainPower := rfl
@[simp] theorem setStr_primary (t : StrSt) : (setStr s t).primary = s.primary := rfl
@[simp] theorem setStr_rst (t : StrSt) : (setStr s t).rst = s.rst := rfl
@[simp] theorem setStr_auxTick (t : StrSt) : (setStr s t).auxTick = s.auxTick := rfl
@[simp] theorem setStr_wear (t : StrSt) : (setStr s t).wear = s.wear := rfl
@[simp] theorem setStr_jr (t : StrSt) : (setStr s t).jr = s.jr := rfl
@[simp] theorem setStr_own (t : StrSt) : (setStr s t).own = s.own := rfl
@[simp] theorem setStr_sessions (t : StrSt) : (setStr s t).sessions = s.sessions := rfl
@[simp] theorem setStr_sec (t : StrSt) : (setStr s t).sec = s.sec := rfl
@[simp] theorem setStr_ownKeys (t : StrSt) : (setStr s t).ownKeys = s.ownKeys := rfl
@[simp] theorem setStr_acted (t : StrSt) : (setStr s t).acted = s.acted := rfl
@[simp] theorem setStr_gates (t : StrSt) : (setStr s t).gates = s.gates := rfl
@[simp] theorem setStr_str (t : StrSt) : (setStr s t).str = t := rfl
@[simp] theorem setStr_streamEnt (t : StrSt) : (setStr s t).streamEnt = s.streamEnt := rfl
@[simp] theorem setStr_lc (t : StrSt) : (setStr s t).lc = s.lc := rfl
@[simp] theorem setStr_vaux (t : StrSt) : (setStr s t).vaux = s.vaux := rfl
@[simp] theorem setStr_ring (t : StrSt) : (setStr s t).ring = s.ring := rfl
@[simp] theorem setStr_foc (t : StrSt) : (setStr s t).foc = s.foc := rfl
@[simp] theorem setStr_hx (t : StrSt) : (setStr s t).hx = s.hx := rfl
@[simp] theorem setStr_fns (t : StrSt) : (setStr s t).fns = s.fns := rfl
@[simp] theorem setStr_hports (t : StrSt) : (setStr s t).hports = s.hports := rfl
@[simp] theorem setStr_hbmBad (t : StrSt) : (setStr s t).hbmBad = s.hbmBad := rfl
@[simp] theorem setStr_marked (t : StrSt) : (setStr s t).marked = s.marked := rfl
@[simp] theorem setStr_slots (t : StrSt) : (setStr s t).slots = s.slots := rfl
@[simp] theorem setStr_blobIds (t : StrSt) : (setStr s t).blobIds = s.blobIds := rfl
@[simp] theorem setStr_psc (t : StrSt) : (setStr s t).psc = s.psc := rfl

/-! ## `setFlow` -/

@[simp] theorem setFlow_pending (i : Nat) (f : Option Flow) : (setFlow s i f).pending = s.pending := rfl
@[simp] theorem setFlow_freeCtr (i : Nat) (f : Option Flow) : (setFlow s i f).freeCtr = s.freeCtr := rfl
@[simp] theorem setFlow_regs (i : Nat) (f : Option Flow) : (setFlow s i f).regs = s.regs := rfl
@[simp] theorem setFlow_latches (i : Nat) (f : Option Flow) : (setFlow s i f).latches = s.latches := rfl
@[simp] theorem setFlow_rdata (i : Nat) (f : Option Flow) : (setFlow s i f).rdata = s.rdata := rfl
@[simp] theorem setFlow_out (i : Nat) (f : Option Flow) : (setFlow s i f).out = s.out := rfl
@[simp] theorem setFlow_sent (i : Nat) (f : Option Flow) : (setFlow s i f).sent = s.sent := rfl
@[simp] theorem setFlow_dones (i : Nat) (f : Option Flow) : (setFlow s i f).dones = s.dones := rfl
@[simp] theorem setFlow_evr (i : Nat) (f : Option Flow) : (setFlow s i f).evr = s.evr := rfl
@[simp] theorem setFlow_log (i : Nat) (f : Option Flow) : (setFlow s i f).log = s.log := rfl
@[simp] theorem setFlow_apt (i : Nat) (f : Option Flow) : (setFlow s i f).apt = s.apt := rfl
@[simp] theorem setFlow_arb (i : Nat) (f : Option Flow) : (setFlow s i f).arb = s.arb := rfl
@[simp] theorem setFlow_rng (i : Nat) (f : Option Flow) : (setFlow s i f).rng = s.rng := rfl
@[simp] theorem setFlow_cv (i : Nat) (f : Option Flow) : (setFlow s i f).cv = s.cv := rfl
@[simp] theorem setFlow_gmem (i : Nat) (f : Option Flow) : (setFlow s i f).gmem = s.gmem := rfl
@[simp] theorem setFlow_facets (i : Nat) (f : Option Flow) : (setFlow s i f).facets = s.facets := rfl
@[simp] theorem setFlow_progs (i : Nat) (f : Option Flow) : (setFlow s i f).progs = s.progs := rfl
@[simp] theorem setFlow_ks (i : Nat) (f : Option Flow) : (setFlow s i f).ks = s.ks := rfl
@[simp] theorem setFlow_mainPower (i : Nat) (f : Option Flow) : (setFlow s i f).mainPower = s.mainPower := rfl
@[simp] theorem setFlow_primary (i : Nat) (f : Option Flow) : (setFlow s i f).primary = s.primary := rfl
@[simp] theorem setFlow_rst (i : Nat) (f : Option Flow) : (setFlow s i f).rst = s.rst := rfl
@[simp] theorem setFlow_auxTick (i : Nat) (f : Option Flow) : (setFlow s i f).auxTick = s.auxTick := rfl
@[simp] theorem setFlow_wear (i : Nat) (f : Option Flow) : (setFlow s i f).wear = s.wear := rfl
@[simp] theorem setFlow_jr (i : Nat) (f : Option Flow) : (setFlow s i f).jr = s.jr := rfl
@[simp] theorem setFlow_own (i : Nat) (f : Option Flow) : (setFlow s i f).own = s.own := rfl
@[simp] theorem setFlow_sessions (i : Nat) (f : Option Flow) : (setFlow s i f).sessions = s.sessions := rfl
@[simp] theorem setFlow_sec (i : Nat) (f : Option Flow) : (setFlow s i f).sec = s.sec := rfl
@[simp] theorem setFlow_ownKeys (i : Nat) (f : Option Flow) : (setFlow s i f).ownKeys = s.ownKeys := rfl
@[simp] theorem setFlow_acted (i : Nat) (f : Option Flow) : (setFlow s i f).acted = s.acted := rfl
@[simp] theorem setFlow_gates (i : Nat) (f : Option Flow) : (setFlow s i f).gates = s.gates := rfl
@[simp] theorem setFlow_str (i : Nat) (f : Option Flow) : (setFlow s i f).str = { s.str with flows := tset none s.str.flows i f } := rfl
@[simp] theorem setFlow_streamEnt (i : Nat) (f : Option Flow) : (setFlow s i f).streamEnt = s.streamEnt := rfl
@[simp] theorem setFlow_lc (i : Nat) (f : Option Flow) : (setFlow s i f).lc = s.lc := rfl
@[simp] theorem setFlow_vaux (i : Nat) (f : Option Flow) : (setFlow s i f).vaux = s.vaux := rfl
@[simp] theorem setFlow_ring (i : Nat) (f : Option Flow) : (setFlow s i f).ring = s.ring := rfl
@[simp] theorem setFlow_foc (i : Nat) (f : Option Flow) : (setFlow s i f).foc = s.foc := rfl
@[simp] theorem setFlow_hx (i : Nat) (f : Option Flow) : (setFlow s i f).hx = s.hx := rfl
@[simp] theorem setFlow_fns (i : Nat) (f : Option Flow) : (setFlow s i f).fns = s.fns := rfl
@[simp] theorem setFlow_hports (i : Nat) (f : Option Flow) : (setFlow s i f).hports = s.hports := rfl
@[simp] theorem setFlow_hbmBad (i : Nat) (f : Option Flow) : (setFlow s i f).hbmBad = s.hbmBad := rfl
@[simp] theorem setFlow_marked (i : Nat) (f : Option Flow) : (setFlow s i f).marked = s.marked := rfl
@[simp] theorem setFlow_slots (i : Nat) (f : Option Flow) : (setFlow s i f).slots = s.slots := rfl
@[simp] theorem setFlow_blobIds (i : Nat) (f : Option Flow) : (setFlow s i f).blobIds = s.blobIds := rfl
@[simp] theorem setFlow_psc (i : Nat) (f : Option Flow) : (setFlow s i f).psc = s.psc := rfl

end Sys2Proof.Machine
end

