-- ==== Sys2Proof/WellFormed.lean ====
section
/-! DEFINITION. WellFormed.lean: what every command that arrives satisfies beside its types: the lengths that the spec's layouts fix, and
addresses inside the space they name. -/

namespace Sys2Proof

/-- Inline bytes 48 to 63, and an input whose length fits its field (06 Table 06.9). -/
def Work.wf (w : Work) : Bool := decide (w.inl.length = 16) && decide (w.input.length < 4294967296)

/-- An offset inside PF BAR0 or inside a doorbell page (21 Table 21.1). -/
def RegAddr.wf (r : RegAddr) : Bool :=
  match r with
  | .bar0 off => decide (off < 16777216)
  | .page _ off => decide (off < 65536)
  | .cfg _ => true

/-- Certificate slots 0 to 7 and nonces of 32 bytes (14 R378). -/
def SpdmMsg.wf (m : SpdmMsg) : Bool :=
  match m with
  | .getCertificate slot off len => decide (slot < 8) && decide (off < 65536) && decide (len < 65536)
  | .challenge slot nonce => decide (slot < 8) && decide (nonce.length = 32)
  | .getMeasurements index _ nonce => decide (index < 256) && decide (nonce.length = 32)
  | .keyExchange slot _ => decide (slot < 8)
  | .chunk seq => decide (seq < 65536)
  | _ => true

/-- A 256-bit key (14 R379). -/
def IdeMsg.wf (m : IdeMsg) : Bool :=
  match m with
  | .keyProg _ _ _ key => decide (key.length = 32)
  | _ => true

/-- The 48 bytes of action parameters (10 Table 10.8). -/
def FocusMsg.wf (m : FocusMsg) : Bool :=
  match m with
  | .add x => decide (x.params.length = 48)
  | .copy _ x => decide (x.params.length = 48)
  | .full x => decide (x.params.length = 48)
  | _ => true

/-- Is a command well formed? -/
def Instr.wf (i : Instr) : Bool :=
  match i with
  | .add _ _ _ _ => true
  | .sub _ _ _ _ => true
  | .addc _ _ _ _ => true
  | .subb _ _ _ _ => true
  | .and _ _ _ _ => true
  | .or _ _ _ _ => true
  | .xor _ _ _ _ => true
  | .shl _ _ _ _ => true
  | .shr _ _ _ _ => true
  | .sar _ _ _ _ => true
  | .slt _ _ _ _ => true
  | .sltu _ _ _ _ => true
  | .mul _ _ _ _ => true
  | .mulh _ _ _ _ => true
  | .jr _ _ => true
  | .addi _ _ _ _ => true
  | .andi _ _ _ _ => true
  | .ori _ _ _ _ => true
  | .xori _ _ _ _ => true
  | .slti _ _ _ _ => true
  | .lui _ _ _ => true
  | .beq _ _ _ _ => true
  | .bne _ _ _ _ => true
  | .blt _ _ _ _ => true
  | .bge _ _ _ _ => true
  | .j _ _ => true
  | .ldb _ _ _ _ => true
  | .ldh _ _ _ _ => true
  | .ldw _ _ _ _ => true
  | .ldd _ _ _ _ => true
  | .stb _ _ _ _ => true
  | .sth _ _ _ _ => true
  | .stw _ _ _ _ => true
  | .std _ _ _ _ => true
  | .vld _ _ _ _ => true
  | .vst _ _ _ _ => true
  | .bld _ _ _ _ => true
  | .bst _ _ _ _ => true
  | .amoswap _ _ _ _ => true
  | .amoadd _ _ _ _ => true
  | .amocas _ _ _ _ => true
  | .fenceSl _ => true
  | .fenceSs _ => true
  | .fenceFull _ => true
  | .vxor _ _ _ _ => true
  | .vand _ _ _ _ => true
  | .vadd _ _ _ _ => true
  | .vperm _ _ _ _ => true
  | .vmovg _ _ _ _ => true
  | .lens _ _ _ _ _ _ _ _ => true
  | .hset _ => true
  | .bxor _ _ _ _ => true
  | .band _ _ _ _ => true
  | .bshl _ _ _ _ => true
  | .bshr _ _ _ _ => true
  | .bmovb _ _ _ _ _ => true
  | .bmovn _ _ _ _ _ => true
  | .bctr _ _ _ _ => true
  | .bmulx _ _ _ _ => true
  | .bcmp _ _ _ => true
  | .bins _ _ _ _ => true
  | .bext _ _ _ _ => true
  | .pext _ _ _ _ => true
  | .pins _ _ _ _ => true
  | .pchk _ _ _ => true
  | .ppan _ _ _ _ => true
  | .gmul _ _ _ _ => true
  | .ghash _ _ => true
  | .tag _ _ _ => true
  | .seqld _ _ _ _ => true
  | .seqgo _ _ _ _ => true
  | .seqwait _ _ => true
  | .ldk _ _ _ _ => true
  | .kset _ _ _ => true
  | .kvar _ _ => true
  | .kcommit _ _ attr => decide (attr.length = 32)
  | .hinit _ _ _ => true
  | .hupd _ _ => true
  | .hfin _ _ => true
  | .hsave _ _ => true
  | .hrest _ _ => true
  | .cvinit _ _ _ => true
  | .cvupd _ _ _ => true
  | .cvfin _ _ => true
  | .fld _ _ _ => true
  | .fst _ _ _ => true
  | .fdone _ => true
  | .cmdin _ _ _ _ _ => true
  | .cmdout _ _ _ _ _ => true
  | .done _ => true
  | .wcall _ _ => true
  | .wret _ => true
  | .ecall _ _ => true
  | .eret _ => true
  | .rngld _ _ => true
  | .gateKeyInfo _ => true
  | .gateOwnerInfo _ => true
  | .auditNote _ => true
  | .kcv _ => true
  | .ff1 _ => true
  | .lensBlockRelease _ _ => true
  | .lensSelfTest _ _ _ => true
  | .cycleBudgetExhausted _ => true
  | .facetHang _ => true
  | .cvuSelfTest _ _ => true
  | .facetDrained _ => true
  | .substitution => true
  | .spareTested _ => true
  | .ageingMeasurement _ => true
  | .keyGenerate w => w.wf
  | .keyImport w => w.wf
  | .keyImportWorking w => w.wf
  | .keyExport w => w.wf
  | .keyActivate w => w.wf
  | .keySchedule w => w.wf
  | .keyCancel w => w.wf
  | .keySetLimit w => w.wf
  | .keyDestroy w => w.wf
  | .compOpen w => w.wf
  | .compAdd w => w.wf
  | .compCombine w => w.wf
  | .quorumOpen w => w.wf
  | .custEnrol w => w.wf
  | .custRemove w => w.wf
  | .quorumPolicy w => w.wf
  | .ownerErase w => w.wf
  | .deviceErase w => w.wf
  | .encipher w => w.wf
  | .decipher w => w.wf
  | .translate w => w.wf
  | .v1EncipherEcb w => w.wf
  | .v1EncipherCbc w => w.wf
  | .v1EncipherCtr w => w.wf
  | .v1DecipherEcb w => w.wf
  | .v1DecipherCbc w => w.wf
  | .v1DecipherCtr w => w.wf
  | .macGenerate w => w.wf
  | .macVerify w => w.wf
  | .pinTranslate w => w.wf
  | .pinVerifyOffset w => w.wf
  | .pinVerifyPvv w => w.wf
  | .pinGenerate w => w.wf
  | .pinOffsetGenerate w => w.wf
  | .acVerify w => w.wf
  | .acRespond w => w.wf
  | .acVerifyRespond w => w.wf
  | .cvcVerify w => w.wf
  | .cvcGenerate w => w.wf
  | .derivedEncipher w => w.wf
  | .derivedDecipher w => w.wf
  | .derivedMacGenerate w => w.wf
  | .derivedMacVerify w => w.wf
  | .dukptPinTranslate w => w.wf
  | .dukptMacVerify w => w.wf
  | .dukptDecipher w => w.wf
  | .sign w => w.wf
  | .verify w => w.wf
  | .keyAgree w => w.wf
  | .kemDecapsulate w => w.wf
  | .kemEncapsulate w => w.wf
  | .pubkeyExport w => w.wf
  | .random w => w.wf
  | .acVerifyPinTranslate w => w.wf
  | .dukptPinTranslateMacVerify w => w.wf
  | .acVerifyPinVerify w => w.wf
  | .saInstall w => w.wf
  | .saEpochKey w => w.wf
  | .saWithdraw w => w.wf
  | .saStats w => w.wf
  | .focusAdd w => w.wf
  | .focusCancel w => w.wf
  | .timeRead w => w.wf
  | .focusRead w => w.wf
  | .ownerSet w => w.wf
  | .ownerReset w => w.wf
  | .ownerFreeze w => w.wf
  | .ownerSave w => w.wf
  | .ownerRestore w => w.wf
  | .ownerThaw w => w.wf
  | .programInstall w => w.wf
  | .programRemove w => w.wf
  | .roleSet w => w.wf
  | .queryVersion w => w.wf
  | .keyInfo w => w.wf
  | .keyList w => w.wf
  | .ownerInfo w => w.wf
  | .deviceInfo w => w.wf
  | .ownerEntryCommand w _ => w.wf
  | .sqTailDoorbell _ _ _ => true
  | .cqHeadDoorbell _ _ _ => true
  | .qpEnable _ _ _ => true
  | .qpDisable _ _ _ => true
  | .sqEntryRead _ entry => decide (entry.length = 64)
  | .tokenRefill => true
  | .acceptanceConditionMet _ => true
  | .commandDispatch _ _ => true
  | .completionConditionMet _ => true
  | .completionPost _ => true
  | .releaseMarkWrite _ => true
  | .releaseDurable _ => true
  | .commandResume _ => true
  | .huxelUnitDispatch _ => true
  | .huxelUnitEnd _ _ _ _ => true
  | .huxelZeroingEnd _ => true
  | .hxOfflineReq _ _ => true
  | .unsealFillComplete _ _ _ => true
  | .leaseMarkCommit _ _ => true
  | .pageReseal _ => true
  | .exportEntryWrite => true
  | .exportAck _ _ => true
  | .exportStall => true
  | .treeBatchCommit => true
  | .destroyWipe _ _ => true
  | .importEntry slot => decide (slot.length = 4160)
  | .reloadEnd _ => true
  | .scrubWordRead addr _ _ _ => decide (addr < 51539607552)
  | .scrubPassEnd _ => true
  | .uncorrectableWord addr _ => decide (addr < 51539607552)
  | .recordRestore _ _ => true
  | .mramRewrite => true
  | .compSessionExpiry => true
  | .frameReceive _ _ _ octets _ _ => decide (octets.length ≤ 9600)
  | .contextFillComplete _ => true
  | .frameDispatch => true
  | .frameRelease _ => true
  | .pnMarkWrite _ _ => true
  | .lagEpisodeStart _ => true
  | .lagEpisodeEnd _ => true
  | .streamFacetHang _ => true
  | .epochOverlapEnd => true
  | .focusKeyActivate _ => true
  | .epochSwitch _ => true
  | .batchCut _ => true
  | .roleChange _ => true
  | .programSwap _ => true
  | .rateChange _ => true
  | .focusAddingTimeout _ => true
  | .focusEntryFree _ => true
  | .ptpMessage _ _ _ _ _ _ => true
  | .ppsEdge _ => true
  | .todMessage _ _ => true
  | .sampleTimeout => true
  | .ppsOutPulse => true
  | .timeFloorWrite => true
  | .timeSourceWrite _ _ => true
  | .sourceTestFailure _ _ => true
  | .startupTestEnd _ _ _ => true
  | .sourceRetest _ => true
  | .conditionerBlockClose _ chunks => chunks.all (fun x => decide (x.data.length = 64))
  | .entropyRequest _ _ => true
  | .cvuStart _ => true
  | .cvuDataWrite _ _ => true
  | .alignmentMarker _ _ _ _ => true
  | .timeBlock _ => true
  | .ringLinkUp _ _ _ _ _ => true
  | .ringLinkDown _ => true
  | .linkRekey _ _ => true
  | .linkAckSend _ => true
  | .linkAck _ _ _ => true
  | .linkNak _ _ => true
  | .mirror _ _ _ _ _ _ => true
  | .mirrorAck _ _ => true
  | .leaseReqTimer => true
  | .leaseReq _ => true
  | .leaseGrant _ _ => true
  | .leaseEnd => true
  | .grantedLeaseExpiry => true
  | .takeoverResealDone _ => true
  | .holderLost _ _ => true
  | .holderPortTimeout => true
  | .takeover _ _ _ _ => true
  | .join _ m => decide (m.digest.length = 48)
  | .members _ _ _ _ _ _ => true
  | .copyData _ _ _ _ _ _ => true
  | .copySeal _ _ _ _ _ => true
  | .copySealAck _ _ => true
  | .copyAbort _ _ _ => true
  | .copyLinkTimeout => true
  | .copyRetryTimer => true
  | .focus _ m => m.wf
  | .recordReq _ _ _ => true
  | .recordData _ _ _ _ => true
  | .passMirrorInserted => true
  | .passMirrorPassed => true
  | .passMirrorTimeout => true
  | .ringEnableWrite _ _ => true
  | .forceOpen _ => true
  | .ownerResetComplete _ => true
  | .freezeDrained _ => true
  | .restorePagesLive _ => true
  | .numvfsWrite _ _ => true
  | .functionLevelReset _ => true
  | .portHotReset _ => true
  | .spdmRequest _ _ m => m.wf
  | .ideKm _ m => m.wf
  | .lockInterface _ _ _ => true
  | .stopInterface _ _ => true
  | .aptBarWrite _ _ => true
  | .aptBarRead _ => true
  | .aptLockWrite _ _ _ => true
  | .arbHoldCut _ _ _ => true
  | .arbBurstEnd _ _ _ => true
  | .arbSaturation _ _ _ => true
  | .holdoffExpiry _ => true
  | .evrClaimRead _ _ => true
  | .evrCompleteWrite _ _ _ => true
  | .prigroupWrite _ _ => true
  | .prioEnable _ => true
  | .prioDisable _ => true
  | .prioTableCheck _ => true
  | .evrSwsetWrite _ _ => true
  | .targetUnavailable _ => true
  | .eventFlushTimer => true
  | .logFlush _ => true
  | .logSelect _ _ => true
  | .lcCmdGo _ _ => true
  | .lcProgrammingComplete _ => true
  | .tamperAlarm _ => true
  | .tamperAlarmClear _ => true
  | .unpoweredTamperEpisode _ => true
  | .cellLow _ => true
  | .loupeExtest _ _ => true
  | .loupeIdcode => true
  | .loupeSamplePreload _ _ => true
  | .loupeClamp _ _ => true
  | .loupeHighz => true
  | .loupeLcRead => true
  | .loupeLcXfer _ token => decide (token.length = 32)
  | .loupeDbgChal => true
  | .loupeDbgCert _ => true
  | .loupeDbgAccess _ _ _ => true
  | .loupeDbgCtrl _ _ _ => true
  | .loupeBypass => true
  | .pReset _ => true
  | .sReset _ => true
  | .cReset _ => true
  | .pwrgoodLow => true
  | .rstNAssert => true
  | .supplyPor => true
  | .perstAssert _ => true
  | .watchdogExpiry => true
  | .criticalStateError _ => true
  | .softwareCReset _ => true
  | .softwareSReset _ => true
  | .softwarePReset _ => true
  | .ringFencingReset => true
  | .pllLocked => true
  | .pllLockTimeout => true
  | .pllLossOfLock => true
  | .startStep1 bad => decide (bad ≤ 1024)
  | .startStep3 _ _ => true
  | .startStep4 _ => true
  | .startStep5 _ => true
  | .startStep6 _ kat => decide (kat.length = 8)
  | .startStep7 _ => true
  | .devBootGo _ _ => true
  | .imageSourceTimeout => true
  | .powerFailTrigger _ => true
  | .powerFailEnd _ => true
  | .vholdLow => true
  | .vauxRise => true
  | .vauxFall => true
  | .smbusTimeout => true
  | .entdaa _ => true
  | .setdasa _ _ => true
  | .setnewda _ _ => true
  | .rstdaa => true
  | .enec _ _ => true
  | .disec _ _ => true
  | .getpid _ => true
  | .getbcr _ => true
  | .getdcr _ => true
  | .getstatus _ => true
  | .getmrl _ => true
  | .setmrl _ _ => true
  | .setEndpointId _ _ _ => true
  | .getEndpointId _ => true
  | .getEndpointUuid _ => true
  | .getMctpVersionSupport _ _ => true
  | .getMessageTypeSupport _ => true
  | .getVendorMessageSupport _ _ => true
  | .pldmMessage _ _ _ _ _ _ => true
  | .pldmSensorEvent _ => true
  | .pscVersion _ => true
  | .pscStatus _ => true
  | .logRead _ _ _ => true
  | .regionRead _ _ _ _ _ => true
  | .pscReset _ _ => true
  | .lcTransition _ _ _ _ => true
  | .dbgChallenge _ => true
  | .pscDbgCert _ _ _ _ _ => true
  | .imageChunk _ _ _ _ _ => true
  | .alertAck _ _ => true
  | .alertCfg _ _ => true
  | .pscAlertOffer _ => true
  | .alertResponseRead => true
  | .mainRailAlert _ => true
  | .fctPerfClear _ _ => true
  | .latchingLoRead _ r _ => r.wf
  | .latchedHiRead _ r _ => r.wf
  | .rcRead _ r _ => r.wf
  | .registerWrite _ r _ _ => r.wf
  | .pwrgoodRise _ => true
  | .managementTick => true
  | .timeFloorPassed => true
  | .streamLinkChange _ _ _ => true
  | .frameTransmit _ _ => true
  | .hostLinkUp _ => true
  | .hostDmaComplete _ _ _ => true
  | .pscNotifyRetry _ => true

end Sys2Proof
end

