-- ==== Sys2Proof/Tests/Slice0.lean ====
section
/-! SUPPORT. Tests/Slice0.lean: checks of the model against the spec's worked examples and tables; an ill-formed command for each
check of WellFormed; and, for each obligation with hypotheses, a concrete state and operands that meet them together. -/

open Sys2Proof Sys2Proof.Machine

section
set_option Elab.async false

/-! ## Builders -/

/-- A slot of facet 0 whose fetch and memory meet no error. -/
def slot0 : Slot := ⟨0, false, .ok, false, []⟩
/-- Facet 0 in the middle of a program: some registers, two block registers, one of them sealed. -/
def facet0 : Facet := { Facet.zero with
  pc := 100, g := [(1, 0xFFFFFFFFFFFFFFFF), (2, 3), (3, 0x10000)], v := [(1, 5)]
  b := [(1, ⟨6, false, false, false, true⟩), (2, ⟨9, true, false, false, false⟩)] }
/-- The state at reset with the power domain of facet 0 on. -/
def power0 : State := State.reset.poke F.PWR_DOM 1
/-- That state with facet 0 as given. -/
def withF (f : Facet) : State := power0.setFacet 0 f
/-- The state at reset with facet 0 in the middle of a program. -/
def run0 : State := withF facet0
/-- 15 Table 15.11: the worked descriptors of unit 4, with the descriptor 31 that holds from reset (15 Table 15.4) off. -/
def apt4 (s : State) : State := { s with apt := { s.apt with active :=
  [(128, some ⟨0, 0xBA303C00⟩), (129, some ⟨0, 0xDA200080⟩), (130, some ⟨0, 0xD9C01C00⟩), (131, some ⟨0x1C000, 0xA9C01C00⟩), (159, some ⟨0, 0⟩)] } }

/-- Descriptors 0 and 1 of units 6 and 8 admit facets, and the inner masters from 0x080 up, over the whole space. -/
def aptOpen (s : State) : State := { s with apt := { s.apt with active :=
  [(192, some ⟨0, 0xFC001C00⟩), (193, some ⟨0, 0xDC001C80⟩), (222, some ⟨0, 0⟩), (223, some ⟨0, 0⟩),
   (256, some ⟨0, 0xFC001C00⟩), (257, some ⟨0, 0xDC001C80⟩), (286, some ⟨0, 0⟩), (287, some ⟨0, 0⟩)] } }

/-! ## The spec's worked examples -/

/-- 12 Table 12.8: the check value of "123456789" for each polynomial. -/
def digits19 : Bytes := [0x31, 0x32, 0x33, 0x34, 0x35, 0x36, 0x37, 0x38, 0x39]
theorem test_crc32c : checkValue 0 none digits19 = 0xE3069283 := by decide +kernel
theorem test_crc32 : checkValue 1 none digits19 = 0xCBF43926 := by decide +kernel
theorem test_crc64 : checkValue 2 none digits19 = 0x995DC9BBDF1939FA := by decide +kernel
theorem test_crc16 : checkValue 3 none digits19 = 0x29B1 := by decide +kernel

/-- 15 Table 15.12: the six accesses checked against Table 15.11. -/
theorem test_apertures_worked :
    aptCause (apt4 .reset) 4 0x182040 8 0x13 false false false = (0, 0, 0) ∧
    (aptCause (apt4 .reset) 4 0x050000 8 0x13 false true false).1 = 1 ∧
    aptCause (apt4 .reset) 4 0x050000 8 0x13 true true false = (0, 0, 0) ∧
    (aptCause (apt4 .reset) 4 0x720000 8 0x13 false true false).1 = 2 ∧
    aptCause (apt4 .reset) 4 0x7FFFC0 8 0x80 true true false = (0, 0, 0) ∧
    (aptCause (apt4 .reset) 4 0x100000 8 0x81 true false false).1 = 1 := by decide +kernel

/-- 21 Table 21.11: the worked addresses. -/
theorem test_addresses_worked :
    F.QP_AH_AH.at 0x212 0 = 0x40849C ∧ F.QP_ASEQ_LO.at 0x212 0 = 0x4084B0 ∧ F.FCT_AGE_CAUSE.at 70 0 = 0x146018 ∧
    F.SP_FCSERR.at 13 2 = 0xCD2A0 ∧ F.HX_ALAST_OUTCOME.at 6 0 = 0x6064C := by decide +kernel

/-- 08, worked translation: the PAN digits, the format 0 PAN field and the PIN fields. -/
def panWorked : Bytes := [0x10, 0, 0x53, 0x12, 0x79, 0x44, 0x60, 0x18, 0x20, 0x37, 0xFF, 0xFF, 0xFF, 0, 0, 0]
theorem test_pan_field_0 :
    blockOf (ofNibbles (panField 0 (panDigits panWorked))) = blockOf [0x00, 0x00, 0x27, 0x94, 0x46, 0x01, 0x82, 0x03] := by decide +kernel
theorem test_pan_field_4 : ofNibbles (panField 4 (panDigits panWorked)) =
    [0x45, 0x31, 0x27, 0x94, 0x46, 0x01, 0x82, 0x03, 0x70, 0, 0, 0, 0, 0, 0, 0] := by decide +kernel
theorem test_pin_field_0 : pinCheck 0 [0, 6, 3, 8, 2, 1, 0, 4, 15, 15, 15, 15, 15, 15, 15, 15] = true ∧
    pinDigits [0, 6, 3, 8, 2, 1, 0, 4, 15, 15, 15, 15, 15, 15, 15, 15] = [3, 8, 2, 1, 0, 4] := by decide +kernel
theorem test_pin_field_4 : (ofNibbles (pinField 4 [3, 8, 2, 1, 0, 4] [1, 2, 3, 4, 5, 6, 7, 8])) =
    [0x46, 0x38, 0x21, 0x04, 0xAA, 0xAA, 0xAA, 0xAA, 1, 2, 3, 4, 5, 6, 7, 8] := by decide +kernel

/-! ## Facet instructions: witnesses and tests -/

/-- FacetArithmeticCompletes, FacetCarryShiftAndImmediatesComplete, FacetBranchesComplete, FacetVectorsComplete: a facet that may issue; a shift
amount below 64. -/
theorem test_witness_ready :
    Ready slot0 [1, 2, 3] run0 ∧ Ready slot0 [1, 2] run0 ∧ Ready slot0 [1] run0 ∧ Ready slot0 [] run0 ∧ (getG run0 0 2).toNat < 64 :=
  ⟨⟨by decide, by decide, by decide, by decide, by decide, by decide⟩, ⟨by decide, by decide, by decide, by decide, by decide, by decide⟩, ⟨by decide, by decide, by decide, by decide, by decide, by decide⟩,
    ⟨by decide, by decide, by decide, by decide, by decide, by decide⟩, by decide⟩

/-- 02 Table 02.1: the sum wraps at 64 bits, and ADDC puts the carry out into C; −1 is below 3 signed and above it unsigned. -/
theorem test_add_wraps : getG (aluA slot0 4 1 2 (· + ·) run0) 0 4 = 2 := by decide +kernel
theorem test_addc_carry : ((aluC slot0 4 1 2 addCarry run0).facet 0).c = true ∧ getG (aluC slot0 4 1 2 addCarry run0) 0 4 = 2 := by
  decide +kernel
theorem test_subb_borrow : ((aluC slot0 4 2 1 subBorrow run0).facet 0).c = true ∧ getG (aluC slot0 4 2 1 subBorrow run0) 0 4 = 4 := by
  decide +kernel
theorem test_g0_outer : getG (aluA slot0 0 1 2 (· + ·) run0) 0 0 = 0 := by decide +kernel

/-- FacetLoadsAndStoresComplete: addresses in the data SRAM, at the last byte of the work region, and in shared SRAM through the
worked descriptors; the work survives its blocks in flight; an open block register. -/
theorem test_witness_loads_stores :
    (place (inner run0 0) false 0x1FFFF 1 = .loc ∧ place (inner run0 0) true 0x10000 32 = .loc ∧ (sramEcc .ok 0 run0 0x10000).1 = true) ∧
    (place (inner (apt4 run0) 0) false 0x2100182040 8 = .glob 4 0x182040 ∧ place (inner (apt4 run0) 0) true 0x2100182040 8 = .glob 4 0x182040 ∧
      (aptCause (apt4 run0) 4 0x182040 8 0 (inner (apt4 run0) 0) false false).1 = 0 ∧
      (aptCause (apt4 run0) 4 0x182040 8 0 (inner (apt4 run0) 0) true false).1 = 0) ∧
    ((settled slot0 run0).facet 0).pc ≠ 0 ∧ (getB (settled slot0 run0) 0 1).sld = false := by decide +kernel

/-- FacetAtomicsAndFencesComplete: the same place in shared SRAM; the value there equals g[d] or not; a store buffer with a store. -/
def facetAmo : Facet := { facet0 with g := [(1, 0x2100182040), (2, 7)], sb := [.store 0x2100182048 [1]] }
theorem test_witness_atomics :
    Ready slot0 [3, 1, 2] (apt4 (withF facetAmo)) ∧ (getG (apt4 (withF facetAmo)) 0 1).toNat / 8 * 8 = 0x2100182040 ∧
    BitVec.ofNat 64 (leNat (memRead (drainAll (fetched slot0 (apt4 (withF facetAmo))) 0).gmem 0x2100182040 8)) =
      getG (drainAll (fetched slot0 (apt4 (withF facetAmo))) 0) 0 3 ∧
    BitVec.ofNat 64 (leNat (memRead (drainAll (fetched slot0 (apt4 (withF facetAmo))) 0).gmem 0x2100182040 8)) ≠
      getG (drainAll (fetched slot0 (apt4 (withF facetAmo))) 0) 0 2 ∧
    ((withF facetAmo).facet 0).sb ≠ [] ∧ (run0.facet 0).sb = [] :=
  ⟨⟨by decide, by decide, by decide, by decide, by decide, by decide⟩, by decide +kernel, by decide +kernel, by decide +kernel, by decide +kernel, by decide +kernel⟩

/-- BlockRegisterOperationsComplete, OpenBlockInstructionsComplete: open and sealed sources; a format 0 block whose
length nibble is 12. -/
theorem test_witness_blocks :
    ((settled slot0 run0).facet 0).pc ≠ 0 ∧ (getB (settled slot0 run0) 0 1).sld = false ∧ (getB (settled slot0 run0) 0 1).rel = true ∧
    seqHeld (run0.facet 0) = false ∧ (getB (settled slot0 run0) 0 2).sld = true ∧
    (getB (settled slot0 run0) 0 3).sld = false ∧ Ready slot0 [1, 2] run0 ∧
    (fieldNibbles 0 0x0C00000000000000).getD 1 0 = 12 :=
  ⟨by decide +kernel, by decide +kernel, by decide +kernel, by decide +kernel, by decide +kernel, by decide +kernel,
    ⟨by decide, by decide, by decide, by decide, by decide, by decide⟩, by decide +kernel⟩

/-- 02 R44: the result is sealed when a source is. -/
theorem test_bxor_seal : getB (blkOp slot0 [] (fun s => setB s 0 3 (bres ((getB s 0 1).val ^^^ (getB s 0 2).val)
    ((getB s 0 1).sld || (getB s 0 2).sld))) run0) 0 3 = ⟨15, true, false, false, false⟩ := by decide +kernel

/-- A program entry of a class, signed by a signer, that declares every use. -/
def entryOf (signer cls : Nat) : EntryRef := ⟨signer, 1, cls, 0xFFFF, 1000⟩
/-- Facet 0 with an AES-128 key in K under a use code, in an entry of class CUSTODY of the vendor. -/
def facetK (use : Nat) : Facet :=
  { facet0 with k := some ⟨List.replicate 16 7, 1, use, 15, 5⟩, entry := some (entryOf 0 15)
                seq := [(1, some ⟨List.replicate 64 0, 0, 0, 0⟩)] }

/-- LensInstructionsComplete: K holds an AES key for ENC; LENS forwards to a block register with lens 0, and on both lenses; HSET and
SEQGO likewise; SEQLD reads 64 bytes; the pc stands after the drain. -/
theorem test_witness_lens :
    (withF (facetK 1)).facet 0 = facetK 1 ∧ ((settled slot0 (withF (facetK 1))).facet 0).k = (facetK 1).k ∧
    classOk 1 ((settled slot0 (withF (facetK 1))).facet 0).cls = true ∧ (useDirs 1).contains 0 = true ∧ algDir 1 0 = true ∧
    lensDest (settled slot0 (withF (facetK 1))) 0 1 3 0 = some (.reg 3) ∧
    (getB (settled slot0 (withF (facetK 1))) 0 1).sld = false ∧ useBlockDest 1 15 = some false ∧
    (tget none ((settled slot0 (withF (facetK 1))).facet 0).seq 1).map (fun x => byteAt x.recipe 1) = some 0 ∧
    ((settled slot0 (withF (facetK 1))).facet 0).pc ≠ 0 ∧ (facetK 1).ldk = none := by decide +kernel
theorem test_witness_lens_ready : Ready slot0 [] (withF (facetK 1)) ∧ Ready slot0 [3] (withF (facetK 1)) :=
  ⟨⟨by decide, by decide, by decide, by decide, by decide, by decide⟩, ⟨by decide, by decide, by decide, by decide, by decide, by decide⟩⟩

/-- A key record in use by owner 5: AES-128, ACTIVE, with the handle that names index 4096 (page 128). -/
def rec0 (use alg : Nat) : KeyRec := { KeyRec.empty with
  handle := 0x02001000, state := kActive, use := use, alg := alg, owner := 5, klen := 16, material := List.replicate 16 7 }
/-- Owner 5: active, with quotas, and a policy that asks for no quorum (the policy floors of 05 R115 are no concern of a witness). -/
def owner5 : Owner :=
  { Owner.absent with state := oActive, keyQuota := 1000, flowQuota := 1000, ports := 65535, policy := List.replicate 16 0, nonce := [] }
/-- Key records by index, their pages owned by owner 5, each owner present with a quota. -/
def keyed (l : Tab KeyRec) : State :=
  { power0 with
    ks := { State.reset.ks with recs := l, leaves := [(128, { Leaf.free with owner := 5 })] }
    own := [(0, { Owner.absent with state := oActive, keyQuota := 1000 }), (5, owner5)]
    ownKeys := [(5, some [1])] }
/-- Facet 0 running for owner 5 in a CUSTODY entry, with the handle of `rec0` in g1. -/
def facet5 (k : Option KReg) : Facet := { facet0 with owner := 5, g := [(1, 0x02001000)], entry := some (entryOf 0 15), k := k }

/-- KeyRegisterInstructionsComplete, LDK: a miss; a hit whose checks pass and whose lease stands. -/
def ldkMiss : State := (keyed [(4096, rec0 1 1)]).setFacet 0 (facet5 none)
def ldkHit : State := setKs ldkMiss { ldkMiss.ks with cache := [(4096, some ⟨false, false, 0⟩)] }
def ldkTaken : State :=
  cacheTake (((fetched slot0 ldkHit).incWrap F.FCT_LDK 0).modFacet 0 (fun f => { f with ldk := some ⟨3, 0x02001000, 1⟩ })) 4096 false
theorem test_witness_ldk :
    Ready slot0 [3, 1] ldkMiss ∧ Ready slot0 [3, 1] ldkHit ∧
    (useInK 1 = true ∧ classOk 1 (facet5 none).cls = true ∧ (entryOf 0 15).uses.testBit 1 = true ∧
      cached ldkMiss (kidx ldkMiss 5 0x02001000) = false ∧ ldkMiss.ks.fills = [] ∧ cached ldkHit (kidx ldkHit 5 0x02001000) = true ∧
      (keyCheck ldkTaken 5 (inner ldkTaken 0) (workAcc ldkTaken 0) 0x02001000 1).1 = sOk ∧ mustWait ldkTaken (.ldk 0) 4096 = false ∧
      (rec0 1 1).leaseSpent = false) :=
  ⟨⟨by decide, by decide, by decide, by decide, by decide, by decide⟩, ⟨by decide, by decide, by decide, by decide, by decide, by decide⟩, by decide +kernel⟩

/-- KeyRegisterInstructionsComplete, the fill and the lease: a fill of record 4096 is in progress and its page can be opened; a load
waits for the lease mark of record 4096, whose set is free. -/
theorem test_witness_fill_lease :
    (let s := setKs ldkMiss { ldkMiss.ks with fills := [⟨4096, [0]⟩] }
     (s.ks.fills.find? (fun x => x.index == 4096)).isSome = true ∧ (pageKey s (pageOf 4096)).isSome = true) ∧
    (let s := setKs ldkMiss { ldkMiss.ks with leaseWait := [(.ldk 0, 4096)], advance := [4096] }
     s.ks.advance.contains (0 * 33554432 + hIdx 0x02001000) = true ∧ markFull s 4096 = false ∧ s.fenced (s.krec 4096).owner = false) := by decide +kernel

/-- KeyRegisterInstructionsComplete, KSET, KVAR and KCOMMIT: K under DERIVE reaches ENC; K under UNWRAP with 16 bytes kept commits an
AES-128 key for ENC. -/
def attrEnc : Bytes := [1, 0, 1] ++ List.replicate 29 0
def facetWrap : Facet := { facet5 (some ⟨List.replicate 16 7, 1, 4, 15, 5⟩) with subject := some ⟨[], 0, List.replicate 16 9⟩ }
theorem test_witness_kset :
    (ksetAlg 0 = some 1 ∧ (useTargets 5).contains 1 = true ∧ vendorEntry (facetK 5) = true ∧ hasTargets 5 = true ∧
      ((settled slot0 (withF (facetK 5))).facet 0).k = (facetK 5).k ∧ ((settled slot0 (withF (facetK 5))).facet 0).pc ≠ 0) ∧
    (let s := (keyed []).setFacet 0 facetWrap
     let w := settled slot0 s
     (w.facet 0).pc ≠ 0 ∧ creationCheck w 5 (attrOf attrEnc) = sOk ∧ isExtAlg 1 = false ∧ algKeyLen 1 = 16 ∧
      ((w.facet 0).subject.map (fun x => x.kept.length)) = some 16 ∧
      (createRec w (newKeyOf 5 (attrOf attrEnc) 3 (List.replicate 16 9) none)).isSome = true) := by decide +kernel

/-- HashAndCheckValueInstructionsComplete: keyed and unkeyed starts, a hash in progress, one saved, and a check-value computation. -/
def facetHash : Facet := { facetK 6 with
  hash := some ⟨0, false, [], 0, [1]⟩, cvu := some ⟨0, 1⟩, hsaved := [(0x10000, some ⟨0, false, [], 0, [1]⟩)], g := [(1, 0x10000), (2, 7)] }
theorem test_witness_hash :
    Ready slot0 [1, 2] (withF facetHash) ∧
    (classOk 6 (facetK 6).cls = true ∧ ((settled slot0 (withF facetHash)).facet 0).hash.isSome = true ∧
      ((settled slot0 (withF facetHash)).facet 0).pc ≠ 0 ∧ (getB (settled slot0 (withF facetHash)) 0 1).sld = false ∧
      (getG (withF facetHash) 0 2).toNat = 7 ∧ (tget none facetHash.hsaved (getG (withF facetHash) 0 1).toNat).isSome = true ∧
      place (inner (withF facetHash) 0) false 0x10000 4096 = .loc) :=
  ⟨⟨by decide, by decide, by decide, by decide, by decide, by decide⟩, by decide +kernel⟩
/-- The record of a command of owner 5 that executes on facet 0: queue context 3, acceptance sequence number 1, tag 9; input and
output lengths 4,096. -/
def jrec0 : JRec :=
  { st := .executing, tag := 9, owner := 5, ctx := 3, mode := 0, flags := 0, aseq := 1, sec := 0, ns := 0, opcode := 0x0801, batch := 0
    digest := [], gap := 0, answer := false, orig := 0, slot := none, accMram := true, compMram := true, accAck := true, compAck := true
    comp := none, sub := List.replicate 32 0 ++ [0, 0x10, 0, 0] ++ List.replicate 8 0 ++ [0, 0x10, 0, 0] ++ List.replicate 16 0
    result := [], held := false, pre := none, cq := none, facet := 1, parked := false, again := false, ahNext := 0, flr := false
    recovered := false }
def withRec (r : JRec) (s : State) : State := { s with jr := { s.jr with recs := [(0, some r)] } }
/-- Facet 0 at work on that command: g1 to g3 hold an offset, a local address and a length. -/
def facetCmd : Facet := { facet5 none with work := .cmd 3 1, g := [(1, 0), (2, 0x10000), (3, 4096)] }
def cmd0 : State := withRec jrec0 ((keyed []).setFacet 0 facetCmd)
/-- A frame of a transmit flow that facet 0 runs, with a head of zeros, and the flow; the same frame of a receive flow. -/
def frame0 : Frame := ⟨7, 1, 1, 0, 0, 0, 0, 0, List.replicate 192 0, 64, 64, .facet 0, 1, 0, [], 0, 0, 0, List.replicate 20 0⟩
def flowE : Flow :=
  { owner := 5, dir := 1, suite := 0, port := 0, desc := List.replicate 64 0, s0 := FSlot.empty, s1 := FSlot.empty
    seqNext := 0, relNext := 0, counters := [], frames := 1, cells := 1, withdrawn := false, waiters := [], lastAuth := 0 }
def frm0 : State := setStr (withF { facet0 with work := .frame 7, g := [(2, 0xFFFFFFFFFFFFFFF8), (3, 88)] })
  { State.reset.str with frames := [frame0], held := [(0, [7])], flows := [(1, some flowE)] }
def frmIn : State := setStr (withF { facet0 with work := .frame 7, auth := true, g := [(2, 0xFFFFFFFFFFFFFFC0), (3, 64)] })
  { State.reset.str with frames := [{ frame0 with dir := 0 }], held := [(0, [7])] }

/-- CommandAndFrameInstructionsComplete: CMDIN and CMDOUT of 4,096 bytes up to the limit; a transfer in either direction completes; DONE
with S_OK and no result; FLD and FST at the least and the greatest offset; FDONE of an egress frame
in protected form, and of an ingress frame with a start of −64. -/
theorem test_witness_commands :
    Ready slot0 [4, 1, 2, 3] cmd0 ∧
    (((settled slot0 cmd0).facet 0).pc ≠ 0 ∧ ((settled slot0 cmd0).curRec 0).isSome = true ∧
      (getG (settled slot0 cmd0) 0 1).toNat + 4096 ≤ subField jrec0.sub 32 4 ∧ subField jrec0.sub 44 4 = 4096 ∧
      within 0x10000 4096 0x10000 0x1FFFF = true) ∧
    (let s := aptOpen (cmd0.modFacet 0 (fun f => { f with dma := some ⟨true, 4, 0x10000, 0, 8⟩ }))
     (s.facet 0).dma = some ⟨true, 4, 0x10000, 0, 8⟩ ∧ (s.curRec 0).isSome = true ∧ jrec0.flr = false ∧
      copyStopped s 0 ⟨true, 4, 0x10000, 0, 8⟩ = false ∧ copyStopped s 0 ⟨false, 4, 0x10000, 0, 8⟩ = false ∧
      (copyAccess (perf (s.modFacet 0 (fun f => { f with dma := none })) 0 0x0C 1) 0 ⟨true, 4, 0x10000, 0, 8⟩).1 = true ∧
      (copyAccess (perf (s.modFacet 0 (fun f => { f with dma := none })) 0 0x0C 1) 0 ⟨false, 4, 0x10000, 0, 8⟩).1 = true) ∧
    (let s := cmd0.modFacet 0 (fun f => { f with g := [(1, 0), (2, 0)] })
     progStatus ((getG (perf (drainAll (settled slot0 s) 0) 0 0x0F 1) 0 1).toNat % 65536) = sOk) :=
  ⟨⟨by decide, by decide, by decide, by decide, by decide, by decide⟩, by decide +kernel, by decide +kernel, by decide +kernel⟩
theorem test_witness_frames :
    Ready slot0 [1, 2, 3] frm0 ∧
    (((settled slot0 frm0).facet 0).pc ≠ 0 ∧ ((settled slot0 frm0).curFrame 0).isSome = true ∧ frameIdx frame0 (-64) 8 = some 0 ∧
      frameIdx frame0 120 8 = some 184 ∧ frameIdx frame0 96 32 = some 160 ∧ frameIdx frame0 112 16 = some 176 ∧
      (getB (settled slot0 frm0) 0 1).sld = false ∧ (getG (settled slot0 frm0) 0 1).toNat = 0 ∧
      (getG (settled slot0 frm0) 0 2).toInt = -8 ∧ (getG (settled slot0 frm0) 0 3).toNat = 88 ∧ frame0.dir ≠ 0 ∧
      ((settled slot0 frm0).flow 1).any (fun f => protectedForm f frame0 (-8) 88) = true) ∧
    (((settled slot0 frmIn).curFrame 0).isSome = true ∧ (getG (settled slot0 frmIn) 0 1).toNat = 0 ∧
      (getG (settled slot0 frmIn) 0 2).toInt = -64 ∧ (getG (settled slot0 frmIn) 0 3).toNat = 64 ∧
      ((drainAll (settled slot0 frmIn) 0).facet 0).auth = true) :=
  ⟨⟨by decide, by decide, by decide, by decide, by decide, by decide⟩, by decide +kernel, by decide +kernel⟩

/-- An installed program entry. -/
def prog0 (signer id cls : Nat) : Prog := ⟨⟨signer, id, cls, 0xFFFF, 1000⟩, 1, 7, 0x8000, 64, [], [], [], true, 0⟩
/-- WorldCallsAndGatesComplete: a gate, its return, a call and its return, in the outer world. -/
def facetOut : Facet := { facet0 with entry := some ⟨0, 2, 9, 0xFFFF, 1000⟩, calls := [⟨⟨0, 2, 9, 0xFFFF, 1000⟩, 64⟩] }
def world0 : State := { withF facetOut with gates := [(3, some 1)], progs := [(1, some (prog0 0 1 15)), (2, some (prog0 0 2 9))] }
theorem test_witness_world :
    Ready slot0 [] world0 ∧
    (let w := settled slot0 world0
     (w.facet 0).pc ≠ 0 ∧ tget none w.gates 3 = some 1 ∧ (w.prog 0 1).isSome = true ∧ inner w 0 = false ∧ (callee w 0 2).isSome = true ∧
      (w.facet 0).entry.isSome = true ∧ (w.facet 0).calls.length = 1 ∧ (w.facet 0).gate = none ∧ (w.prog 0 2).isSome = true) ∧
    (let s := world0.modFacet 0 (fun f => { f with gate := some 65 })
     (s.facet 0).gate.isSome = true ∧ ((settled slot0 s).facet 0).gate = some 65) :=
  ⟨⟨by decide, by decide, by decide, by decide, by decide, by decide⟩, by decide +kernel, by decide +kernel⟩

/-- WorldCallsAndGatesComplete, the gates and FF1: a facet in a gate with a handle in g1; a body for KCV; FF1 on 20 digits. -/
def gate0 : State :=
  let s := (keyed [(4096, rec0 14 1)]).setFacet 0 { facet5 none with gate := some 64, g := [(1, 0x02001000), (2, 1)] }
  setKs s { s.ks with bodies := [(4096, some ⟨[], []⟩)] }
def ff1State : State := (keyed [(4096, rec0 14 1)]).setFacet 0 { facet5 none with g := [(1, 0x02001000), (2, 10), (3, 20)] }
theorem test_witness_gates :
    (let u := fetched slot0 gate0
     (gateFind u 0).1 = sOk ∧ kcvMethodOf 1 = (getG gate0 0 2).toNat ∧ (gateFind u 0).2.alg = 1 ∧
      (tget none gate0.ks.bodies (kidx gate0 5 (gateFind u 0).2.handle)).isSome = true) ∧
    (let w := settled slot0 ff1State
     ((w.facet 0).pc ≠ 0 ∧ (getG w 0 4).toNat = 0 ∧ (getG w 0 3).toNat = 20 ∧ (getG w 0 2).toNat = 10 ∧ 1000000 ≤ 10 ^ min 20 20) ∧
      (∀ x ∈ (List.range 20).map (fun i => leNat (locRead (w.facet 0) (0x10000 + 2 * i) 2)), x < 10) ∧
      (keyCheck (ff1Pipe w 0) 5 (inner (ff1Pipe w 0) 0) (workAcc (ff1Pipe w 0) 0) 0x02001000 14).1 = sOk ∧
      (consume (ff1Pipe w 0) (.call 0) (kidx (ff1Pipe w 0) 5 0x02001000)).isSome = true ∧
      (keyCheck (ff1Pipe w 0) 5 (inner (ff1Pipe w 0) 0) (workAcc (ff1Pipe w 0) 0) 0x02001000 14).2.alg = 1) := by decide +kernel
theorem test_witness_gates_ready : Ready slot0 [] gate0 ∧ Ready slot0 [] ff1State ∧ Ready slot0 [1] run0 ∧ (fetched slot0 run0).rngStopped = false :=
  ⟨⟨by decide, by decide, by decide, by decide, by decide, by decide⟩, ⟨by decide, by decide, by decide, by decide, by decide, by decide⟩, ⟨by decide, by decide, by decide, by decide, by decide, by decide⟩,
    by decide +kernel⟩
/-! ## Commands of the queue pairs: witnesses -/

/-- A version 2 submission of owner 5 with tag 9. -/
def work5 (a b c : Word) (inl input : Bytes) : Work := ⟨5, 2, 0, 9, a, b, c, fitBytes 16 inl, input, 65536, 0, false⟩
/-- The handles of records 4096, 4097 and 4098. -/
def hA : Word := 0x02001000
def hB : Word := 0x02001001
def hC : Word := 0x02001002
/-- A second and a third record of owner 5. -/
def rec1 (use alg : Nat) : KeyRec := { rec0 use alg with handle := 0x02001001 }
def rec2 (use alg : Nat) : KeyRec := { rec0 use alg with handle := 0x02001002 }

/-- Every command: no change stands under its tag, it does not wait, and its operation and layout are defined. -/
theorem test_witness_runs : Runs 0x0101 (work5 0 0 0 [] attrEnc) (keyed []) ∧ Runs 0x0210 { work5 hA 0 0 [] [] with ver := 1 } (keyed []) ∧
    Runs 0x8000 (work5 0 0 0 [] []) (keyed []) :=
  ⟨⟨by decide +kernel, by decide +kernel, by decide +kernel, by decide +kernel, by decide +kernel⟩,
    ⟨by decide +kernel, by decide +kernel, by decide +kernel, by decide +kernel, by decide +kernel⟩,
    ⟨by decide +kernel, by decide +kernel, by decide +kernel, by decide +kernel, by decide +kernel⟩⟩
/-- An earlier KEY_GENERATE that replaces handle A holds a later KEY_DESTROY of it back, and not one of another record (05 R126). -/
theorem test_turn :
    let first := { jrec0 with opcode := 0x0101, tag := 8, aseq := 0, sub := List.replicate 12 0 ++ leBytes 4 hA.toNat ++ List.replicate 48 0 }
    let s := setJr (withRec { jrec0 with opcode := 0x0109, aseq := 1 } (keyed [])) { (withRec { jrec0 with opcode := 0x0109, aseq := 1 } (keyed [])).jr with
      recs := tset none (withRec { jrec0 with opcode := 0x0109, aseq := 1 } (keyed [])).jr.recs 7 (some first) }
    inTurn s 0x0109 (work5 hA 0 0 [] []) = false ∧ inTurn s 0x0109 (work5 hB 0 0 [] []) = true := by decide +kernel

/-- KeyCreationAndExchangeComplete: KEY_GENERATE of AES-128 and of RSA-2,048 (the least and the greatest modulus of its range too);
KEY_EXPORT under an AES key; COMP_OPEN of 2 components; COMP_COMBINE of 2. -/
theorem test_witness_generate :
    (let w := work5 0 0 0 [] attrEnc
     let q := quorum (keyed []) w 0x0101 1 5
     q.st = sOk ∧ q.body.length = 32 ∧ creationCheck q.s 5 (attrOf q.body) (generateBody w (attrOf q.body)) = sOk ∧
      (w.unused 0 && generateInl w (attrOf q.body).alg && w.fits w.createLen) = true ∧ isExtAlg (attrOf q.body).alg = false ∧
      q.s.rngStopped = false) ∧
    (let w := work5 0 0 0 [0, 8, 1, 0, 1, 0] ([8, 0, 0x20] ++ List.replicate 29 0)
     let q := quorum (keyed []) w 0x0101 1 5
     q.st = sOk ∧ creationCheck q.s 5 (attrOf q.body) (generateBody w (attrOf q.body)) = sOk ∧ generateInl w 0x20 = true ∧ isExtAlg (attrOf q.body).alg = true) ∧
    generateInl (work5 0 0 0 [0, 0x20, 1, 0, 1, 0] []) 0x20 = true := by decide +kernel
theorem test_witness_export :
    let s := keyed [(4096, { rec0 1 1 with exportable := true }), (4097, rec1 3 1)]
    let w := work5 hA hB 0 [1] []
    let f := keyFind s 5 false hA.toNat
    f.1 = sOk ∧ (f.2.exportable && !([14, 8, 9, 12].contains f.2.use)) = true ∧ f.2.alg ≠ 6 ∧
    (w.unused 2 && decide (w.f 48 1 < 2) && w.z 49 64 && w.fits (kbLen (kbVersion 1) f.2)) = true ∧
    (let s := pipeIn s 4097
     (keyCheck s 5 true 0 hB.toNat 3).1 = sOk ∧ (consume (countLoad s w hB.toNat) (.cmd w.o w.t) 4097).isSome = true) ∧ isAesAlg 1 = true ∧
    strength f.2.alg f.2.klen ≤ strength 1 16 := by decide +kernel
def comp0 : Session := ⟨List.replicate 8 1, 5, 1, 2, 0, [], [(1, 0, List.replicate 16 3), (2, 1, List.replicate 16 4)]⟩
theorem test_witness_components :
    (let w := work5 0 0 0 [1, 2] []
     (w.unused 0 && decide (1 ≤ w.f 48 1) && decide (w.f 48 1 ≤ 7) && decide (2 ≤ w.f 49 1) && decide (w.f 49 1 ≤ 5) && w.z 50 64 &&
       decide (w.len = 0) && w.fits 1192) = true) ∧
    (let s := { keyed [] with sessions := [comp0] }
     s.session 5 (List.replicate 8 1) = some comp0 ∧ comp0.parts.length = comp0.n ∧ (combined comp0).2 = true ∧
      creationCheck s 5 (attrOf attrEnc) = sOk ∧ (attrOf attrEnc).alg = comp0.alg) := by decide +kernel

/-- KeyChangesComplete: a PENDING key is activated, scheduled and cancelled; a limit is set at the uses and above them; an ACTIVE key
is destroyed. -/
def recPend (bound : Bool) : KeyRec := { rec0 1 1 with state := kPending, focusBound := bound, kcv := [1, 2, 3, 4, 5], kcvMethod := 1 }
theorem test_witness_activate :
    (let s := keyed [(4096, recPend false)]
     let w := work5 hA 0 0 [] [1, 2, 3, 4, 5, 0, 0, 0]
     let f := keyFind s 5 false hA.toNat
     (w.unused 1 && w.z 48 64 && kcvInput w.input && w.fits 0) = true ∧ f.1 = sOk ∧ kcvFits f.2 w.input = true ∧ f.2.state = kPending ∧
      f.2.focusBound = false ∧ kcvMatches s (kidx s 5 hA.toNat) f.2 w.input = true) ∧
    (let s := keyed [(4096, recPend true)]
     let w := work5 hA 0 0 [10, 0, 0, 0, 0, 0, 0xFF, 0xC9, 0x9A, 0x3B] [1, 2, 3, 4, 5, 0, 0, 0]
     let f := keyFind s 5 false hA.toNat
     w.f 54 4 + 1 = secNs ∧ (w.unused 1 && w.z 58 64 && decide (w.f 54 4 < secNs) && kcvInput w.input && w.fits 4) = true ∧
      f.2.focusBound = true ∧ s.now + 2 * mtNs ≤ w.f 48 6 * secNs + w.f 54 4 ∧ armedAt s f.2 = none) ∧
    tooClose (keyed [(4096, recPend true)]) (recPend true) = false := by decide +kernel
def recLim (uses : Nat) : KeyRec := { rec0 1 1 with counted := true, limit := 100, uses := uses, hw := 10 }
theorem test_witness_limit :
    (let w := work5 hA 0 0 [50] []
     (w.unused 1 && w.z 56 64 && w.fits 0) = true ∧ w.f 48 8 = 50 ∧ 50 ≤ (recLim 9).limit ∧ (recLim 9).hw ≤ 50 ∧ (recLim 9).uses ≠ 50) ∧
    (recLim 10).uses = 10 ∧ (recLim 10).hw ≤ 10 ∧ (recLim 10).state = kActive ∧
    (keyFind (keyed [(4096, recLim 10)]) 5 false hA.toNat).1 = sOk := by decide +kernel
theorem test_witness_destroy :
    let s := keyed [(4096, rec0 1 1)]
    (destroyFind s 5 hA.toNat).1 = sOk ∧ namedCustodian s 5 hA.toNat = false ∧ tooClose s (rec0 1 1) = false ∧
    ((work5 hA 0 0 [] []).unused 1 && (work5 hA 0 0 [] []).z 48 64 && (work5 hA 0 0 [] []).fits 0) = true := by decide +kernel

/-- CustodianCommandsComplete: QUORUM_OPEN of the least and the greatest lifetime; CUST_REMOVE of slot 7 with its record and without;
QUORUM_POLICY at the floors. -/
def withCust : State := modOwner (keyed [(4096, rec0 9 0x3A)]) 5 (fun x => { x with custodians := [(7, some ⟨0x02001000, 4, 0⟩)] })
theorem test_witness_custodians :
    (let w := work5 0 0 0 [1] []
     (w.unused 0 && decide (1 ≤ w.f 48 4) && decide (w.f 48 4 ≤ 3600) && w.z 52 64 && decide (w.len = 0) && w.fits 40) = true) ∧
    (let w := work5 0 0 0 [0x10, 0x0E] []
     w.f 48 4 = 3600 ∧ (keyed []).rngStopped = false ∧ ((keyed []).owner 5).challenges.length < 16) ∧
    (let w := work5 0 0 0 [5, 0, 7] []
     w.mayTarget = true ∧ (w.unused 0 && decide (w.f 48 2 < 4096) && decide (w.f 50 1 < 8) && w.z 51 64 && w.fits 0) = true ∧
      (slotEntry withCust 5 7).isSome = true ∧ slotWaits withCust 5 7 = false ∧ thresholdsMet withCust 5 (withCust.owner 5) = true ∧
      (destroyFind withCust 5 0x02001000).1 = sOk) ∧
    (let b : Bytes := [0, 0, 2, 2, 1, 2, 2, 2, 2, 0, 0, 0, 0, 0, 0, 0]
     let x := { owner5 with policy := b, custodians := [(0, some ⟨1, 0x1FE, 0⟩), (1, some ⟨2, 0x1FE, 0⟩)] }
     b.length = 16 ∧ (b.drop 9).all (fun b => decide (b = 0)) = true ∧ (List.range 8).all (fun c => decide (policyFloor.getD (c + 1) 0 ≤
       byteAt b (c + 1)) && decide (byteAt b (c + 1) ≤ 8)) = true ∧ thresholdsMet (keyed []) 5 x = true) := by decide +kernel

/-- CustodianCommandsComplete, CUST_ENROL: the credential's signature has verified. -/
theorem test_witness_enrol :
    (setHx (keyed []) { HxSt.zero with verdicts := [(5, 9, credentialSlot, sOk)] }).verdict 5 9 credentialSlot = some sOk ∧
    verifyInputOk 0x39 (List.replicate 1952 0) (List.replicate 3309 0) = true ∧ quotaOk (keyed []) 5 (heapBytes 1952) = true := by decide +kernel

/-- 05 Table 05.3: the default thresholds are at or above the floors. -/
theorem test_default_policy : (List.range 8).all (fun c => decide (policyFloor.getD (c + 1) 0 ≤ byteAt defaultPolicy (c + 1))) = true := by decide

/-- The key of a handle can be loaded under a use code and one use of it consumed (`LoadsKey`). -/
def loadable (s : State) (w : Work) (h : Word) (use : Nat) : Bool :=
  let first := decide ((keyCheck s w.o false w.acc h.toNat use).1 = sOk)
  let s := pipeIn s (kidx s w.o h.toNat)
  first && decide ((keyCheck s w.o false w.acc h.toNat use).1 = sOk) &&
    (consume (countLoad s w h.toNat) (.cmd w.o w.t) (kidx (countLoad s w h.toNat) w.o h.toNat)).isSome
/-- Keys of owner 5 under the use codes and algorithms that a command loads. -/
def keys2 (u1 a1 u2 a2 : Nat) : State := keyed [(4096, rec0 u1 a1), (4097, rec1 u2 a2)]

/-- DataCommandsComplete: version 2 in mode 1 with a 16-byte IV; version 1 ECB; XTS with a second key. -/
def symW (mode : BitVec 8) : Work := work5 hA 0 0 [mode, 0, 0, 16] (List.replicate 32 0)
theorem test_witness_data :
    (loadable (keys2 1 1 1 3) (symW 1) hA 1 = true ∧ (symV2 (symW 1) true (symW 1).input).fit 1 = true ∧
      (symV2 (symW 1) true (symW 1).input).fieldsOk (symW 1) 1 = true ∧ (symW 1).unused 1 = true ∧
      ((symV2 (symW 1) true (symW 1).input).run 1 (List.replicate 16 7) []).isSome = true) ∧
    (let w := { work5 hA 0 0 [] (List.replicate 16 0) with ver := 1 }
     loadable (keys2 2 4 1 1) w hA 2 = true ∧ (symV1 w false 0).fieldsOk w 4 = true ∧ (symV1 w false 0).fit 4 = true) ∧
    (let w := work5 hA hB 0 [4, 0, 0, 16, 0, 0, 0, 0, 16] (List.replicate 32 0)
     let s := keys2 1 1 1 1
     loadable s w hA 1 = true ∧ w.unused 2 = true ∧ w.a ≠ w.b ∧ (symV2 w true w.input).fit 1 = true ∧
      (symV2 w true w.input).fieldsOk w 1 = true ∧ ((symV2 w true w.input).run 1 [7] [7]).isSome = true) := by decide +kernel

/-- TranslateMacAndDerivedCommandsComplete: ECB to ECB; a CMAC of 4 bytes, the least of its range, made and checked; a derived key; the
least and the greatest RANDOM. -/
theorem test_witness_translate :
    let w := work5 hA hB 0 [] (List.replicate 16 0)
    let s := keys2 2 1 1 1
    (w.unused 2 && decide (w.f 48 1 ≤ 2) && decide (w.f 49 1 ≤ 2) && w.z 50 52 && w.z 54 64 && w.fits 16) = true ∧
    loadable s w hA 2 = true ∧ loadable s w hB 1 = true ∧
    (⟨false, false, 0, 0, 0, 0, [], [], w.input, [], true⟩ : Sym).dataOk (algOf s w hA) = true := by decide +kernel
theorem test_witness_mac :
    (let w := work5 hA 0 0 [2, 0, 4] [1]
     (w.unused 1 && (macOf w false w.input).ok && w.fits (macOf w false w.input).len) = true ∧ macFit 2 1 = true ∧
      loadable (keys2 6 1 7 1) w hA 6 = true) ∧
    (let w := work5 hB 0 0 [2, 0, 4] (List.replicate 65 0)
     (w.unused 1 && (macOf w true w.input).ok && w.fits 0) = true ∧ loadable (keys2 6 1 7 1) w hB 7 = true) := by decide +kernel
def derivIn : Bytes := [1, 0, 0, 0, 1, 0, 0, 0, 0x41, 0, 0, 0, 0, 0, 0, 0]
theorem test_witness_derived :
    (derivBlock (derivIn ++ List.replicate 16 0)).isSome = true ∧ isAesAlg 1 = true ∧
    (let w := work5 hA 0 0 [] (derivIn ++ List.replicate 16 0)
     let x := symV2 w true (List.replicate 16 0)
     w.unused 1 = true ∧ loadable (keys2 5 1 1 1) w hA 5 = true ∧ (x.fit 1 && decide (x.mode ≠ 4) && x.fieldsOk w 1) = true) ∧
    (let w := work5 hA 0 0 [2, 0, 4] (derivIn ++ [1])
     ((macOf w false [1]).ok && macFit (macOf w false [1]).alg 1 && w.fits 4) = true) ∧
    (∀ n ∈ [1, 1048576], let w := { work5 0 0 0 (leBytes 4 n) [] with cap := 1048576 }
      (w.unused 0 && decide (1 ≤ w.f 48 4) && decide (w.f 48 4 ≤ 1048576) && w.z 52 64 && decide (w.len = 0) && w.fits (w.f 48 4)) = true) := by
  decide +kernel

/-- QueriesComplete: each query with no input and room for its answer; KEY_LIST of 1 and of 65,536 handles. -/
theorem test_witness_queries :
    ((work5 0 0 0 [] []).unused 0 && (work5 0 0 0 [] []).z 48 64 && (work5 0 0 0 [] []).fits 72) = true ∧
    ((work5 hA 0 0 [] []).unused 1 && (work5 hA 0 0 [] []).fits 48) = true ∧ (keyFind (keys2 1 1 1 1) 5 false hA.toNat).1 = sOk ∧
    (∀ n ∈ [1, 65536], let w := work5 0 0 0 (leBytes 4 0 ++ leBytes 4 n) []
      (w.unused 0 && decide (1 ≤ w.f 52 4) && decide (w.f 52 4 ≤ 65536) && w.z 56 64 && w.fits 8) = true) := by decide +kernel

/-- PinCommandsComplete: the worked PAN of 08 and format 0 in each command; a PIN of 4 and of 12 digits. -/
def pan0 : Bytes := panWorked
theorem test_witness_pin :
    (let w := work5 hA hB 0 [0, 4] (List.replicate 16 0 ++ pan0)
     let s := keys2 11 4 10 1
     (w.unused 2 && transInl w && decide (w.len = 32) && blockOk 0 w.input && panOk true (w.input.drop 16) && w.fits 16) = true ∧
      pairOk 0 4 false = true ∧ loadable s w hA 11 = true ∧ loadable s w hB 10 = true ∧ pinAlg 0 4 = true ∧ pinAlg 4 1 = true) ∧
    (let w := work5 hA hB 0 [0, 4, 0x01, 0x23, 0x45, 0x67, 0x89, 0x01, 0x23, 0x45, 0x12, 0x34, 0xFF, 0xFF, 0xFF, 0xFF]
       (List.replicate 16 0 ++ pan0 ++ List.replicate 16 0)
     let s := keys2 11 4 13 4
     (w.unused 2 && offsetInl w && decide (w.len = 48) && blockOk 0 w.input && panOk true (sliceBytes w.input 16 16) &&
        zeros (w.input.drop 40) && w.fits 0) = true ∧ loadable s w hB 13 = true ∧ isTdesAlg 4 = true) ∧
    (let w := work5 hA hB 0 [0, 9, 0x12, 0x34] (List.replicate 16 0 ++ pan0)
     (w.unused 2 && pvvInl w && decide (w.len = 32) && panOk true (sliceBytes w.input 16 16) && w.fits 0) = true) ∧
    (∀ n ∈ [4, 12], let w := work5 hA 0 0 [0, BitVec.ofNat 8 n] pan0
      (w.unused 1 && pinFmtOk 0 && decide (4 ≤ w.f 49 1) && decide (w.f 49 1 ≤ 12) && w.z 50 64 && decide (w.len = 16) &&
        panOk true w.input && w.fits 8) = true) ∧
    (let w := work5 hA hB 0 [0, 12, 0x01, 0x23, 0x45, 0x67, 0x89, 0x01, 0x23, 0x45] (List.replicate 16 0 ++ pan0 ++ List.replicate 16 0)
     (w.unused 2 && decTableOk w && w.z 58 64 && decide (w.len = 48) && zeros (w.input.drop 40) && w.fits 8) = true) := by decide +kernel

/-- CardAndDukptCommandsComplete and BundlesComplete. -/
def acIn (n : Nat) : Bytes := pan0 ++ List.replicate (n - 16) 0
def ksn0 : Bytes := [1, 2, 3, 4, 5, 6, 7, 0xE0, 0, 1, 0, 0, 0, 0, 0, 0]
theorem test_witness_cards :
    (let w := work5 hA 0 0 [0x25, 0x12, 0x10, 0x1F, 3, 0x12, 0x3F, 0xFF] pan0
     let e := nibblesOf (sliceBytes w.inl 5 3)
     (w.unused 1 && bcd (nibblesOf (sliceBytes w.inl 0 2)) && bcd ((nibblesOf (sliceBytes w.inl 2 2)).take 3) &&
        decide (w.f 51 1 % 16 = 15) && decide (w.f 52 1 = 3) && bcd (e.take 3) && (e.drop 3).all (fun x => decide (x = 15)) && w.z 56 64 &&
        decide (w.len = 16) && panOk true w.input && w.fits 0) = true ∧ loadable (keys2 13 4 1 1) w hA 13 = true) ∧
    (let w := work5 hA 0 0 [0, 0, 1] (acIn 32)
     (w.unused 1 && acInl w 0 && decide (w.len = 32 + w.f 54 2) && panOk true (w.input.take 16) && zeros (sliceBytes w.input 24 8) &&
        w.fits 0) = true ∧ acFit w 4 = true) ∧
    (∀ k ∈ [1, 2], let w := work5 hA 0 0 [0, 0, 1, 1] (acIn 48)
     (w.unused 1 && acInl w k && decide (w.len = 48 + w.f 54 2) && zeros (sliceBytes (sliceBytes w.input 32 16) 14 2) && w.fits 8) = true) ∧
    (let w := work5 hA hB 0 [0, 0, 0] (ksn0 ++ List.replicate 16 0 ++ pan0)
     (w.unused 2 && dukptTransInl w && decide (w.len = 48) && ksnOk 0 (w.input.take 16) && blockOk 0 (sliceBytes w.input 16 16) &&
        panOk true (sliceBytes w.input 32 16) && w.fits 8) = true ∧ pairOk 0 0 false = true ∧ loadable (keys2 5 4 10 4) w hA 5 = true ∧
      loadable (keys2 5 4 10 4) w hB 10 = true ∧ dukptFit 0 0 4 = true) ∧
    (let w := work5 hA 0 0 [0, 0, 1, 4] (ksn0 ++ List.replicate 17 0)
     (w.unused 1 && decide (32 ≤ w.len) && dukptMacInl w 1 && ksnOk 0 (w.input.take 16) && macField (sliceBytes w.input 16 16) 4 &&
        w.fits 0) = true) ∧
    (let w := work5 hA 0 0 [0, 0, 0] (ksn0 ++ List.replicate 24 0)
     (w.unused 1 && dukptInl w && decide (w.f 49 1 ≤ 1) && w.z 51 52 && w.z 53 64 && ksnOk 0 (w.input.take 16) &&
        zeros (sliceBytes w.input 16 16) && w.fits 8) = true) := by decide +kernel
def bundleIn (w1 w2 : Bytes) (n : Nat) : Bytes := fitBytes 16 w1 ++ fitBytes 16 w2 ++ pan0 ++ List.replicate (n - 48) 0
def keys3 (u1 u2 u3 : Nat) : State := keyed [(4096, rec0 u1 4), (4097, rec1 u2 4), (4098, rec2 u3 4)]
theorem test_witness_bundles :
    (let w := work5 hA hB hC [] (bundleIn [0, 0, 1] [0, 0] 80)
     let w1 := stepOf w (sliceBytes w.input 0 16)
     let w2 := stepOf w (sliceBytes w.input 16 16)
     (w.z 48 64 && acInl w1 0 && transInl w2 && decide (w.len = 80 + w1.f 54 2) && panOk true (sliceBytes w.input 32 16) &&
        zeros (sliceBytes w.input 56 8) && blockOk 0 (sliceBytes w.input 64 16) && w.fits 8) = true ∧ pairOk 0 0 false = true ∧
      (bundleLoads w (keys3 13 11 10) [(w.a, 13, acFit w1), (w.b, 11, pinAlg 0), (w.c, 10, pinAlg 0)]).map (fun r => (r.1, r.2.1.length)) =
        some (sOk, 3)) ∧
    (let w := work5 hA hB 0 [] (fitBytes 16 [0, 0, 0] ++ fitBytes 16 [0, 0, 1, 4] ++ ksn0 ++ pan0 ++ List.replicate 33 0)
     let w1 := stepOf w (sliceBytes w.input 0 16)
     let w2 := stepOf w (sliceBytes w.input 16 16)
     (w.unused 2 && w.z 48 64 && decide (96 ≤ w.len) && dukptTransInl w1 && dukptMacInl w2 1 && ksnOk 0 (sliceBytes w.input 32 16) &&
        panOk true (sliceBytes w.input 48 16) && macField (sliceBytes w.input 80 16) (w2.f 51 1) && w.fits 8) = true ∧
      (bundleLoads w (keys3 5 10 1) [(w.a, 5, dukptFit 0 0), (w.b, 10, pinAlg 0), (w.a, 5, dukptFit 0 0)]).map (fun r => r.1) = some sOk) ∧
    (let w := work5 hA hB hC [1] (bundleIn [0, 0, 1] [0, 9] 96)
     let w1 := stepOf w (sliceBytes w.input 0 16)
     let w2 := stepOf w (sliceBytes w.input 16 16)
     (w.z 49 64 && acInl w1 0 && pvvInl w2 && decide (w.len = 96 + w1.f 54 2) && w.fits 0) = true ∧
      (bundleLoads w (keys3 13 11 13) [(w.a, 13, acFit w1), (w.b, 11, pinAlg 0), (w.c, 13, fun g => decide (g = 4))]).map (fun r => r.1) =
        some sOk) := by decide +kernel
/-- A key of owner 5 with a clear body. -/
def withBody (use alg : Nat) (pub : Bytes) : State :=
  let s := keyed [(4096, { rec0 use alg with ext := true })]
  setKs s { s.ks with bodies := [(4096, some ⟨[], pub⟩)] }
/-- The base point of P-256 (FIPS 186-5). -/
def p256G : Bytes := beBytes 32 0x6b17d1f2e12c4247f8bce6e563a440f277037d812deb33a0f4a13945d898c296 ++
  beBytes 32 0x4fe342e2fe1a7f9b8ee7eb4a7c0f9e162bce33576b315ececbb6406837bf51f5
theorem test_p256_base_point : ecPointOk 0x21 p256G = true := by decide +kernel
theorem test_p256_off_curve : ecPointOk 0x21 (p256G.take 63 ++ [0xF4]) = false := by decide +kernel

/-- PublicKeyCommandsComplete: SIGN of a SHA-256 digest on P-256; VERIFY of ML-DSA-44 by handle and by an input key; KEY_AGREE with
the base point; ML-KEM-512; PUBKEY_EXPORT. -/
theorem test_witness_sign :
    (let w := work5 hA 0 0 [] (List.replicate 32 1)
     let s := withBody 8 0x21 p256G
     (w.unused 1 && sigRange w && w.z 54 64 && decide (w.f 52 1 ≤ w.len) && digestOk w 32 && w.fits (signLen 0x21 0)) = true ∧
      (keyCheck s 5 false 0 hA.toNat 8).1 = sOk ∧ sigFit w 0x21 = true) ∧
    (let w := work5 hA 0 0 [4, 0, 0, 0, 0, 0, 0, 0, 0x74, 0x09] (List.replicate 2420 0)
     let s := withBody 9 0x38 (List.replicate 1312 0)
     (w.unused 1 && sigRange w && w.z 54 56 && w.z 60 64 && decide (w.f 56 4 = w.len) && digestOk w 0 && w.fits 0) = true ∧
      loadable s w hA 9 = true ∧ sigFit w 0x38 = true ∧ verifyInputOk 0x38 (pkBody s w).pub (w.input.take (w.f 56 4)) = true) ∧
    (let w := work5 0 0 0 [4, 0, 0, 0, 0, 0, 0x38, 0, 0x74, 0x09, 0, 0, 0x20, 5] (List.replicate 3732 0)
     (w.unused 1 && sigRange w && w.z 55 56 && w.z 62 64 && decide (w.f 60 2 + w.f 56 4 = w.len) && w.fits 0) = true ∧
      sigFit w (w.f 54 1) = true ∧ verifyInputOk 0x38 (w.input.take 1312) ((w.input.drop 1312).take 2420) = true) := by decide +kernel
theorem test_witness_agree :
    (let w := work5 hA 0 0 [64] (attrEnc ++ p256G)
     (w.unused 1 && w.z 50 52 && decide (w.f 52 2 ≤ 1024) && w.z 54 64 && decide (w.len = 32 + w.f 48 2 + w.f 52 2) && w.fits w.createLen) =
       true ∧ (keyCheck (withBody 12 0x21 []) 5 false 0 hA.toNat 12).1 = sOk ∧ peerOk 0x21 ((w.input.drop 32).take 64) = true ∧
      creationCheck (withBody 12 0x21 []) 5 (attrOf w.input) = sOk ∧ (attrOf w.input).replaced = 0) ∧
    (let w := work5 hA 0 0 [] (attrEnc ++ List.replicate 768 0)
     (w.unused 1 && w.z 48 52 && decide (w.f 52 2 ≤ 1024) && w.z 54 64 && w.fits w.createLen) = true ∧ w.len = 32 + kemCtLen 0x30) ∧
    (let w := work5 0 0 0 [0x30] (attrEnc ++ List.replicate 800 0)
     (w.unused 0 && isKem (w.f 48 1) && w.z 49 52 && w.z 54 64 && w.fits (w.createLen + 768) && decide (w.len = 32 + pubLen 0x30 0) &&
        kemKeyOk 0x30 (w.input.drop 32)) = true) ∧
    (let w := work5 hA 0 0 [] []
     (w.unused 1 && w.z 48 64 && decide (w.len = 0) && w.fits (pkBody (withBody 8 0x21 p256G) w).pub.length) = true) := by decide +kernel

/-- Physical facet `p` in service under a role: mapped ACTIVE, its domain powered. -/
def mapF (s : State) (p role : Nat) : State :=
  (((s.poke F.FCT_MAP_VALID 1 p).poke F.FCT_MAP_STATE mapActive p).poke F.FCT_MAP_ROLE role p).poke F.PWR_DOM 0xFFFFFFFF (p / 32)
/-- A public-key operation of owner 5 whose unit has ended with a status. -/
def hxOp (op st : Nat) : HxOp := ⟨5, 9, op, work5 hA 0 0 [] attrEnc, 0x21, 0, 0, 0, 0, true, some st, false, false, [1], [], none⟩
def resume0 (op st : Nat) : State :=
  let s := withRec { jrec0 with opcode := op, parked := true } (mapF (modOwner (keyed []) 5 (fun x => { x with facetCap := 4 })) 0 1)
  setHx { s with jr := { s.jr with resume := [(5, 9)] } } { s.hx with ops := [hxOp op st] }
theorem test_witness_resume :
    ∀ op ∈ [0x0701, 0x0702, 0x0703, 0x0705, 0x0101], let s := resume0 op sOk
      facetFree s 0 1 = true ∧ resumeReady s = some (5, 9) ∧ s.hx.ops.filter (fun x => decide (x.owner = 5) && decide (x.tag = 9)) = [hxOp op sOk] ∧
      (jrRunning (opDone s (hxOp op sOk)) 5 9).isSome = true ∧ creationCheck (opDone s (hxOp op sOk)) 5 (attrOf attrEnc) = sOk := by
  decide +kernel
theorem test_witness_resume_judge :
    let x := { hxOp 0x0702 sOk with judge := some ⟨0, 0x0109, work5 hA 0 0 [] [], []⟩ }
    let s := setHx (resume0 0x0109 sOk) { (resume0 0x0109 sOk).hx with ops := [x] }
    facetFree s 0 1 = true ∧ resumeReady s = some (5, 9) ∧ s.hx.ops.filter (fun x => decide (x.owner = 5) && decide (x.tag = 9)) = [x] := by decide +kernel
theorem test_witness_resume_failed : (resume0 0x0701 sInternal).hx.ops.map (fun x => x.result) = [some sInternal] ∧ sInternal ≠ sOk := by
  decide

/-- AssociationCommandsComplete: an egress MACsec association on port 15, its greatest number, slot 1; a flow of owner 5 that is
re-keyed, withdrawn and read. -/
def flow0 (st0 : Nat) : Flow :=
  { owner := 5, dir := 1, suite := 0, port := 0, desc := List.replicate 64 0, s0 := { FSlot.empty with st := st0 }, s1 := FSlot.empty
    seqNext := 0, relNext := 0, counters := [], frames := 0, cells := 0, withdrawn := false, waiters := [], lastAuth := 0 }
def withFlow (s : State) (f : Flow) : State := setStr s { s.str with flows := [(1, some f)] }
def saDesc : Bytes := List.replicate 32 0 ++ [1] ++ List.replicate 31 0
theorem test_witness_associations :
    (let w := work5 hA 0 0 [0xFF, 0xFF, 0x0F, 0, 1, 0, 15, 1] saDesc
     let s := (keyed [(4096, rec0 1 1)]).poke F.SP_CFG_SIDE 1 15
     (w.unused 1 && decide (w.f 48 4 < 1048576) && decide (w.f 52 1 = 1) && decide (w.f 53 1 = 0) && decide (w.f 54 1 = 15) &&
        decide (w.f 55 1 = 1) && w.z 60 64 && decide (w.len = 64) && w.fits 0 && descOk s 1 0 15 w.input) = true ∧
      s.flow (w.f 48 4) = none ∧ descClash s 1 0 15 w.input = false ∧ (s.owner 5).ports.testBit 15 = true ∧ loadable s w hA 1 = true ∧
      suiteAlg 0 = 1 ∧ s.str.flows.length < 1048576 ∧ flowsHeld s 5 < (s.owner 5).flowQuota) ∧
    (let w := work5 hA 0 0 [1, 0, 0, 0, 0, 0, 0, 1] []
     let s := withFlow (keyed [(4096, rec0 1 1)]) (flow0 2)
     (w.unused 1 && w.z 52 55 && w.z 60 64 && w.fits 0) = true ∧ ownFlow s w = some (flow0 2) ∧ (flow0 2).slotSt 1 < 2 ∧
      (flow0 2).slotSt 1 ≠ 1 ∧ loadable s w hA 1 = true) ∧
    (let w := work5 0 0 0 [1] []
     (w.unused 0 && decide (w.f 48 4 < 1048576) && w.z 52 64 && decide (w.len = 0) && w.fits 128) = true ∧
      (ownFlow (withFlow (keyed []) (flow0 2)) w).isSome = true) := by decide +kernel

/-- OwnerCommandsComplete: commands of owner 0 on owner 5 in each state they take. -/
def work0 (inl input : Bytes) : Work := { work5 0 0 0 inl input with owner := 0 }
def inState (st : Nat) : State := modOwner (keyed []) 5 (fun x => { x with state := st })
theorem test_witness_owner_set :
    let w := work0 ([5, 0, 0, 0, 0, 0, 0, 0] ++ leBytes 8 0) (List.replicate 64 0)
    w.o = 0 ∧ (w.unused 0 && decide (w.f 48 2 = 5) && w.z 50 56 && decide (w.len = 64) && w.fits 0 && setOk (keyed []) 5 0 w.input) = true ∧
    ((keyed []).owner 5).state ≠ oAbsent := by decide +kernel
theorem test_witness_owner_state :
    (let w := work0 [5, 0] []
     (w.unused 0 && decide (w.f 48 2 < 4096) && w.z 50 64 && decide (w.len = 0) && w.fits 0) = true ∧ w.mayTarget = true ∧ w.f 48 2 ≠ 0) ∧
    ((inState oFrozen).owner 5).state = oFrozen ∧ (let s := (inState oSaved).poke F.FOC_NOW_SLO 3660
     (s.owner 5).state = oSaved ∧ (s.owner 5).saveSec + 3660 ≤ s.nowSec) ∧
    (let w := work5 0 0 0 [5, 0] []
     let q := quorum (keyed []) w 0x0140 8 5
     q.st = sOk ∧ q.body = [] ∧ w.mayTarget = true ∧ (q.s.owner 5).state = oActive) ∧
    (let s := modOwner (keyed []) 0 (fun x => { x with policy := List.replicate 16 0 })
     (quorum s (work0 [] []) 0x0141 8 0).st = sOk ∧ ((work0 [] []).unused 0 && (work0 [] []).z 48 64 && (work0 [] []).fits 0) = true) := by
  decide +kernel
/-- OWNER_SAVE: a frozen owner and a member of the ring whose serial is not the device's own: one of two, since serials differ. -/
def saveTo (b : Byte) : State :=
  let s := inState oFrozen
  setRing s { s.ring with table := [(List.replicate 16 b, 3, [1])] }
theorem test_witness_owner_save :
    (∀ b ∈ [(1 : Byte), 2], let w := work0 ([5, 0, 0, 0] ++ List.replicate 8 b) []
      (w.unused 0 && decide (w.f 48 2 < 4096) && w.z 50 52 && w.z 60 64 && decide (w.len = 0) && w.fits (blobLen (saveTo b) 5)) = true ∧
      memberOf (saveTo b) (fun x => decide (sliceBytes x 8 8 = sliceBytes w.inl 4 8)) = some (List.replicate 16 b, 3, [1]) ∧
      (saveTo b).foc.table = [] ∧ (unreleased (saveTo b) 5).length ≤ 32768 ∧ (saveTo b).rngStopped = false) ∧
    (List.replicate 16 (1 : Byte) ≠ Config.serial ∨ List.replicate 16 (2 : Byte) ≠ Config.serial) := by
  refine ⟨by decide +kernel, ?_⟩
  by_cases h : List.replicate 16 (1 : Byte) = Config.serial
  · exact .inr (fun e => absurd (h.trans e.symm) (by decide))
  · exact .inl h

/-- OwnerEventsAndProgramsComplete: a drained reset and erasure, a frozen owner at rest, a restore whose pages are live; program removal,
a change of role that leaves two custody facets, and an owner's own entry on facet 0. -/
theorem test_witness_owner_events :
    resetDrained (inState oResetting) 5 = true ∧ ((inState oResetting).owner 5).erasing = false ∧
    (inState oResetting).ks.sets = [] ∧ frozenIdle (inState oFrozen) 5 = true ∧ (inState oRestoring).ks.await = [] := by decide +kernel
theorem test_witness_programs :
    (let s := setProg (keyed []) (progKey 32773 7) (some (prog0 32773 7 1))
     let w := work5 0 0 0 [7, 0] []
     (quorum s w 0x0C11 7 5).st = sOk ∧ (tget none s.progs (progKey (32768 + w.o) (w.f 48 2))).isSome = true ∧
      (w.unused 0 && w.z 50 64 && w.fits 0) = true) ∧
    (let s := mapF (mapF (mapF (keyed []) 0 2) 1 2) 2 2
     let w := work0 [63, 0] []
     (w.unused 0 && decide (w.f 48 1 < 64) && decide (w.f 49 1 ≤ 2) && w.z 50 64 && decide (w.len = 0) && w.fits 0) = true ∧
      s.wear.removed.contains 63 = false ∧ 2 ≤ custodyAfter s (fun n => decide (n = 63)) 0) ∧
    (let s := withRec jrec0 (setProg (keyed []) (progKey 32773 1) (some (prog0 32773 1 1)))
     (entryFor s 5 0x8000 0).isSome = true ∧ (jrRunning s 5 9).map (fun x => x.2.facet) = some 1) := by decide +kernel
/-! ## Functions, focus and time, queues, entropy and arrays: witnesses -/

/-- FunctionCommandsComplete: H3 with 1,024 VFs shown, a secured session, and stream 64 in the secure state; VF 1,023 bound to an active owner. -/
def port3 : HPort := { HPort.zero with up := true, total := 1024, num := 1024, session := true, ide := [64] }
def fn0 : State := setFn (setHport (keyed []) 3 port3) (3 * 2048 + 1024) { FnSt.zero with owner := 5 }
theorem test_witness_functions :
    (1024 ≤ (fn0.hport 3).total ∧ fn0.fnPresent (fnNum ⟨3, some 1023⟩) = true ∧ (fn0.hport 3).session = true ∧ (fn0.hport 3).flit = true) ∧
    (fn0.fn (3 * 2048 + 1024)).tdi = 0 ∧ (fn0.owner (fn0.fn (3 * 2048 + 1024)).owner).state = oActive ∧ (fn0.hport 3).ide.contains 64 = true ∧
    (let s := setHport fn0 3 { port3 with ideKeys := [0, 1, 2].flatMap (fun k => [(ideKey 64 k false, [1]), (ideKey 64 k true, [1])]) }
     ∀ sub < 3, ∀ tx, tget [] (s.hport 3).ideKeys (ideKey 64 sub tx) ≠ []) ∧
    ({ fn0 with vaux := true }.vaux = true ∧ (State.reset.fnPresent (3 * 2048) = true)) := by decide +kernel

/-- FocusActionsComplete: an armed entry of each type, first of the table, its instant past the floor, while time runs. -/
def focE (typ st : Nat) (params : Bytes) : FEntry := ⟨typ, st, 5, 1000, 0, 0, fitBytes 48 params, 9, []⟩
def focS (x : FEntry) (s : State) : State := setFoc s { s.foc with table := [(4095, some x)], runs := true }
theorem test_witness_arrives (typ : Nat) (params : Bytes) : Arrives (focS (focE typ fArmed params) .reset) 4095 typ (focE typ fArmed params) :=
  ⟨rfl, rfl, rfl, rfl, rfl, Nat.lt_of_lt_of_le (by decide : 0 < 1000) (Nat.le_max_right _ _)⟩
theorem test_witness_focus_actions :
    (let x := focE 1 fArmed (leBytes 4 0x02001000)
     (entryKey (timeAt (focS x (keyed [(4096, recPend true)])) 1000) x) = some 4096) ∧
    (let x := focE 4 fArmed (leBytes 8 1 ++ [0])
     2 ≤ custodyAfter (timeAt (focS x (mapF (mapF (keyed []) 0 2) 1 2)) 1000) (fun k => (leNat (sliceBytes x.params 0 8)).testBit (k + 1)) 0) ∧
    (let s := setProg (keyed []) (heldKey 32773 7) (some (prog0 32773 7 1))
     ∀ id ∈ swapIds [1, 0, 7, 0], (tget none s.progs (heldKey 32773 id)).isSome = true) ∧
    ((timeAt (focS (focE 6 fArmed [5, 0]) (keyed [])) 1000).owner 5).state ≠ oAbsent ∧
    (let s := focS (focE 2 fAdding []) .reset
     (s.fentry 4095).isSome = true ∧ (1000 : Nat) ≤ s.now + mtNs) ∧
    (let s := (focS (focE 2 fDone []) .reset).poke F.FOC_NOW_SLO 1000
     (1000 : Nat) + 1600 * mtNs ≤ s.now) := by decide +kernel

/-- FocusCommandsAndTimeComplete: an EPOCH_SWITCH of the last flow; a cancel two ticks ahead; reads; time sources and what they send. -/
def epochIn : Bytes := leBytes 4 1048575 ++ leBytes 4 1 ++ leBytes 4 1 ++ leBytes 4 1 ++ [3] ++ List.replicate 31 0
theorem test_witness_focus_commands :
    (let w := work5 0 0 0 ([2, 0, 0, 0] ++ leBytes 6 100 ++ leBytes 4 999999999) epochIn
     (w.unused 0 && w.z 49 52 && w.z 62 64 && decide (w.f 58 4 < secNs) && w.fits 4 && paramsOk (keyed []) 5 2 w.input) = true ∧
      flowsOwned (keyed []) 5 w.input = true ∧ (keyed []).now + 2 * mtNs ≤ w.f 52 6 * secNs + w.f 58 4 ∧
      (focusAdd (releaseFacet (keyed []) w) ⟨2, fAdding, 5, 1000, 0, 0, epochIn, 9, []⟩).isSome = true) ∧
    (let w := work0 ([3, 0, 0, 0] ++ leBytes 6 100) (leBytes 8 7 ++ leBytes 2 0xFFFF ++ List.replicate 38 0)
     paramsOk (keyed []) 0 3 w.input = true ∧ cutOk (keyed []) 100 7 0xFFFF = true) ∧
    (let w := work5 0 0 0 [0xFF, 0x0F] []
     let s := focS { focE 2 fArmed [] with instant := 2 * mtNs } (keyed [])
     (w.unused 0 && w.z 50 64 && decide (w.len = 0) && w.fits 64) = true ∧ (s.fentry (w.f 48 2)).isSome = true ∧ s.now + 2 * mtNs ≤ 2 * mtNs ∧
      (entryRemove s 4095).alone = true) := by decide +kernel
theorem test_witness_time :
    (let s := State.reset.poke F.FOC_TCFG_SRC 1
     s.get F.FOC_TCFG_SRC = 1 ∧ s.get F.FOC_TCFG_PTP_PORT = 0 ∧ s.get F.FOC_TCFG_PTP_SUB = 0 ∧ s.get F.FOC_TCFG_PTP_TRANSPORT = 0) ∧
    (State.reset.poke F.FOC_TCFG_SRC 2).get F.FOC_TCFG_SRC = 2 ∧
    (setFoc .reset { State.reset.foc with own := 1 }).foc.own = 1 ∧ (State.reset.poke F.FOC_TCFG_PPS_OUT_EN 1).is F.FOC_TCFG_PPS_OUT_EN = true ∧
    (let m : Bytes := [0xA5, 0x5A, 0x01, 1, 0, 0, 0, 0, 0, 1, 0, 0, 0, 0]
     todOk (m ++ beBytes 2 (checkValue 3 none m)) = true ∧ todOk (m ++ [0, 0]) = false) ∧
    (let s := setRst ((setFoc .reset { State.reset.foc with runs := true }).poke F.FOC_NOW_SLO 1) { State.reset.rst with level := 0 }
     let s := s.poke F.DEV_START_STAGE 8
     s.get F.DEV_START_STAGE = 8 ∧ s.foc.runs = true ∧ s.foc.floor < s.now ∧ s.rst.level = 0 ∧ s.lc.alarms = [] ∧ s.rst.pfail = false) ∧
    State.reset.outOfReach .steward 0x80000 = false ∧ State.reset.isPrimary .steward = true ∧ bitsOf (0xC0000000 : Word) 30 2 = 3 := by
  decide +kernel

/-- QueueCommandsComplete: queue context 3 bound to PF H0 of owner 5 in a started device; indexes at their greatest; each class of an entry. -/
def agent0 : Agent := .fn ⟨0, none⟩
def q0 : State :=
  let s := modOwner (keyed []) 5 (fun x => { x with weight := 1, facetCap := 4 })
  let s := (((s.poke F.DEV_START_STAGE 8).poke F.QP_ID_OWNER 5 3).poke F.QP_CTRL_LOG2_SQ 4 3).poke F.QP_CTRL_LOG2_CQ 4 3
  let s := setRst s { s.rst with accOpen := true, level := 0 }
  { s with jr := { s.jr with queues := [(3, { Queue.zero with bound := true })] } }
def q1 : State := aptOpen (((q0.poke F.QP_CTRL_ENABLE 1 3).poke F.QP_STATUS_RUN 1 3).poke F.QP_SQ_TAIL_TAIL 1 3)
def entry0 (tag : Nat) : Bytes := [1, 8, 2, 0] ++ leBytes 6 tag ++ List.replicate 54 0
theorem test_witness_queue :
    (q0.outOfReach agent0 0x400000 = false ∧ q0.ownsCtx agent0 3 = true ∧ q0.sqSize 3 = 16 ∧
      (q0.get F.QP_SQ_TAIL_TAIL 3 + 16 - q0.get F.QP_AH_AH 3 % 16) % 16 ≤ (15 + 16 - q0.get F.QP_AH_AH 3 % 16) % 16) ∧
    (let s := q0.poke F.QP_CQ_TAIL_TAIL 15 3
     (15 + 16 - s.get F.QP_CQ_HEAD_CH 3) % 16 ≤ (s.get F.QP_CQ_TAIL_TAIL 3 + 16 - s.get F.QP_CQ_HEAD_CH 3) % 16) ∧
    (q0.owner (q0.ctxOwner 3)).state ≠ oStandby ∧ q0.flrOpen 3 = false ∧ q0.is F.QP_CTRL_ENABLE 3 = false ∧ q1.is F.QP_CTRL_ENABLE 3 = true ∧ unposted q1 3 = false := by
  decide +kernel
theorem test_witness_entries :
    (nextQueue q1 = some 3 ∧ q1.redrains (q1.ctxOwner 3) = false ∧ limitTotal q1 = false ∧
      (dmaAccess q1 (q1.ctxFn 3) (q1.sqEntry 3) 64 false).1 = true) ∧
    classify q1 3 0 (entry0 0) = .status sMalformed none ∧ classify q1 3 0 (entry0 9) = .run 0 ∧ limitFor q1 0 = false ∧
    (let s := setJr q0 { q0.jr with queues := [(3, { Queue.zero with bound := true, relDue := true })] }
     (s.queue 3).relDue = true ∧ s.fenced (s.ctxOwner 3) = false) := by decide +kernel

/-- The same: the tag of a completed record with the same submission is answered; that of a recovered record re-presents it. -/
def again0 (st : JState) : JRec := { jrec0 with digest := subDigest (entry0 9), st := st }
theorem test_witness_answer : classify (withRec (again0 .done) q1) 3 0 (entry0 9) = .answer 0 := by
  have h : tagRec (withRec (again0 .done) q1) ((withRec (again0 .done) q1).ctxOwner 3) (subField (entry0 9) 4 6) = some (0, again0 .done) := rfl
  unfold classify
  rw [if_neg (show subField (entry0 9) 4 6 ≠ 0 by decide), h]
  exact if_neg (fun h => h rfl)
theorem test_witness_mismatch : classify (withRec { jrec0 with digest := List.replicate 13 0 } q1) 3 0 (entry0 9) = .status sMalformed (some 0) := by
  have h : tagRec (withRec { jrec0 with digest := List.replicate 13 0 } q1) ((withRec { jrec0 with digest := List.replicate 13 0 } q1).ctxOwner 3) (subField (entry0 9) 4 6) =
    some (0, { jrec0 with digest := List.replicate 13 0 }) := rfl
  have hd : List.replicate 13 (0 : Byte) ≠ subDigest (entry0 9) := fun h =>
    absurd (h ▸ List.length_take_le 12 _ : (List.replicate 13 (0 : Byte)).length ≤ 12) (by decide)
  unfold classify
  rw [if_neg (show subField (entry0 9) 4 6 ≠ 0 by decide), h]
  exact (if_pos hd).trans (if_neg (by decide))
theorem test_witness_recovered_queue : (again0 .recDone).ctx = 3 := rfl
theorem test_witness_recovered : classify (withRec (again0 .recDone) q1) 3 0 (entry0 9) = .recovered 0 := by
  have h : tagRec (withRec (again0 .recDone) q1) ((withRec (again0 .recDone) q1).ctxOwner 3) (subField (entry0 9) 4 6) =
    some (0, again0 .recDone) := rfl
  unfold classify
  rw [if_neg (show subField (entry0 9) 4 6 ≠ 0 by decide), h]
  exact if_neg (fun h => h rfl)

/-- JournalCommandsComplete: a stamped record, a completed one, a ready custody and a ready transaction record, and a done one to post. -/
def readyRec (op : Nat) : JRec := { jrec0 with st := .accepted, facet := 0, opcode := op, sub := [1, 8, 2, 0] ++ List.replicate 60 0 }
theorem test_witness_journal :
    (let s := mapF (withRec (readyRec 0x0101) q1) 0 2
     facetFree s 0 2 = true ∧ (oldestCustody (heads s)).isSome = true) ∧
    (let s := mapF (withRec (readyRec 0x0801) q1) 0 1
     let l := (heads s).filter (fun e => !(isCustody e.2.opcode e.2.sub))
     facetFree s 0 2 = false ∧ facetFree s 0 1 = true ∧ resumeReady (clearDeficits s l) = none ∧
      (drr (5000 * ((clearDeficits s l).own.length + 1)) (clearDeficits s l) l).1.isSome = true) ∧
    (let r := { jrec0 with st := .done, comp := some ⟨sOk, 0, 0, 0, []⟩ }
     let s := withRec r q1
     ((s.ctxRecs 3).find? (fun e => e.2.cq.isNone)).isSome = true ∧ (cqeOf s r).isSome = true ∧
      (s.get F.QP_CQ_TAIL_TAIL 3 + 1) % s.cqSize 3 ≠ s.get F.QP_CQ_HEAD_CH 3 ∧ s.fenced 5 = false ∧ s.dmaStopped (s.ctxFn 3) = false) := by decide +kernel

/-- EntropyCommandsComplete: sources in each state; a block of 512 bits of entropy from three kinds; a stopped source; the steward's unit. -/
def rngS (st : SrcSt) : State := State.reset.setSource 27 ⟨st, 0⟩
def rngOn : State := [0, 1, 16, 17, 18].foldl (fun s n => s.setSource n ⟨.active, 0⟩) .reset
def chunks0 : List Chunk := [⟨0, List.replicate 64 1⟩, ⟨1, List.replicate 64 1⟩, ⟨16, List.replicate 64 1⟩, ⟨17, List.replicate 64 1⟩,
  ⟨18, List.replicate 64 1⟩]
theorem test_witness_entropy :
    ((rngS .active).source 27).st = .active ∧ ((rngS (.testing true)).source 27).st = .testing true ∧
    ((rngS .excluded).source 27).st = .excluded ∧
    (let sum := fun (k : Nat) => ((chunks0.filter (fun x => srcKind x.source.val == k)).length) * kindChunk k
     (∀ x ∈ chunks0, rngOn.srcActive x.source.val = true ∧ x.data.length = 64) ∧ 512 ≤ sum 0 + sum 1 + sum 2 ∧
      320 ≤ sum 0 + sum 1 + sum 2 - max (sum 0) (max (sum 1) (sum 2)) ∧ rngOn.rng.fifo.length + 32 ≤ 16384) ∧
    (testChunks rngOn chunks0).2 = [] ∧ (testChunks rngOn [⟨0, List.replicate 64 0⟩]).2 = [(0, false)] ∧
    (State.reset.poke F.RNG_STATUS_STATE 3).rngStopped = true ∧ State.reset.outOfReach .steward 0x70800 = false ∧
    ({ State.reset with cv := some ⟨0, 1⟩ }.cv.isSome = true) := by decide +kernel

/-- FacetEventsComplete: a block in flight; work in progress; a drained facet; a substitution that can start and one under test. -/
def lensOp0 : LensOp := ⟨0, 1, List.replicate 16 7, 0, 5, .reg 3, 0, 0, 0⟩
theorem test_witness_facet_events :
    ((withF { facet0 with lens := [lensOp0] }).facet 0).lens = [lensOp0] ∧ (cmd0.facet 0).work = .cmd 3 1 ∧ (jrFind cmd0 3 1).isSome = true ∧
    (run0.facet 0).work = .none ∧
    (let s := ((mapF (withF { facet0 with nextRole := 2 }) 0 2).poke F.FCT_MAP_STATE mapDraining 0)
     s.is F.FCT_MAP_VALID 0 = true ∧ s.get F.FCT_MAP_STATE 0 = mapDraining ∧ s.busy 0 = false ∧ s.wear.queue.contains 0 = false ∧
      (s.facet 0).nextRole = 2) ∧
    (let s := (mapF .reset 0 2).poke F.FCT_MAP_STATE mapSpare 71
     let s := { s with wear := { s.wear with queue := [0] } }
     s.wear.sub = none ∧ s.wear.queue = [0] ∧ s.busy 0 = false ∧ s.is F.FCT_MAP_VALID 0 = true ∧ (lowestSpare s).isSome = true) ∧
    ({ State.reset with wear := { State.reset.wear with sub := some ⟨0, 0, 2, 71⟩ } }.wear.sub.isSome = true) := by decide +kernel

/-- HuxelCommandsComplete: array 7 free, with one operation to take of an owner with credit; the same array busy with it. -/
def hxS : State :=
  let s := modOwner (keyed [(4096, rec0 8 0x21)]) 5 (fun x => { x with weight := 1, hxCap := 8, hxDeficit := 1000000000000 })
  let s := (s.poke F.PWR_DOM 0xFFFFFFFF 2).poke F.HX_CFG_QUANTUM 100000
  aptOpen <| setHx s { s.hx with ops := [{ hxOp 0x0701 0 with result := none, used := false, w := work5 hA 0 0 [] (List.replicate 32 1) }] }
theorem test_witness_huxel :
    (hxS.is F.HX_ASTAT_BUSY 7 = false ∧ hxS.is F.HX_ASTAT_OFFLINE 7 = false ∧ hxS.hx.zeroing = [] ∧ hxS.domainOn 79 = true) ∧
    (let r := hxArbiter (1400 * (hxS.own.length + 1)) (hxClear hxS)
     r.1.isSome = true ∧ r.2.marked = [] ∧ r.2.rngStopped = false ∧
      (r.1.bind (fun x => (hxDeliver r.2 x).map (fun y => y.1))) = some sOk ∧ (slotAccess r.2 7 0 false).1 = true) ∧
    (let x := { hxOp 0x0701 0 with array := 8 }
     let s := setHx hxS { hxS.hx with ops := [x] }
     (s.hx.ops.find? (fun x => decide (x.array = 8))) = some x ∧ s.is F.HX_ACTRL_OFFLINE_REQ 7 = false ∧
      (unitWrite s 7 x).1 = true) ∧
    State.reset.outOfReach .steward 0x60000 = false := by decide +kernel
/-! ## Key pages, scrubbing, streams and the ring: witnesses -/

/-- PageCommandsComplete: a page to seal, an export entry with room, an acknowledgement of all of it, a full ring, a wipe without holders,
an import entry, a reload that ends with every group and with one missing. -/
def slotEmpty : PageSlot := ⟨0, 128, 5, 1, 0, 0, 1, [], []⟩
def expS : State :=
  let s := ((keyed [(4096, rec0 1 1)]).poke F.KS_CTRL_EXP_EN 1).poke F.KS_EXP_SIZE_LOG2_SLOTS 4
  setKs s { s.ks with pendExp := [slotEmpty], toSeal := [128], wiping := [4096] }
def reloadS (tree : Tab Bytes) : State :=
  let s := setRst ((State.reset.poke F.DEV_START_STAGE 5).poke F.KS_STATUS_RELOAD 2) { State.reset.rst with padsHold := false }
  setKs s { s.ks with tree := tree }
theorem test_witness_pages :
    (expS.ks.toSeal.contains 128 = true ∧ expS.is F.KS_CTRL_EXP_EN = true ∧ expS.expUsed < expS.expSize ∧ expS.ks.wiping.contains 4096 = true ∧
      keyHeld expS 4096 = false) ∧
    (let s := expS.poke F.KS_EXP_PROD 15
     s.outOfReach .steward 0x50000 = false ∧ (15 + 4294967296 - s.get F.KS_EXP_ACK) % 4294967296 ≤ s.expUsed) ∧
    (expS.poke F.KS_STATUS_EXP_FULL 1).is F.KS_STATUS_EXP_FULL = true ∧
    (let s := ((keyed []).poke F.KS_CTRL_IMP_EN 1).poke F.KS_STATUS_RELOAD 1
     let s := s.poke F.KS_IMP_PROD 1
     s.is F.KS_CTRL_IMP_EN = true ∧ s.get F.KS_STATUS_RELOAD ≠ 0 ∧ s.get F.KS_IMP_PROD ≠ s.get F.KS_IMP_CONS ∧ (importEntry s []).isSome = true) ∧
    ((reloadS []).atStep 5 = true ∧ (reloadS []).get F.KS_STATUS_RELOAD = 2 ∧ groupsMissing (reloadS []) = []) ∧
    (7 ∈ groupsMissing (reloadS [(7, [1])])) := by decide +kernel

/-- ScrubCommandsComplete: the last word of HBM and the first past it; a poisoned record, cached and not. -/
def poisonS (c : Tab (Option CacheEnt)) : State :=
  let s := keyed [(4096, rec0 1 1)]
  setKs s { s.ks with poison := [⟨0x02001000, 4096, 0, 0⟩], cache := c }
theorem test_witness_scrub :
    ((0xBFFFFFFFF : Nat) < 0xC00000000 ∧ hbmEnd = 0xC00000000) ∧
    ((poisonS []).ks.poison.any (fun e => e.index == 4096) = true ∧ cached (poisonS []) 4096 = false ∧ (poisonS []).isMember = false ∧
      ((poisonS []).leaf (pageOf 4096)).gfail = false) ∧
    cached (poisonS [(4096, some ⟨false, false, 0⟩)]) 4096 = true ∧
    (let s := ((poisonS []).poke F.VR_STATE_STATE 2).poke F.VR_STATE_SUCC 1
     let s := s.poke F.VR_VERSION_IN_USE 2
     s.isMember = true ∧ s.hasSucc = true ∧ s.get F.VR_VERSION_IN_USE ≠ 1) := by decide +kernel

/-- FramePathCommandsComplete: ports 0 and 1 paired, port 1 on the sealed side, in the largest breakout; frames of 64 bytes and of the
greatest length, below and above them; an EtherType of each branch. -/
def strS : State :=
  let s := ((State.reset.poke F.SP_CFG_ENABLE 1 0).poke F.SP_CFG_ENABLE 1 1).poke F.SP_CFG_PEER 1 0
  let s := ((s.poke F.SP_CFG_PEER 0 1).poke F.SP_CFG_SIDE 1 1).poke F.SP_CFG_SIDE 0 0
  let s := ((s.poke F.SP_CFG_BREAKOUT 2 0).poke F.SP_CFG_BREAKOUT 2 1).poke F.SP_STATUS_LINK 15 0
  setRst (s.poke F.SP_STATUS_LINK 15 1) { s.rst with begun := false }
def frameOf (typ : Bytes) (n : Nat) : Bytes := List.replicate 12 0 ++ typ ++ List.replicate (n - 14) 0
theorem test_witness_frame_receive :
    (3 < strS.subPorts 0 ∧ strS.rst.level ≠ 1 ∧ strS.paired 0 = true ∧ strS.peer 0 = 1 ∧ strS.linkUp 1 3 = true) ∧
    (64 ≤ (frameOf [8, 0] 60).length + 4 ∧ (frameOf [8, 0] 60).length + 4 ≤ strS.get F.SP_CFG_MAX_FRAME 0 ∧
      (frameOf [8, 0] 59).length + 4 < 64) ∧
    etherType (frameOf [0x88, 0x08] 60) 12 = 0x8808 ∧ etherType (frameOf [0x88, 0x8E] 60) 12 = 0x888E ∧
    ownClock strS 0 3 (frameOf [8, 0] 60) = false ∧ strS.get F.SP_CFG_SIDE 0 = 0 ∧ strS.get F.SP_CFG_SIDE 1 ≠ 0 ∧
    (let o := List.replicate 12 0 ++ [0x88, 0xE5, 0x0C, 0, 0, 0, 0, 1] ++ List.replicate 40 0
     etherType o 12 = 0x88E5 ∧ secTagOk o = true) ∧
    (let s := strS.poke F.SP_SF_UDP_PORT 4789 1
     let o := List.replicate 12 0 ++ [0x86, 0xDD, 0x60, 0, 0, 0, 0, 0, 17, 0] ++ List.replicate 34 0 ++ [0x12, 0xB5] ++ List.replicate 40 0
     sealedAt s 1 o = some 62) := by decide +kernel
def frameAt (st : FStage) : Frame := { frame0 with stage := st, flow := 1 }
def heldS (st : FStage) : State :=
  let s := withFlow (mapF (strS.poke F.SP_STATUS_LINK 7 0) 0 0) (flow0 1)
  setStr s { s.str with frames := [frameAt st], held := [(0, [7])] }
theorem test_witness_frame_path :
    ((heldS .fill).str.frames.filter (fun x => x.flow == 1 && x.stage == .fill) ≠ [] ∧ (heldS .fill).str.cache.contains 1 = false) ∧
    (((heldS .ready).str.frames.find? (fun x => x.stage == .ready)).isSome = true ∧ (leastLoaded (heldS .ready)).isSome = true) ∧
    ((heldS .mark).flow 1 = some (flow0 1) ∧ ((flow0 1).slot 0).st ≠ 0 ∧ ((flow0 1).slot 0).mark ≤ 0 + 2048) ∧
    (let s := { setStr strS { strS.str with tx := [(3, [⟨[1, 2], none⟩])] } with mainPower := true }
     s.txq 0 3 = [⟨[1, 2], none⟩] ∧ s.dark 0 = false ∧ s.rst.level ≠ 1) ∧
    ((heldS .ready).get F.SP_STATUS_LINK 0).testBit 3 = false := by decide +kernel

/-- The same, the context's set: the number of ways is an open value, at least one. -/
theorem test_witness_context_fill : (([] : List Nat).filter (fun j => cacheSet j == cacheSet 1)).length < cacheWays :=
  Nat.lt_of_lt_of_le Nat.zero_lt_one (Nat.le_max_left _ _)

/-- StreamEventsComplete: facet 0 holds a frame and lags; its last episode ended before now, or within 1,600 ticks. -/
theorem test_witness_stream_events :
    (heldS (.facet 0)).heldBy 0 ≠ [] ∧ (heldS (.facet 0)).str.lagging.contains 0 = false ∧
    (tget 0 (heldS (.facet 0)).str.lagEnd 0 = 0) ∧
    (let s := (heldS (.facet 0)).put64 F.DEV_MTICK_LO 5
     tget 0 s.str.lagEnd 0 < s.mtick) ∧
    (let s := setStr (heldS (.facet 0)) { (heldS (.facet 0)).str with lagEnd := [(0, 9)] }
     tget 0 s.str.lagEnd 0 ≠ 0 ∧ s.mtick ≤ tget 0 s.str.lagEnd 0) := by decide +kernel

/-- RingMessagesComplete: a frame of node 3 for this node, with the next sequence number, on an authenticated link. -/
def rhead0 : RHead := ⟨0, 4, true, 3, 0, 1⟩
def ringS : State :=
  let s := (State.reset.poke F.VR_STATE_STATE 2).poke F.VR_STATE_SUCC 3
  setRing s { s.ring with links := [(0, { RLink.zero with auth := true, rxSeq := 4 })], holder := 4 }
theorem test_witness_ring_messages :
    (ringS.rlink 0).auth = true ∧ rhead0.good = true ∧ rhead0.seq = (ringS.rlink rhead0.port.val).rxSeq ∧ rhead0.src.val ≠ ringS.nodeId ∧
    rhead0.dst.val = ringS.nodeId := by decide +kernel

/-- RingMessageEffects: the halves of the mirror area as each message meets them. -/
def halfS (h0 h1 : Half) : State := setRing ringS { ringS.ring with h0 := h0, h1 := h1 }
def halfOf (sealed_ : Bool) : Half := { Half.zero with home := some 3, src := 3, sealed_ := sealed_, epoch := 7 }
theorem test_witness_ring_effects :
    (ringS.ringState = 2 ∧ ringS.rst.pfail = false ∧ ringS.ring.holder = 3 + 1) ∧
    halvesOf (halfS (halfOf true) .zero) (fun h => h.sealed_ && decide (h.src = 3) && decide (h.home = some 3)) = [0] ∧
    halvesOf (halfS (halfOf false) .zero) (fun h => decide (h.src = 3) && decide (h.home = some 3) && !h.sealed_) = [0] ∧
    halvesOf (halfS .zero .zero) (fun h => decide (h.src = 3) && decide (h.home = some 3)) = [] ∧
    [0, 1].find? (fun k => ((halfS (halfOf true) .zero).half k).home.isNone) = some 1 ∧
    (let s := (ringS.poke F.VR_COPY_TARGET 3).poke F.VR_COPY_STATE 2
     s.get F.VR_COPY_TARGET = 3 ∧ s.get F.VR_COPY_STATE = 2 ∧ s.ring.copySet = 0 ∧
      holderOf (setRing s { s.ring with holder := 0 }) s.nodeId = 0) ∧
    (ownerHome ringS 5 1).nodeId = ringS.nodeId := by decide +kernel

/-- RingEventsComplete: a lane and a port in each state; the lease, the mirror and the timers. -/
def tblock0 : TimeBlock := ⟨0, 0, 3, 2, 0, 0, 0, 0, 0, 0, true⟩
theorem test_witness_ring_events :
    (portUp ringS 0 = false ∧ ringS.is F.VR_LINK_UP 0 = false ∧ (ringS.rlink 1).auth = false) ∧
    (let s := setRing ringS { ringS.ring with lanes := [0, 1, 2, 3].map (fun k => (k, { Lane.zero with locked := true, node := 3 })) }
     let s := s.poke F.VR_LINK_UP 1 0
     portUp s 0 = true ∧ s.is F.VR_LINK_UP 0 = true ∧ (s.lane 0 0).node < 16 ∧ (s.lane tblock0.port tblock0.lane).locked = true) ∧
    (let s := (ringS.poke F.VR_LINK_UP 1 1).poke F.VR_LINK_MIRROR 2
     let s := setRing s { s.ring with table := [([9], 3, [])] }
     s.is F.VR_LINK_UP 1 = true ∧ s.mirror = 2 ∧ s.get F.DEV_START_STAGE ≠ 4 ∧ s.ringState ≠ 3 ∧ (memberOf s (fun x => decide (x = [9]))).isSome = true) ∧
    ((ringS.rlink 0).txSeq < 1 ∧ (ringS.rlink 0).rekeyAt = none) ∧
    (tblock0.ok = true ∧ ringS.ringState ≠ 0 ∧ tblock0.node.val ≠ ringS.nodeId ∧ ringS.is F.FOC_TSTAT_RING_SRC = false ∧
      before3 (timeRank ringS.foc.own) (ringS.get F.FOC_TCFG_PRIORITY) ringS.nodeId (timeRank 2) 0 3 = false ∧
      sourceNode (setFoc ringS { ringS.foc with src := [(0, some (3, 2, 0))] }) = 3) ∧
    (setRing ringS { ringS.ring with leased := true, granted := 4 }).ring.granted ≠ 0 ∧ ringS.hasSucc = true ∧
    (∀ x ∈ spacePages ringS 16, (ringS.leaf x).pend = false ∧ ringS.ks.toSeal.contains x = false) ∧
    ((State.reset.poke F.VR_LINK_MIRROR 1 0).mirror = 1 ∧ (State.reset.poke F.VR_LINK_MIRROR 3 0).mirror = 3) ∧
    ((0x80000000 : Word).getLsbD 31 = true ∧ State.reset.outOfReach .steward 0xA0000 = false) := by decide +kernel
/-- The same, COPY_LINK_TIMEOUT: port 0 down and port 1 up; the abort leaves port 1's link. -/
theorem test_witness_copy_timeout :
    (let s := setRing State.reset { State.reset.ring with links := [(1, { RLink.zero with auth := true })] }
     (s.rlink 0).auth = false ∧ (s.rlink 1).auth = true ∧ (copyAbort s false).rlink 1 = s.rlink 1) := by decide +kernel
/-! ## Apertures, router, custody, Loupe, resets, starts and power: witnesses -/

/-- ApertureAndArbiterCommandsComplete: the steward as the primary; a staged set that applies and, 15 R388's overlap of descriptors 0 and 4,
one that does not; an arbiter with a holder and a waiting request; an idle one. -/
def aptBad : State := State.reset.setReg 0x201020 0 |>.setReg 0x201024 0xBA303C00 |>.setReg 0x201000 0 |>.setReg 0x201004 0xBA303C00
def arbS : State := State.reset.setArb 7 ⟨some 3, 0, [⟨9, 1, none⟩], 0⟩
theorem test_witness_apertures :
    (State.reset.outOfReach .steward 0x200000 = false ∧ State.reset.isPrimary .steward = true) ∧
    (aptApply .reset 11).1 = true ∧ (aptApply aptBad 4).1 = false ∧
    ((aptApply aptBad 4).2.get F.APT_STATUS_DESC_A 4 = 0 ∧ (aptApply aptBad 4).2.get F.APT_STATUS_DESC_B 4 = 4) ∧
    (arbS.arbiter 7).holder = some 3 ∧ arbOldest ((arbArrive arbS 7 []).arbiter 7) (9 : BitVec 10).toNat = some ⟨9, 1, none⟩ ∧
    (State.reset.arbiter 0).holder = none := by decide +kernel

/-- 15 Table 15.9 PENDING; 15 R391 to R393: a facet's copy and an array's slot with the descriptors of reset are refused. -/
theorem test_apertures_pending : (aptBad.shown 0x201100).getLsbD 28 = true ∧ (State.reset.shown 0x201100).getLsbD 28 = false ∧
    (hostAccess .reset 0 0 0x1000 8 true).1 = false ∧ (hostAccess .reset 0 0 0x1000 8 true).2.get F.APT_STATUS_DENIED 8 = 1 ∧
    (slotAccess .reset 7 0 false).2.get F.APT_DINFO_MASTER 6 = 0x97 := by decide +kernel

/-- RouterAndRecorderCommandsComplete: a held source; the last target with an offer, a withdrawn one, and a stack; the priority table good and
not; a record in the buffer and one that is nowhere. -/
def evrS (offer : Tab Nat) (wd : List Nat) (claims : Tab (List Nat)) : State :=
  { State.reset with evr := { State.reset.evr with offer := offer, withdrawn := wd, claims := claims } }
def prioS (w : Word) : State := State.reset.setReg 0x400C w
theorem prioS_bytes (w : Word) : (prioS w).prioBytes = State.reset.prioBytes := by
  unfold State.prioBytes
  exact congrArg (fun f => (List.range 512).flatMap f) (funext fun k => by rw [prioS, setReg_reg_other _ _ _ _ (by omega)])
theorem prioS_cv (w : Word) : (prioS w).get F.EVR_PRIO_CV = w.toNat := by
  have e : (prioS w).reg 0x400C = w := tget_tset_same _ _ _ _
  show ((prioS w).reg 0x400C).toNat / 2 ^ 0 % 2 ^ 32 = w.toNat
  rw [e]
  have := w.isLt
  omega
theorem prioGood_of (s : State) (c v : Nat) (hc : crc32c 0x4800 s.prioBytes = c) (hv : s.get F.EVR_PRIO_CV = v) :
    s.prioGood = decide (c = v) := by
  subst hc
  subst hv
  rfl
/-- The same, the priority table's check: it passes with one check value, and fails with any other. -/
theorem test_witness_prio : ∃ c : Word, (prioS c).prioGood = true ∧ ∀ w, w ≠ c → (prioS w).prioGood = false := by
  obtain ⟨n, hn⟩ : ∃ n, crc32c 0x4800 State.reset.prioBytes = n := ⟨_, rfl⟩
  have lt : n < 2 ^ 32 := hn ▸ crc32c_lt 0x4800 State.reset.prioBytes
  have good : ∀ w, (prioS w).prioGood = decide (n = w.toNat) := fun w =>
    prioGood_of _ _ _ ((congrArg (crc32c 0x4800) (prioS_bytes w)).trans hn) (prioS_cv w)
  have self : (BitVec.ofNat 32 n).toNat = n := by rw [BitVec.toNat_ofNat, Nat.mod_eq_of_lt lt]
  refine ⟨BitVec.ofNat 32 n, by rw [good, self, decide_eq_true rfl], fun w hw => ?_⟩
  rw [good]
  exact decide_eq_false fun e => hw (BitVec.eq_of_toNat_eq (by rw [self, ← e]))
theorem test_witness_router :
    (({ State.reset with evr := { State.reset.evr with held := [2047] } }.evr.held.any (fun x => decide (x / 32 = 63))) = true) ∧
    (State.reset.outOfReach .psc 0x6000 = false ∧ evOwner 5 .psc = true ∧ tget 0 (evrS [(5, 2047)] [] []).evr.offer 5 = 2046 + 1) ∧
    (tget 0 (evrS [] [5] []).evr.offer 5 = 0 ∧ (evrS [] [5] []).evr.withdrawn.contains 5 = true ∧
      State.reset.evr.withdrawn.contains 5 = false ∧ tget 0 State.reset.evr.offer 5 = 0) ∧
    ((evrS [] [] [(5, [2046, 3])]).evStack 5 = 2046 :: [3] ∧ ((evrS [] [] [(5, [3])]).evStack 5).head? ≠ some 2047) ∧
    (State.reset.outOfReach .steward 0x4000 = false ∧ State.reset.isPrimary .steward = true ∧ State.reset.outOfReach .steward 0x8000 = false) ∧
    (State.reset.poke F.EVR_CTRL_PRIO_EN 1).is F.EVR_CTRL_PRIO_EN = true ∧
    (let s := { State.reset with mainPower := true }
     (logFind (event s 2 1 2) 1).isSome = true ∧ logFind .reset 18446744073709551615 = none) := by
  decide +kernel

/-- LifeCycleAndTamperCommandsComplete: stage 8 in Test and in Production; a permitted transition; programming to each target; sensors of and
outside the erase class; a sensor without power; a cell. -/
def lc1 : State := ((State.reset.poke F.DEV_START_STAGE 8).poke F.LC_STATE_STATE 1)
theorem test_witness_life_cycle :
    (let t := lc1.poke F.LC_CMD_TARGET (bitsOf 0xB0000000 28 2)
     lc1.outOfReach .steward 0x2000 = false ∧ (0xB0000000 : Word).getLsbD 31 = true ∧ t.is F.LC_CMD_BUSY = false ∧ t.lcState = 1 ∧
      t.get F.DEV_START_STAGE = 8) ∧
    (lcPermitted lc1.lcState 3 = true ∧ lcPermitted lc1.lcState 2 = true ∧ lc1.counterSpent = false ∧ lc1.get F.LC_STATE_TOKEN_FAILS < 3) ∧
    (∀ n, n < 4 → ({ lc1 with lc := { lc1.lc with prog := some n } }).lc.prog = some n) ∧
    (let s := { lc1 with mainPower := true }
     s.mainPower = true ∧ s.lc.alarms.contains 7 = false ∧ s.sensorOff 7 = false ∧ s.sensorOff 0 = false ∧
      s.eraseClass 0 = true ∧ (s.poke F.TMP_CFG_ERASE 0).eraseClass 7 = false) ∧
    (let s := { lc1 with mainPower := false, vaux := false }
     s.mainPower = false ∧ s.vaux = false) ∧
    ((State.reset.get F.TMP_STATUS_CELL_LOW).testBit 0 = false ∧ (State.reset.get F.TMP_STATUS_CELL_LOW).testBit 1 = false) := by
  decide +kernel

/-- LoupeCommandsComplete: main power on; Test, Production with rights in force and without; an address of each kind of access. -/
def loupeT : State := { lc1 with mainPower := true }
def loupeP (rights : Nat) : State := (((loupeT.poke F.LC_STATE_STATE 2).poke F.LC_DEBUG_IN_FORCE 1).poke F.LC_DEBUG_RIGHTS rights)
theorem test_witness_loupe :
    (loupeT.mainPower = true ∧ (loupeOut (loupeLeave loupeT) 0x41 []).is F.LC_CMD_BUSY = false ∧
      (loupeOut (loupeLeave (loupeT.poke F.LC_CMD_BUSY 1)) 0x41 []).is F.LC_CMD_BUSY = true) ∧
    ((loupeLeave loupeT).lcState ≠ 2 ∧ (loupeLeave (loupeP 0)).lcState = 2 ∧ (loupeOut (loupeLeave (loupeP 0)) 0x43 []).lcState = 2) ∧
    ((loupeLeave (loupeP 0)).right 0 = false ∧ (loupeLeave (loupeP 0)).right 2 = false) ∧
    (let t := loupeLeave (loupeP 1)
     let t := { t with apt := { t.apt with active := [(0, some ⟨0, 0xDA2000B8⟩)] } }
     t.right 0 = true ∧ place (t.right 0) true 0x1000000000 8 = .glob 0 0 ∧ (aptCause t 0 0 8 0xB8 (t.right 0) true false).1 = 0 ∧
      (aptCause t 0 0 8 0xB8 (t.right 0) false false).1 = 0) ∧
    (let t := loupeOut (loupeLeave (loupeP 12)) 0x45 []
     haltRight t 0 = 2 ∧ t.right (haltRight t 0) = true ∧ t.right (haltRight t 0 + 1) = true) ∧
    (let t := loupeOut (loupeLeave (loupeP 3)) 0x45 []
     haltRight t 72 = 0 ∧ t.right (haltRight t 72) = true ∧ t.right (haltRight t 0) = false) := by decide +kernel

/-- ResetCommandsComplete: each source and level with its guards. -/
def rstS (level : Nat) (begun : Bool) : State := setRst .reset { State.reset.rst with level := level, begun := begun, padsHold := false }
theorem test_witness_resets :
    (State.reset.rst.pfail = false ∧ (setRst .reset { State.reset.rst with pfail := true }).rst.pfail = true) ∧
    ((State.reset.poke F.RST_CTRL_PERST0 1).get F.RST_CTRL_PERST0 = 1 ∧ (State.reset.poke F.RST_CTRL_PERST0 2).get F.RST_CTRL_PERST0 = 2) ∧
    (5 ≤ lc1.get F.DEV_START_STAGE) ∧ (setRing .reset { State.reset.ring with fenceReset := true }).ring.fenceReset = true ∧
    (State.reset.outOfReach .steward 0x1000 = false ∧ State.reset.isPrimary .steward = true) ∧
    (∀ l, l < 4 → (rstS l false).rst.level = l ∧ (rstS l false).rst.begun = false ∧ (rstS l false).rst.pfail = false) ∧
    (State.reset.rst.padsHold = true ∧ State.reset.vaux = true) := by decide +kernel
/-- The same, S_RESET: the state that the reset leaves meets the guards of both branches. -/
theorem test_witness_s_reset :
    (let s := { rstS 2 false with lc := { State.reset.lc with loupeHold := true } }
     let t := resetDie 1 true (beforeReset2 (decide (s.rst.src ≠ 5)) (decide (s.rst.src ≠ 4) && !s.rst.noFlush) s)
     t.lc.loupeHold = true) ∧
    (let s := rstS 2 false
     let t := resetDie 1 true (beforeReset2 (decide (s.rst.src ≠ 5)) (decide (s.rst.src ≠ 4) && !s.rst.noFlush) s)
     t.lc.loupeHold = false ∧ t.lc.alarms = [] ∧ t.lcState ≠ 3 ∧ t.counterSpent = false) := by decide +kernel
/-- The same, P_RESET: pads held, and not. -/
theorem test_witness_p_reset :
    (let s := setRst (rstS 3 false) { (rstS 3 false).rst with padsHold := true }
     (resetDie 2 true (beforeReset2 false false s)).rst.padsHold = true) ∧
    (resetDie 2 true (beforeReset2 false false (rstS 3 false))).rst.padsHold = false := by decide +kernel

/-- StartCommandsComplete: a start at each step. -/
def stepS (n : Nat) : State := setRst (State.reset.poke F.DEV_START_STAGE n) { State.reset.rst with padsHold := false }
theorem test_witness_start_1 :
    (stepS 1).atStep 1 = true ∧ (stepS 1).get F.DEV_START_FAIL ≠ 12 ∧ lcDecode (stepS 1).lc.copies = (2, false, none, 0) ∧
    (stepS 1).lc.alarms = [] ∧ (stepS 1).get F.TMP_OTP_COUNT_PENDING = 0 ∧
    (let s := stepS 1
     let clk := s.get F.STRAP_CAPTURE_CLKMODE
     let t := (((s.poke F.LC_STATE_STATE 2).poke F.LC_STATE_FORCED 0).poke F.LC_STATE_INTERRUPTED 0).poke F.LC_STATE_DISAGREE 0
     let u := t.poke F.CLK_STATUS_MODE clk
     let c := u.poke F.TMP_OTP_COUNT_COUNT (min 1024 (u.get F.TMP_OTP_COUNT_COUNT))
     let v := (c.poke F.TMP_OTP_COUNT_PENDING 0).poke F.TMP_STATUS_HOLD 0
     clk ≠ 3 ∧ t.get F.STRAP_CAPTURE_CLKMODE = clk ∧ u.get F.TMP_OTP_COUNT_PENDING = 0 ∧ u.lc.alarms = [] ∧
      (c.poke F.TMP_OTP_COUNT_PENDING 0).get F.TMP_OTP_COUNT_COUNT < 960 ∧ v.counterSpent = false) := by decide +kernel
theorem test_witness_start_2 :
    ((stepS 2).atStep 2 = true ∧ (stepS 2).get F.DEV_START_FAIL ≠ 8 ∧ (stepS 2).is F.CLK_STATUS_LOCK = false ∧ (stepS 2).rst.pllTries < 2) ∧
    (let s := setRst (stepS 2) { (stepS 2).rst with pllTries := 2 }
     2 ≤ s.rst.pllTries) ∧
    ((stepS 8).poke F.CLK_STATUS_LOCK 1).is F.CLK_STATUS_LOCK = true ∧ (stepS 3).atStep 3 = true ∧
    (let s := (stepS 4).poke F.LC_STATE_STATE 2
     s.loads = true ∧ s.is F.DEV_START_RECOVERY = false ∧ s.get F.STRAP_CAPTURE_BOOTSRC = 0 ∧ s.rst.imageBuf = [] ∧
      (s.poke F.STRAP_CAPTURE_BOOTSRC 1).get F.STRAP_CAPTURE_BOOTSRC = 1 ∧ (s.poke F.DEV_START_RECOVERY 1).is F.DEV_START_RECOVERY = true) ∧
    ((arraysTested [] (stepS 6)).rst.ringEnable && decide ((arraysTested [] (stepS 6)).ring.table ≠ [])) = false := by decide +kernel
/-- The same, step 5: a share whose check value agrees, a tree with a page, and no page. -/
def share5 : State := { stepS 5 with sec := { (stepS 5).sec with share := some [1] } }
def formed5 : State := formKeys share5
def kek5 (v : Nat) : State := setKs share5 { share5.ks with
  kekCheck := v, tree := [(7, [1])], roots := (⟨treeRoot [(7, [1])] 0, 1, 1, v⟩, RootSlot.zero) }
theorem test_witness_start_5 :
    (share5.atStep 5 = true ∧ share5.get F.KS_STATUS_RELOAD = 0 ∧ share5.sec.share.isSome = true ∧
      [(7, ([1] : Bytes))].any (fun e => decide (e.1 < 65536)) = true ∧ share5.ks.tree.any (fun e => decide (e.1 < 65536)) = false) := by
  decide +kernel
theorem test_witness_root (v : Nat) : (kek5 v).ks.tree = [(7, [1])] ∧ (rootLast (kek5 v).ks.roots).digest = treeRoot (kek5 v).ks.tree 0 :=
  ⟨rfl, rfl⟩
theorem kekCheckOf_sec (s t : State) (h : s.sec = t.sec) : kekCheckOf s = kekCheckOf t := by
  unfold kekCheckOf deviceKek
  rw [h]
theorem test_witness_kek (v : Nat) :
    kekCheckOf { kek5 v with sec := formed5.sec } = kekCheckOf formed5 ∧ (kek5 v).ks.kekCheck = v := ⟨kekCheckOf_sec _ _ rfl, rfl⟩
theorem test_witness_start_7 : (stepS 7).atStep 7 = true := by decide +kernel

/-- PowerCommandsComplete: power good at stage 8 and at stage 6; a power-fail sequence; VAUX lost; a trained domain of H3. -/
theorem test_witness_power :
    (loupeT.mainPower = true ∧ 7 ≤ (loupeT.put F.PWR_STATUS_PFAIL_PIN 1).stage ∧ ((stepS 6).put F.PWR_STATUS_PFAIL_PIN 1).stage < 7) ∧
    (setRst loupeT { loupeT.rst with pfail := true }).rst.pfail = true ∧ loupeT.get F.DEV_START_STAGE = 8 ∧ loupeT.vaux = true ∧
    ({ loupeT with vaux := false }.vaux = false) ∧
    ((setDomain .reset 99 true).domainOn (96 + 3) = true ∧ ((setDomain .reset 99 true).hport 3).up = false) := by decide +kernel

/-- PeriscopeBusCommandsComplete: VAUX up; SMBus mode at its static address; I3C mode with a dynamic address; an alert of target 5. -/
def pscI : State := i3cEnter .reset 0x55
theorem test_witness_periscope_bus :
    (State.reset.vaux = true ∧ State.reset.i3c = false ∧ (BitVec.ofNat 7 (State.reset.get F.PSC_STATUS_STATIC_ADDR)).toNat =
      State.reset.get F.PSC_STATUS_STATIC_ADDR) ∧
    (pscI.vaux = true ∧ pscI.i3c = true ∧ (0x55 : BitVec 7).toNat = pscI.dynAddr) ∧
    ((⟨true, 1088, 3⟩ : Packet).pecOk = true ∧ (⟨true, 1088, 3⟩ : Packet).size ≤ 1088 ∧ (⟨true, 1088, 3⟩ : Packet).others < 4) ∧
    ((0x7E : BitVec 8) ∈ State.reset.typesServed) ∧
    ((State.reset.poke F.PSC_CFG_ALERT_EN 1).is F.PSC_CFG_ALERT_EN = true ∧ State.reset.sensorHeld 4 = true ∧ State.reset.sensorHeld 8 = true ∧
      loupeT.sensorHeld 10 = true) ∧
    tget 0 (evrS [(5, 2047)] [] []).evr.offer 5 = 2046 + 1 ∧
    (setPsc .reset { State.reset.psc with notify := some (2046, 2) }).psc.notify = some (2046, 2) ∧
    (let s := setPsc .reset { State.reset.psc with alertN := true }
     s.psc.alertN = true ∧ s.i3c = false) := by decide +kernel

/-- PeriscopeVendorCommandsComplete: a head of each body length; the last octets of each region; stages before and after step 4. -/
def headOf (n : BitVec 16) : VendorHead := ⟨⟨true, 1088, 3⟩, 1, 7, 0, 0, n⟩
theorem test_witness_head (n : BitVec 16) : (headOf n).pkt.pecOk = true ∧ (headOf n).pkt.size ≤ 1088 ∧ (headOf n).pkt.others < 4 ∧
    (headOf n).version = 1 ∧ (headOf n).flags = 0 ∧ (headOf n).status = 0 ∧ (headOf n).bodyLen = n :=
  ⟨rfl, Nat.le_refl 1088, Nat.le_refl 4, rfl, rfl, rfl, rfl⟩
theorem test_witness_periscope_vendor :
    ((0xFFFFF : BitVec 32).toNat + (1 : BitVec 32).toNat ≤ regionSize 0 ∧ (0x1FFC00 : BitVec 32).toNat + (1024 : BitVec 32).toNat ≤ regionSize 1 ∧
      (0x7FFFFF : BitVec 32).toNat + (1 : BitVec 32).toNat ≤ regionSize 2) ∧
    (loupeT.mainUp = true ∧ (loupeT.poke F.PSC_CFG_RESET_EN 1).is F.PSC_CFG_RESET_EN = true ∧
      (loupeT.poke F.PSC_CFG_RESET_EN 0).is F.PSC_CFG_RESET_EN = false ∧ State.reset.mainUp = false) ∧
    (loupeT.is F.LC_CMD_BUSY = false ∧ (loupeT.poke F.LC_CMD_BUSY 1).is F.LC_CMD_BUSY = true ∧ (List.replicate 32 (0 : Byte)).length = 32) ∧
    ((headOf 9).bodyLen.toNat = 8 + [(0 : Byte)].length ∧ (0 : BitVec 32).toNat = loupeT.lc.certBuf.length ∧
      (1 : BitVec 32).toNat ≠ loupeT.lc.certBuf.length) ∧
    (let s := { (stepS 4).poke F.LC_STATE_STATE 2 with mainPower := true }
     let s := s.poke F.STRAP_CAPTURE_BOOTSRC 2
     s.mainUp = true ∧ s.loads = true ∧ s.get F.STRAP_CAPTURE_BOOTSRC = 2 ∧ (0 : BitVec 32).toNat = s.rst.imageBuf.length) ∧
    ((evrS [] [] [(5, [2046])]).evStack 5 = (2046 : BitVec 16).toNat :: [] ∧ (loupeT.evStack 5).head? ≠ some 2046) := by decide +kernel

theorem test_witness_body_most : (headOf 1032).bodyLen.toNat = 8 + (List.replicate 1024 (0 : Byte)).length := by
  rw [List.length_replicate]
  rfl

/-- RegisterCommandsComplete: the last offset of the BAR and the first past it; a LO register that latches; a latched copy; a register that
is neither; a claim register that the clauses leave to EVR_CLAIM_READ. -/
theorem test_witness_registers :
    (State.reset.mayRead .steward 0xFFFFFC = true ∧ (0xFFFFFC : Nat) < 16777216 ∧ State.reset.mayRead (.fn ⟨0, some 3⟩) 0 = false) ∧
    (∀ t, ¬ (0xFFFFFC = 0x6000 + 256 * t + 4 ∧ t < 6)) ∧
    (latchOf (F.DEV_MTICK_LO.at 0 0) ≠ [] ∧ latchOf 0xFFFFF8 = [] ∧ F.DEV_MTICK_LO.at 0 0 % 8 = 0) ∧
    (let s := { State.reset with latches := [(latchKey .steward 4, some 9)] }
     tget none s.latches (latchKey .steward 4) = some 9) ∧
    tget none State.reset.latches (latchKey .steward 4) = none ∧
    (State.reset.outOfReach .steward 0xFFFFF8 = false ∧ State.reset.outOfReach .steward 0x100000 = false ∧ State.reset.isPrimary .steward = true) ∧
    (loupeT.outOfReach (.fn ⟨0, none⟩) 0 = false) := by
  refine ⟨by decide +kernel, fun t h => ?_, by decide +kernel, by decide +kernel, by decide +kernel, by decide +kernel, by decide +kernel⟩
  omega

/-! ## The whole machine: witnesses -/

/-- StepTakesTheFrontCommand: a queue with a command, and none. -/
theorem test_witness_step : ({ State.reset with pending := [.cReset true] } : State).pending = .cReset true :: [] ∧ State.reset.pending = [] :=
  ⟨rfl, rfl⟩
/-- RouterInvariantKept: source 1,984 latched, assigned to the steward and offered to it, over an empty stack; a queue of router commands. -/
def offeredS (q : List Instr) : State := { State.reset.setReg 0x57C0 1 with
  evr := { State.reset.evr with latched := [1984], assigned := [(1984, 1)], offer := [(0, 1985)] }
  pending := q }
theorem test_witness_router_inv (q : List Instr) : RouterInv (offeredS q) where
  table := (by decide +kernel : twf 0 (offeredS []).evr.assigned = true)
  offered := by
    intro t n _ h
    match t with
    | 0 =>
      have e : n = 1984 := (Nat.succ.inj (h : 1984 + 1 = n + 1)).symm
      subst e
      exact (by decide +kernel : (offeredS []).evPending 1984 = true ∧ tget 0 (offeredS []).evr.assigned 1984 = 1)
    | k + 1 => exact Nat.noConfusion (h : 0 = n + 1)
  nested := by
    intro t n top rest _ _ h
    exact nomatch (h : ([] : List Nat) = top :: rest)
  depth := by
    intro t _
    exact Nat.zero_le 8
theorem test_witness_router_step :
    (∀ c ∈ [Instr.evrClaimRead .steward 0, .eventFlushTimer], routerCommand c = true) ∧
    ∃ t, step (offeredS [.evrClaimRead .steward 0, .eventFlushTimer]) = .next t := ⟨by decide, _, rfl⟩
/-- ReadsIgnoreKeyMaterial: states that differ in key material. -/
theorem test_witness_keys_differ : withKeys .reset (keyed [(4096, rec0 1 1)]) ≠ .reset := by decide +kernel
theorem test_witness_same_open : SameOpen (keyed []) (keyed [(4096, rec0 1 1)]) := ⟨fun _ => ⟨rfl, fun _ => ⟨rfl, fun _ => rfl⟩⟩, rfl⟩
/-- IntegerInstructionsFrame: an ADD that completes. -/
theorem test_witness_integer : integerSlot (.add slot0 3 1 2) = some slot0 ∧ slot0.parity = false ∧ ∃ t, exec (.add slot0 3 1 2) run0 = .next t :=
  ⟨rfl, rfl, _, rfl⟩
/-- HaltedOrSquashedExecutesNothing: a halted facet, and one whose second instruction is discarded. -/
theorem test_witness_halted :
    slotOf (.ecall slot0 3) = some slot0 ∧ ((withF { facet0 with halt := 1 }).facet 0).halt = 1 ∧
    ((withF { facet0 with squash := true }).facet 0).halt = 0 ∧ ((withF { facet0 with squash := true }).facet 0).squash = true := by
  decide +kernel
/-- SharedMemoryReadsWhatWasWritten: a memory with two bytes. -/
theorem test_witness_memory : memWf [(5, 1), (9, 2)] = true := by decide +kernel
/-- ClaimReadsAsStated: the agents of the targets, an offer of the greatest source, a withdrawn one, none. -/
theorem test_witness_claim :
    State.reset.outOfReach .psc 0x6000 = false ∧ loupeT.outOfReach (.fn ⟨3, none⟩) 0x6000 = false ∧
    tget 0 (evrS [(5, 2047)] [] []).evr.offer 5 = 2046 + 1 ∧ (tget 0 (evrS [] [5] []).evr.offer 5 = 0 ∧ 5 ∈ (evrS [] [5] []).evr.withdrawn) ∧
    (tget 0 (evrS [] [] []).evr.offer 5 = 0 ∧ 5 ∉ (evrS [] [] []).evr.withdrawn) := by decide +kernel
/-- FloorAsStated, 15 Table 15.7 at the ends of its ranges, and the bytes beside them: `(unit, address, write)`. -/
theorem test_floor_ends :
    ([(0, 0, false), (0, 0x313FFFFFF, false), (0, 0x340000000, false), (0, 0x37FFFFFFF, true), (0, 0x380000000, true), (0, 0x3BFFFFFFF, true),
      (0, 0x400000000, false), (0, 0x47FFFFFFF, false), (1, 0x900000000, false), (1, 0xBFFFFFFFF, true), (2, 0, false), (5, 0, true),
      (7, 0, false), (8, 0, false), (11, 0, true)].all (fun x => (aptCause .reset x.1 x.2.1 1 0x13 false x.2.2 false).1 == 3)) = true ∧
    ([(0, 0x314000000, true), (0, 0x33FFFFFFF, true), (0, 0x380000000, false), (0, 0x3BFFFFFFF, false), (0, 0x3C0000000, true),
      (0, 0x3FFFFFFFF, true), (0, 0x480000000, true), (1, 0x8FFFFFFFF, true), (3, 0, true), (4, 0, true),
      (6, 0, true)].all (fun x => (aptCause .reset x.1 x.2.1 1 0x13 false x.2.2 false).1 != 3)) = true ∧
    (aptCause .reset 8 0 1 0x13 false false true).1 ≠ 3 := by decide +kernel

/-! ## Ill-formed commands: one for each check of WellFormed -/

def wOk : Work := work5 0 0 0 [] []
theorem test_wf_work : (Instr.encipher wOk).wf = true ∧ (Instr.encipher { wOk with inl := [1] }).wf = false ∧
    (Instr.ownerEntryCommand { wOk with inl := [] } 3).wf = false := by decide
/-- An input of 2^32 bytes or more does not fit its length field. -/
theorem test_wf_work_input (l : Bytes) (h : 4294967296 ≤ l.length) : (Instr.keyDestroy { wOk with input := l }).wf = false := by
  have e : decide (l.length < 4294967296) = false := decide_eq_false (by omega)
  simp only [Instr.wf, Work.wf, e, Bool.and_false]
theorem test_wf_bar0 : (Instr.rcRead .steward (.bar0 16777215) 4).wf = true ∧ (Instr.rcRead .steward (.bar0 16777216) 4).wf = false ∧
    (Instr.registerWrite .steward (.bar0 16777216) 4 0).wf = false := by decide
theorem test_wf_page : (Instr.latchedHiRead .psc (.page ⟨0, none⟩ 65535) 4).wf = true ∧
    (Instr.latchingLoRead .psc (.page ⟨0, none⟩ 65536) 4).wf = false := by decide
theorem test_wf_spdm : (Instr.spdmRequest 0 false (.getCertificate 8 0 0)).wf = false ∧ (Instr.spdmRequest 0 false (.getCertificate 0 65536 0)).wf = false ∧
    (Instr.spdmRequest 0 false (.getCertificate 0 0 65536)).wf = false ∧ (Instr.spdmRequest 0 false (.challenge 8 (List.replicate 32 0))).wf = false ∧
    (Instr.spdmRequest 0 false (.challenge 0 [])).wf = false ∧ (Instr.spdmRequest 0 true (.getMeasurements 256 true (List.replicate 32 0))).wf = false ∧
    (Instr.spdmRequest 0 true (.getMeasurements 1 true [1])).wf = false ∧ (Instr.spdmRequest 0 false (.keyExchange 8 [])).wf = false ∧
    (Instr.spdmRequest 0 false (.chunk 65536)).wf = false := by decide
theorem test_wf_ide : (Instr.ideKm 0 (.keyProg 0 0 true [1])).wf = false := by decide
theorem test_wf_focus : (Instr.focus rhead0 (.add ⟨2, 4, 5, 0, 0, [1], 0⟩)).wf = false ∧ (Instr.focus rhead0 (.copy 4 ⟨2, 4, 5, 0, 0, [], 0⟩)).wf = false := by
  decide
theorem test_wf_lengths : (Instr.kcommit slot0 1 [0]).wf = false ∧ (Instr.sqEntryRead 0 []).wf = false ∧ (Instr.importEntry []).wf = false ∧
    (Instr.conditionerBlockClose 0 [⟨0, [1]⟩]).wf = false ∧ (Instr.loupeLcXfer 3 []).wf = false ∧ (Instr.startStep6 false []).wf = false ∧
    (Instr.join rhead0 ⟨true, true, true, 0, 0, [], 0, 0⟩).wf = false := by decide
theorem test_wf_frame (l : Bytes) (h : 9600 < l.length) : (Instr.frameReceive 0 0 0 l true false).wf = false :=
  decide_eq_false (by omega : ¬ l.length ≤ 9600)
theorem test_wf_ranges : (Instr.scrubWordRead 51539607552 0 false none).wf = false ∧ (Instr.uncorrectableWord 51539607552 none).wf = false ∧
    (Instr.startStep1 1025).wf = false ∧ (Instr.startStep1 1024).wf = true := by decide

end
end

section
/-! # Register commands (00 R4, 21 R494 to R497)

A read of PF BAR0 goes one of five ways, each a lemma below: out of reach, of a size or alignment that is not served, a pair at
once, two words, one word. A word is a latched copy or what the offset shows. A write goes one of three ways. -/

namespace Sys2Proof.Machine

open Sys2Proof

/-! ## One word -/

/-- An offset that is the EVR_CLAIM register of no target is outside the range that `regRead` claims from. -/
theorem not_claimRange_of_forall {off : Nat} (h : ∀ t, ¬ (off = 0x6000 + 256 * t + 4 ∧ t < 6)) :
    ¬ (0x6000 ≤ off ∧ off < 0x6600 ∧ off % 256 = 4) := by
  rintro ⟨hlo, hhi, hmod⟩
  exact h ((off - 0x6000) / 256) ⟨by omega, by omega⟩

theorem regRead_of_latched {a : Agent} {off : Nat} {s : State} {w : Word} (hc : ¬ (0x6000 ≤ off ∧ off < 0x6600 ∧ off % 256 = 4))
    (hw : tget none s.latches (latchKey a off) = some w) :
    regRead a off s = (w, { s with latches := tset none s.latches (latchKey a off) none }) := by
  simp only [regRead, if_neg hc, hw]

theorem regRead_of_not_latched {a : Agent} {off : Nat} {s : State} (hc : ¬ (0x6000 ≤ off ∧ off < 0x6600 ∧ off % 256 = 4))
    (hn : tget none s.latches (latchKey a off) = none) :
    regRead a off s = (s.shown off, rcClear { s with
      latches := (latchOf off).foldl (fun t h => tset none t (latchKey a h) (some (s.shown h))) s.latches } off) := by
  simp only [regRead, if_neg hc, hn]

/-! ## The ways of a read of PF BAR0 -/

theorem readAccess_bar0_of_out {a : Agent} {off len : Nat} {s : State} (h : 16777216 ≤ off ∨ s.mayRead a off = false) :
    readAccess a (.bar0 off) len s = { s with rdata := 0 } := by
  have hout : 16777216 ≤ off ∨ (!s.mayRead a off) = true := h.imp_right (by simp)
  simp only [readAccess, if_pos hout]

section
variable {a : Agent} {off len : Nat} {s : State} (hoff : off < 16777216) (hr : s.mayRead a off = true)
include hoff hr

theorem readAccess_bar0_of_bad (h : ¬ ((len = 4 ∨ len = 8) ∧ off % len = 0)) :
    readAccess a (.bar0 off) len s = { badAccess s with rdata := 0 } := by
  have hpair : ¬ (len = 8 ∧ off % 8 = 0 ∧ pairAt off = true) := fun ⟨h8, hal, _⟩ => h ⟨.inr h8, h8 ▸ hal⟩
  simp [readAccess, hr, Nat.not_le.2 hoff, hpair, h]

theorem readAccess_bar0_word (hal : off % 4 = 0) :
    readAccess a (.bar0 off) 4 s = { (regRead a off s).2 with rdata := (regRead a off s).1.setWidth 64 } := by
  simp [readAccess, hr, Nat.not_le.2 hoff, hal]

theorem readAccess_bar0_pair (hal : off % 8 = 0) (hp : pairAt off = true) :
    readAccess a (.bar0 off) 8 s =
      { s with rdata := BitVec.ofNat 64 ((s.shown off).toNat + (s.shown (off + 4)).toNat * 4294967296) } := by
  simp [readAccess, hr, Nat.not_le.2 hoff, hal, hp]

theorem readAccess_bar0_two (hal : off % 8 = 0) (hp : pairAt off = false) :
    readAccess a (.bar0 off) 8 s =
      { (readTwo (regRead a) off s).2 with rdata := (readTwo (regRead a) off s).1 } := by
  simp [readAccess, hr, Nat.not_le.2 hoff, hal, hp]

end

/-- The three read commands are one access (21 R497). -/
theorem exec_read {a : Agent} {i : Instr} {r : RegAddr} {len : Nat} (s : State)
    (h : i = .latchingLoRead a r len ∨ i = .latchedHiRead a r len ∨ i = .rcRead a r len) :
    exec i s = .next (readAccess a r len s) := by
  obtain rfl | rfl | rfl := h <;> rfl

/-! ## The ways of a write of PF BAR0 -/

section
variable {a : Agent} {off : Nat} {s : State} (hoff : off < 16777216) (hr : s.outOfReach a off = false) (v : BitVec 64)
include hoff hr

theorem writeAccess_bar0_of_bad {len : Nat} (h : ¬ ((len = 4 ∨ len = 8) ∧ off % len = 0)) :
    writeAccess a (.bar0 off) len v s = badAccess s := by
  simp [writeAccess, hr, Nat.not_le.2 hoff, h]

theorem writeAccess_bar0_word (hal : off % 4 = 0) :
    writeAccess a (.bar0 off) 4 v s = regWrite a off (v.setWidth 32) s := by
  simp [writeAccess, hr, Nat.not_le.2 hoff, hal]

theorem writeAccess_bar0_two (hal : off % 8 = 0) :
    writeAccess a (.bar0 off) 8 v s =
      writeTwo (regWrite a) (some (off + 4)) off (v.setWidth 32) ((v >>> 32).setWidth 32) s := by
  simp [writeAccess, hr, Nat.not_le.2 hoff, hal]

end

theorem exec_registerWrite (a : Agent) (r : RegAddr) (len : Nat) (v : BitVec 64) (s : State) :
    exec (.registerWrite a r len v) s = .next (writeAccess a r len v s) := rfl

/-! ## A function's own configuration, and FCT_PERF_CLEAR -/

theorem readAccess_cfg_own (f : FnId) (len : Nat) (s : State) :
    readAccess (.fn f) (.cfg f) len s = { s with rdata := BitVec.ofNat 64 (s.fn (fnNum f)).cfg } := by
  simp only [readAccess, if_true]

theorem writeAccess_cfg_own {f : FnId} {s : State} (hr : s.outOfReach (.fn f) 0 = false) (len : Nat) (v : BitVec 64) :
    writeAccess (.fn f) (.cfg f) len v s = cfgWrite f v.toNat s := by
  simp [writeAccess, hr]

theorem fctPerfClear_of_primary {a : Agent} {s : State} (hr : s.outOfReach a 0x100000 = false) (ha : s.isPrimary a = true) (p : Nat) :
    fctPerfClear a p s = perfClear s p := by
  simp [fctPerfClear, hr, ha]

theorem exec_fctPerfClear (a : Agent) (p : Fin 72) (s : State) :
    exec (.fctPerfClear a p) s = .next (fctPerfClear a p s) := rfl

/-- Settles O51: each clause is one way of an access, carried from `readAccess`, `writeAccess` or `fctPerfClear` to the command. -/
theorem registerCommandsComplete : Obligations.RegisterCommandsComplete := by
  intro a s
  refine ⟨fun i off len hi => ?reads, fun off v hoff hr => ?writes, fun f len v ha hr => ?config, fun p hr ha => ?counters⟩
  case reads =>
    rw [exec_read s hi]
    refine ⟨fun h => congrArg _ (readAccess_bar0_of_out h), fun hoff hr => ⟨?_, ?_, ?_, fun h => congrArg _ (readAccess_bar0_of_bad hoff hr h)⟩⟩
    · rintro rfl hal hclaim
      have hc := not_claimRange_of_forall hclaim
      rw [readAccess_bar0_word hoff hr hal]
      exact ⟨fun w hw => by rw [regRead_of_latched hc hw], fun hn => by rw [regRead_of_not_latched hc hn]⟩
    · rintro rfl hal hp
      exact congrArg _ (readAccess_bar0_pair hoff hr hal hp)
    · rintro rfl hal hp
      exact congrArg _ (readAccess_bar0_two hoff hr hal hp)
  case writes =>
    simp only [exec_registerWrite]
    exact ⟨fun hal => by rw [writeAccess_bar0_word hoff hr v hal], fun hal => by rw [writeAccess_bar0_two hoff hr v hal],
      fun _ h => by rw [writeAccess_bar0_of_bad hoff hr v h]⟩
  case config =>
    subst ha
    rw [exec_registerWrite, exec_read s (.inr (.inr rfl)), writeAccess_cfg_own hr, readAccess_cfg_own]
    exact ⟨rfl, rfl⟩
  case counters => rw [exec_fctPerfClear, fctPerfClear_of_primary hr ha, perfClear]

end Sys2Proof.Machine
end

section
/-! # The step, shared memory and the scrubber (01 R9, R20, R22, R23)

A byte memory is described by what each address reads after an operation; a byte string is then read byte by byte. A restore of a
poisoned record goes one of three ways, each a lemma below. -/

namespace Sys2Proof.Machine

open Sys2Proof

/-! ## The step -/

theorem step_of_pending_cons {s : State} {c : Instr} {rest : List Instr} (h : s.pending = c :: rest) :
    step s = exec c { s with pending := rest } := by
  simp only [step, h]

theorem step_of_pending_nil {s : State} (h : s.pending = []) : step s = .next s := by
  simp only [step, h]

/-- Settles O52: the two ways of a step, by whether the queue is empty. -/
theorem stepTakesTheFrontCommand : Obligations.StepTakesTheFrontCommand :=
  fun _ _ _ => ⟨step_of_pending_cons, step_of_pending_nil⟩

/-! ## Shared memory, byte by byte -/

/-- Filtering a table by its keys drops the entries of the other keys and moves none. -/
theorem tget_filter_key {α : Type} (d : α) (t : Tab α) (q : Nat → Bool) (k : Nat) :
    tget d (t.filter (fun e => q e.1)) k = if q k then tget d t k else d := by
  induction t with
  | nil => simp [tget]
  | cons e r ih =>
    obtain ⟨k', v⟩ := e
    by_cases hk : k' = k
    · subst hk
      cases hq : q k' <;> simp [tget, hq, ih]
    · cases hq : q k' <;> simp [tget, hk, hq, ih]

theorem memGet_memWrite_outside (d : Bytes) (m : List Host.Cell) (a : Nat) {b : Nat} (h : b < a ∨ a + d.length ≤ b) :
    memGet (memWrite m a d) b = memGet m b := by
  induction d generalizing m a with
  | nil => rfl
  | cons x r ih =>
    rw [List.length_cons] at h
    calc memGet (memWrite (memSet m a x) (a + 1) r) b
      _ = memGet (memSet m a x) b := ih _ _ (by omega)
      _ = memGet m b := memGet_memSet_other m a b x (by omega)

theorem memGet_memZero (m : List Host.Cell) (a n b : Nat) :
    memGet (memZero m a n) b = if b < a ∨ a + n ≤ b then memGet m b else 0 := by
  simpa [memGet, memZero] using tget_filter_key (0 : Byte) m (fun k => decide (k < a) || decide (a + n ≤ k)) b

theorem memRead_succ (m : List Host.Cell) (a n : Nat) : memRead m a (n + 1) = memGet m a :: memRead m (a + 1) n := by
  simp [memRead, List.range_succ_eq_map, Nat.add_comm, Nat.add_left_comm]

theorem memRead_one (m : List Host.Cell) (a : Nat) : memRead m a 1 = [memGet m a] := rfl

/-- A byte string that is written is read back: the write of the tail leaves its first byte as written. -/
theorem memRead_memWrite_same (d : Bytes) (m : List Host.Cell) (a : Nat) : memRead (memWrite m a d) a d.length = d := by
  induction d generalizing m a with
  | nil => rfl
  | cons x r ih =>
    have hhead : memGet (memWrite (memSet m a x) (a + 1) r) a = x := by
      rw [memGet_memWrite_outside r _ _ (.inl (Nat.lt_succ_self a)), memGet_memSet_same]
    rw [List.length_cons, memRead_succ, memWrite, hhead, ih]

theorem memRead_memZero_same (m : List Host.Cell) (a n : Nat) : memRead (memZero m a n) a n = List.replicate n 0 := by
  rw [memRead, List.map_eq_replicate_iff.2, List.length_range]
  intro i hi
  rw [memGet_memZero, if_neg]
  have := List.mem_range.1 hi
  omega

/-- Settles O58: what each byte reads after a write and after a zeroing; Laws/Tab.lean gives the canonical form. -/
theorem sharedMemoryReadsWhatWasWritten : Obligations.SharedMemoryReadsWhatWasWritten := by
  intro m hm a d n
  refine ⟨memRead_memWrite_same d m a, fun b hb => ?_, memWf_memWrite d m a hm, memRead_memZero_same m a n, fun b hb => ?_,
    memWf_memZero m a n hm⟩
  · rw [memRead_one, memRead_one, memGet_memWrite_outside d m a hb]
  · rw [memRead_one, memRead_one, memGet_memZero, if_pos hb]

/-! ## Words of the HBM map -/

theorem exec_scrubWordRead_of_mapped {a : Nat} (ha : a < hbmEnd) (bad : Fin 3) (w : Bool) (prog : Option (BitVec 32)) (s : State) :
    exec (.scrubWordRead a bad w prog) s =
      let t := s.poke F.KS_SCRUB_STATUS_RUNNING 1
      .next (if bad.val = 0 then t else if bad.val = 1 then t.incSat F.KS_SCRUB_STATUS_CORRECTED else wordBad a prog t) :=
  if_neg (Nat.not_le.2 ha)

theorem exec_scrubWordRead_of_unmapped {a : Nat} (ha : hbmEnd ≤ a) (bad : Fin 3) (w : Bool) (prog : Option (BitVec 32)) (s : State) :
    exec (.scrubWordRead a bad w prog) s = .fault .noSuchWord :=
  if_pos ha

theorem exec_uncorrectableWord_of_mapped {a : Nat} (ha : a < hbmEnd) (prog : Option (BitVec 32)) (s : State) :
    exec (.uncorrectableWord a prog) s = .next (wordBad a prog s) :=
  if_neg (Nat.not_le.2 ha)

theorem exec_uncorrectableWord_of_unmapped {a : Nat} (ha : hbmEnd ≤ a) (prog : Option (BitVec 32)) (s : State) :
    exec (.uncorrectableWord a prog) s = .fault .noSuchWord :=
  if_pos ha

/-! ## The restore of a poisoned record (04 R107) -/

theorem exec_recordRestore (sp : Fin 17) (n : Fin 33554432) (s : State) :
    exec (.recordRestore sp n) s = .next (recordRestore (sp.val * 33554432 + n.val) s) := rfl

section
variable {s : State} {i : Nat} (hown : s.ks.poison.any (fun e => e.index == i) = true)
include hown

theorem recordRestore_of_cached (hc : cached s i = true) : recordRestore i s = restored s i (s.krec i) false := by
  simp [recordRestore, hown, hc]

theorem recordRestore_of_ring (hc : cached s i = false) (hm : s.isMember = true) (hs : s.hasSucc = true)
    (hv : s.get F.VR_VERSION_IN_USE ≠ 1) :
    recordRestore i s = ringSend s 0 rkRecordReq s.succ (leBytes 1 (idxSpace i) ++ leBytes 4 (hIdx i)) := by
  simp [recordRestore, hown, hc, hm, hs, hv]

theorem recordRestore_of_host (hc : cached s i = false) (hm : s.isMember = false) (hg : (s.leaf (pageOf i)).gfail = false) :
    recordRestore i s = pageRequest s (pageOf i) := by
  simp [recordRestore, hown, hc, hm, hg]

end

/-! ## Pass ends and housekeeping -/

theorem exec_scrubPassEnd (finished : Bool) (s : State) :
    exec (.scrubPassEnd finished) s = .next (
      let t := (s.incWrap F.KS_SCRUB_STATUS_PASSES).poke F.KS_SCRUB_STATUS_RUNNING 1
      if finished then t else t.raise F.KS_SCRUB_STATUS_LATE) := rfl

theorem exec_compSessionExpiry (s : State) :
    exec .compSessionExpiry s = .next { s with sessions := s.sessions.filter (fun x => decide (s.nowSec < x.opened + 3600)) } := rfl

theorem exec_mramRewrite (s : State) :
    exec .mramRewrite s = .next (if s.rst.pfail then s else { s with wear := { s.wear with mramAge := 0, mramKept := 0 } }) := rfl

/-- Settles O36: the three readings of a scrubbed word and the three sources of a restore; every other command has one way. -/
theorem scrubCommandsComplete : Obligations.ScrubCommandsComplete := by
  intro s
  refine ⟨fun a w prog ha => ?mapped, fun a bad w prog ha => ?unmapped, ?passEnd, fun sp n => ?restore,
    exec_compSessionExpiry s, exec_mramRewrite s⟩
  case mapped =>
    have hread := fun bad => exec_scrubWordRead_of_mapped ha bad w prog s
    exact ⟨fun h => hread ⟨0, h⟩, fun h => hread ⟨1, h⟩, fun h => hread ⟨2, h⟩, exec_uncorrectableWord_of_mapped ha prog s⟩
  case unmapped =>
    exact ⟨exec_scrubWordRead_of_unmapped ha bad w prog s, exec_uncorrectableWord_of_unmapped ha prog s⟩
  case passEnd => exact ⟨exec_scrubPassEnd true s, exec_scrubPassEnd false s⟩
  case restore =>
    intro i hown
    rw [exec_recordRestore]
    exact ⟨fun hc => congrArg _ (recordRestore_of_cached hown hc), fun hc hm hs hv => congrArg _ (recordRestore_of_ring hown hc hm hs hv),
      fun hc hm hg => congrArg _ (recordRestore_of_host hown hc hm hg)⟩

end Sys2Proof.Machine
end

section
/-! # Reads ignore key material (02 R28, 21 R497, 17 R427)

`withKeys s x` is `s` with the key material of `x`. Every function on the way of a register read commutes with that exchange, and so
keeps the key material it is given. What the debug port shifts out is a function of the open part of the state (`SameOpen`). -/

namespace Sys2Proof.Machine

open Sys2Proof

/-! ## What the exchange leaves as it was -/

theorem withKeys_ite (c : Prop) [Decidable c] (s t x : State) : withKeys (if c then s else t) x = if c then withKeys s x else withKeys t x :=
  apply_ite (withKeys · x) c s t

section
variable (s x : State)

@[simp] theorem withKeys_evr : (withKeys s x).evr = s.evr := rfl
@[simp] theorem withKeys_latches : (withKeys s x).latches = s.latches := rfl
@[simp] theorem withKeys_log : (withKeys s x).log = s.log := rfl
@[simp] theorem withKeys_reg (off : Nat) : (withKeys s x).reg off = s.reg off := rfl
@[simp] theorem withKeys_get (f : Fld) (i j : Nat) : (withKeys s x).get f i j = s.get f i j := rfl
@[simp] theorem withKeys_is (f : Fld) (i j : Nat) : (withKeys s x).is f i j = s.is f i j := rfl
@[simp] theorem withKeys_jr : (withKeys s x).jr = s.jr := rfl
@[simp] theorem withKeys_apt : (withKeys s x).apt = s.apt := rfl
@[simp] theorem withKeys_foc : (withKeys s x).foc = s.foc := rfl
@[simp] theorem withKeys_lcState : (withKeys s x).lcState = s.lcState := rfl
@[simp] theorem withKeys_mtick : (withKeys s x).mtick = s.mtick := rfl
@[simp] theorem withKeys_evLive : (withKeys s x).evLive = s.evLive := rfl
@[simp] theorem withKeys_owner : (withKeys s x).owner = s.owner := rfl
@[simp] theorem withKeys_queue : (withKeys s x).queue = s.queue := rfl
@[simp] theorem withKeys_ctxOwner (c : Nat) : (withKeys s x).ctxOwner c = s.ctxOwner c := rfl
@[simp] theorem withKeys_fellBack (o : Nat) : (withKeys s x).fellBack o = s.fellBack o := rfl
@[simp] theorem withKeys_modeOf (o : Nat) : (withKeys s x).modeOf o = s.modeOf o := rfl
@[simp] theorem withKeys_entryMode (o : Nat) (d : Bool) : (withKeys s x).entryMode o d = s.entryMode o d := rfl
@[simp] theorem answerOpen_withKeys (i : Nat) : answerOpen (withKeys s x) i = answerOpen s i := rfl
@[simp] theorem withKeys_mainPower : (withKeys s x).mainPower = s.mainPower := rfl
@[simp] theorem withKeys_ks : (withKeys s x).ks = x.ks := rfl
@[simp] theorem withKeys_gmem : (withKeys s x).gmem = s.gmem := rfl
@[simp] theorem withKeys_freeCtr : (withKeys s x).freeCtr = s.freeCtr := rfl
@[simp] theorem evTstat_withKeys : evTstat (withKeys s x) = evTstat s := rfl
@[simp] theorem logTail_withKeys : logTail (withKeys s x) = logTail s := rfl
@[simp] theorem aptPending_withKeys : aptPending (withKeys s x) = aptPending s := rfl
@[simp] theorem fnCtx_withKeys : fnCtx (withKeys s x) = fnCtx s := rfl
@[simp] theorem withKeys_right : (withKeys s x).right = s.right := rfl
@[simp] theorem withKeys_facet (p : Nat) : (withKeys s x).facet p = x.facet p := rfl
@[simp] theorem getB_withKeys (p : Nat) (b : BR) : getB (withKeys s x) p b = getB x p b := rfl
@[simp] theorem withKeys_poke (f : Fld) (v i j : Nat) : (withKeys s x).poke f v i j = withKeys (s.poke f v i j) x := rfl

end

/-- A step on states that does not look at the key material commutes with its exchange along a list. -/
theorem foldl_withKeys {α : Type} {f : State → α → State} (hf : ∀ s x a, f (withKeys s x) a = withKeys (f s a) x) (l : List α) (s x : State) :
    l.foldl f (withKeys s x) = withKeys (l.foldl f s) x := by
  induction l generalizing s with
  | nil => rfl
  | cons a r ih => rw [List.foldl_cons, List.foldl_cons, hf, ih]

/-! ## The event router and the event recorder -/

theorem evAssign_withKeys (s x : State) (n : Nat) : evAssign (withKeys s x) n = withKeys (evAssign s n) x := by
  simp only [evAssign, withKeys_ite]
  refine ite_congr rfl (fun _ => rfl) (fun _ => ite_congr rfl (fun _ => rfl) (fun _ => ?_))
  change (match s.evNextTarget n with | none => _ | some t => _) = _
  cases s.evNextTarget n <;> rfl

theorem hostSend_withKeys (s x : State) (n : Nat) (o : Out) : hostSend (withKeys s x) n o = withKeys (hostSend s n o) x := by
  simp only [hostSend, withKeys_ite]
  rfl

theorem raiseVector_withKeys (s x : State) (n v : Nat) : raiseVector (withKeys s x) n v = withKeys (raiseVector s n v) x := by
  simp only [raiseVector, withKeys_ite, hostSend_withKeys]
  rfl

theorem evTarget_withKeys (s x : State) (t : Nat) : evTarget (withKeys s x) t = withKeys (evTarget s t) x := by
  unfold evTarget
  extract_lets _ _ _ _ _ _ _ _ _ offered
  rw [withKeys_ite]
  exact ite_congr rfl (fun _ => raiseVector_withKeys offered x _ _) (fun _ => rfl)

theorem evWake_withKeys (s x : State) : evWake (withKeys s x) = withKeys (evWake s) x := rfl

/-- The first part of `evSettle`: a group split that waits takes effect once every stack is empty (16 R409). -/
def evRegroup (s : State) : State :=
  match s.evr.gWait with
  | some g => if s.evr.claims = [] then ({ s with evr := { s.evr with g := g, gWait := none } }).poke F.EVR_STATUS_PG_PENDING 0 else s
  | none => s

/-- The second part of `evSettle`: only latched sources keep an assignment. -/
def evUnassign (s : State) : State :=
  { s with evr := { s.evr with assigned := s.evr.assigned.filter (fun e => s.evr.latched.contains e.1) } }

theorem evSettle_eq (s : State) : evSettle s =
    [0, 1, 2, 3, 4, 5].foldl evTarget ((evWake (evUnassign (evRegroup s))).evr.latched.foldl evAssign (evWake (evUnassign (evRegroup s)))) := rfl

theorem evRegroup_withKeys (s x : State) : evRegroup (withKeys s x) = withKeys (evRegroup s) x := by
  unfold evRegroup
  rw [withKeys_evr]
  cases s.evr.gWait with
  | none => rfl
  | some g =>
    dsimp only
    rw [withKeys_ite]
    rfl

theorem evUnassign_withKeys (s x : State) : evUnassign (withKeys s x) = withKeys (evUnassign s) x := rfl

theorem evSettle_withKeys (s x : State) : evSettle (withKeys s x) = withKeys (evSettle s) x := by
  rw [evSettle_eq, evSettle_eq, evRegroup_withKeys, evUnassign_withKeys, evWake_withKeys, withKeys_evr,
    foldl_withKeys evAssign_withKeys, foldl_withKeys evTarget_withKeys]

theorem evLatch_withKeys (s x : State) (n : Nat) : evLatch (withKeys s x) n = withKeys (evLatch s n) x := by
  unfold evLatch
  extract_lets _ _ _ _ _ _ _ _ _ _ latched
  rw [withKeys_ite]
  exact ite_congr rfl (fun _ => rfl) (fun _ => evSettle_withKeys latched x)

theorem raise_withKeys (s x : State) (f : Fld) (i j : Nat) : (withKeys s x).raise f i j = withKeys (s.raise f i j) x := by
  simp only [State.raise, withKeys_poke]
  cases sourceAt (f.at i j) with
  | none => rfl
  | some e =>
    dsimp only
    rw [withKeys_ite, evLatch_withKeys]

theorem logDrop_withKeys (s x : State) (f : Fld) : logDrop (withKeys s x) f = withKeys (logDrop s f) x := by
  simp only [logDrop, withKeys_ite, withKeys_poke, withKeys_get, evLatch_withKeys]
  rfl

theorem logWrite_withKeys (s x : State) (r : EvRec) : logWrite (withKeys s x) r = withKeys (logWrite s r) x := by
  unfold logWrite
  rw [withKeys_log]
  cases logSlot s.log.mram r with
  | none => exact logDrop_withKeys s x _
  | some k => rfl

theorem logFlush_withKeys (s x : State) : logFlush (withKeys s x) = withKeys (logFlush s) x := by
  unfold logFlush
  rw [withKeys_log, foldl_withKeys logWrite_withKeys]
  rfl

theorem logPush_withKeys (s x : State) (r : EvRec) : logPush (withKeys s x) r = withKeys (logPush s r) x := by
  unfold logPush
  rw [withKeys_ite, withKeys_log]
  refine ite_congr rfl (fun _ => rfl) (fun _ => ?_)
  cases (s.log.buf.find? (fun x => x.flushed)).or (s.log.buf.find? (fun x => decide (x.sev ≤ r.sev))) with
  | none => exact logDrop_withKeys s x _
  | some k => rfl

theorem event_withKeys (s x : State) (sev code src o : Nat) (d : Bytes) :
    event (withKeys s x) sev code src o d = withKeys (event s sev code src o d) x := by
  unfold event
  extract_lets fold' _ _ recorded' made' raised' fold _ _ recorded made raised
  have hrecorded : recorded' = withKeys recorded x := by
    simp only [recorded, withKeys_ite]
    exact ite_congr rfl (fun _ => rfl) (fun _ => logPush_withKeys s x _)
  have hmade : made' = made := by simp only [made', hrecorded]; rfl
  have hraised : raised' = withKeys raised x := by
    simp only [raised', raised, hrecorded, hmade, withKeys_ite, withKeys_get, raise_withKeys]
  rw [withKeys_ite]
  refine ite_congr rfl (fun _ => rfl) (fun _ => ?_)
  rw [hmade, hraised, logFlush_withKeys]
  exact (withKeys_ite ..).symm

theorem badAccess_withKeys (s x : State) : badAccess (withKeys s x) = withKeys (badAccess s) x := event_withKeys ..

/-! ## What a register shows -/

theorem setJfull_withKeys (s x : State) (c : Nat) (v : Bool) : setJfull (withKeys s x) c v = withKeys (setJfull s c v) x := by
  cases v with
  | false => rfl
  | true => simp only [setJfull, if_true, withKeys_is, raise_withKeys, ← withKeys_ite, withKeys_poke]

theorem limitTotal_withKeys (s x : State) : limitTotal (withKeys s x) = limitTotal s := by
  rw [limitTotal, withKeys_jr, limitTotal]

theorem jrCount_withKeys (s x : State) (p : JRec → Bool) : jrCount (withKeys s x) p = jrCount s p := by
  rw [jrCount, withKeys_jr, jrCount]

theorem limitFor_withKeys (s x : State) (m : Nat) : limitFor (withKeys s x) m = limitFor s m := by
  simp only [limitFor, limitTotal_withKeys, jrCount_withKeys]

theorem jfullHolds_withKeys (s x : State) (c : Nat) : jfullHolds (withKeys s x) c = jfullHolds s c := by
  simp only [jfullHolds, withKeys_queue, limitTotal_withKeys, limitFor_withKeys, withKeys_entryMode,
    withKeys_ctxOwner, answerOpen_withKeys]

/-- The first part of `showQueue`: FALLBACK and MODE of the queue's owner. -/
def queueMode (s : State) (c : Nat) : State :=
  (s.poke F.QP_STATUS_FALLBACK (b2n (s.fellBack (s.ctxOwner c))) c).poke F.QP_STATUS_MODE (s.modeOf (s.ctxOwner c)) c

theorem queueMode_withKeys (s x : State) (c : Nat) : queueMode (withKeys s x) c = withKeys (queueMode s c) x := by
  rw [queueMode, withKeys_ctxOwner, withKeys_fellBack, withKeys_modeOf, withKeys_poke, withKeys_poke, queueMode]

/-- The second part of `showQueue`: JFULL. -/
def queueFull (s : State) (c : Nat) : State := setJfull s c (s.is F.QP_STATUS_JFULL c && jfullHolds s c)

theorem queueFull_withKeys (s x : State) (c : Nat) : queueFull (withKeys s x) c = withKeys (queueFull s c) x := by
  rw [queueFull, withKeys_is, jfullHolds_withKeys, setJfull_withKeys, queueFull]

theorem showQueue_eq (s : State) (c : Nat) : showQueue s c =
    (queueFull (queueMode s c) c).poke F.QP_STATUS_RECOVERING
      (b2n (decide ((queueFull (queueMode s c) c).get F.QP_STATUS_RECOVER_LEFT c ≠ 0))) c := rfl

theorem showQueue_withKeys (s x : State) (c : Nat) : showQueue (withKeys s x) c = withKeys (showQueue s c) x := by
  rw [showQueue_eq, showQueue_eq, queueMode_withKeys, queueFull_withKeys, withKeys_get, withKeys_poke]

theorem shown_withKeys (s x : State) (off : Nat) : (withKeys s x).shown off = s.shown off := by
  unfold State.shown
  extract_lets
  rw [showQueue_withKeys, withKeys_lcState, withKeys_evr, withKeys_evLive, withKeys_log, withKeys_owner, withKeys_mtick, withKeys_foc,
    withKeys_apt, withKeys_queue, withKeys_poke, withKeys_reg, withKeys_reg, withKeys_reg, evTstat_withKeys, logTail_withKeys,
    aptPending_withKeys]

/-! ## Register reads -/

theorem rcClear_withKeys (s x : State) (off : Nat) : rcClear (withKeys s x) off = withKeys (rcClear s off) x := by
  unfold rcClear
  cases regRow off with
  | none => rfl
  | some r =>
    dsimp only
    rw [withKeys_ite]
    rfl

theorem claimRead_withKeys (s x : State) (a : Agent) (t : Nat) : claimRead a t (withKeys s x) = withKeys (claimRead a t s) x := by
  unfold claimRead
  extract_lets _ _ _ _ _ claimed
  simp only [withKeys_ite]
  exact ite_congr rfl (fun _ => rfl) (fun _ => ite_congr rfl (fun _ => rfl) (fun _ =>
    ite_congr rfl (fun _ => evSettle_withKeys claimed x) (fun _ => rfl)))

/-- A read whose value ignores the key material and whose next state carries it along. -/
def ReadsBlind {α : Type} (rd : State → α × State) : Prop := ∀ s x, rd (withKeys s x) = ((rd s).1, withKeys (rd s).2 x)

/-- The latching of a read of a register that holds no latched copy. -/
def latchFor (a : Agent) (off : Nat) (s : State) : State :=
  { s with latches := (latchOf off).foldl (fun t h => tset none t (latchKey a h) (some (s.shown h))) s.latches }

theorem latchFor_withKeys (s x : State) (a : Agent) (off : Nat) : latchFor a off (withKeys s x) = withKeys (latchFor a off s) x := by
  simp only [latchFor, shown_withKeys]
  rfl

theorem regRead_blind (a : Agent) (off : Nat) : ReadsBlind (regRead a off) := by
  intro s x
  by_cases hc : 0x6000 ≤ off ∧ off < 0x6600 ∧ off % 256 = 4
  · simp only [regRead, if_pos hc, claimRead_withKeys]
    rfl
  · cases hl : tget none s.latches (latchKey a off) with
    | some w =>
      rw [regRead_of_latched hc hl, regRead_of_latched hc ((withKeys_latches s x).symm ▸ hl)]
      rfl
    | none =>
      rw [regRead_of_not_latched hc hl, regRead_of_not_latched hc ((withKeys_latches s x).symm ▸ hl), shown_withKeys]
      exact congrArg (Prod.mk _) ((congrArg (rcClear · off) (latchFor_withKeys s x a off)).trans (rcClear_withKeys _ x off))

theorem pageRead_blind (a : Agent) (f : FnId) (off : Nat) : ReadsBlind (pageRead a f off) := by
  intro s x
  unfold pageRead
  extract_lets fn
  split
  · rw [fnCtx_withKeys]
    cases fnCtx s fn (off / 64) with
    | none => rfl
    | some c => exact regRead_blind a _ s x
  iterate 4 (split; · rfl)
  rfl

theorem readTwo_blind {rd : Nat → State → Word × State} (h : ∀ off, ReadsBlind (rd off)) (off : Nat) : ReadsBlind (readTwo rd off) := by
  intro s x
  simp only [readTwo, h off s x, h (off + 4) _ x]

/-- A served read of 4 or 8 bytes through a 4-byte read, or the event of another size or alignment (21 R495, R497). -/
def sizedRead (rd : Nat → State → Word × State) (off len : Nat) (s : State) : State :=
  if !((len = 4 ∨ len = 8) ∧ off % len = 0) then { badAccess s with rdata := 0 }
  else if len = 8 then { (readTwo rd off s).2 with rdata := (readTwo rd off s).1 }
  else { (rd off s).2 with rdata := (rd off s).1.setWidth 64 }

theorem sizedRead_withKeys {rd : Nat → State → Word × State} (h : ∀ off, ReadsBlind (rd off)) (off len : Nat) (s x : State) :
    sizedRead rd off len (withKeys s x) = withKeys (sizedRead rd off len s) x := by
  simp only [sizedRead, readTwo_blind h off s x, h off s x, badAccess_withKeys, withKeys_ite]
  rfl

theorem readAccess_withKeys (a : Agent) (r : RegAddr) (len : Nat) (s x : State) :
    readAccess a r len (withKeys s x) = withKeys (readAccess a r len s) x := by
  cases r with
  | bar0 off =>
    unfold readAccess
    dsimp only
    rw [withKeys_ite, withKeys_ite, shown_withKeys, shown_withKeys]
    exact ite_congr rfl (fun _ => rfl) (fun _ => ite_congr rfl (fun _ => rfl) (fun _ =>
      sizedRead_withKeys (regRead_blind a) off len s x))
  | page f off =>
    unfold readAccess
    dsimp only
    rw [withKeys_ite]
    refine ite_congr rfl (fun _ => rfl) (fun _ => ?_)
    rw [fnCtx_withKeys]
    cases (if len = 8 ∧ off < 0x1000 ∧ off % 64 = 0x30 then fnCtx s (fnNum f) (off / 64) else none) with
    | none => exact sizedRead_withKeys (pageRead_blind a f) off len s x
    | some c => rfl
  | cfg f => rfl

/-! ## The Loupe port -/

theorem loupeLeave_withKeys (s x : State) : loupeLeave (withKeys s x) = withKeys (loupeLeave s) x := by
  unfold loupeLeave
  extract_lets _ _ _ released
  rw [withKeys_ite, withKeys_ite]
  exact ite_congr rfl (fun _ => ite_congr rfl (fun _ => withKeys_poke released x _ _ _ _) (fun _ => rfl)) (fun _ => rfl)

theorem loupe_withKeys {k : State → State} (hk : ∀ s x, k (withKeys s x) = withKeys (k s) x) (s x : State) :
    loupe (withKeys s x) k = withKeys (loupe s k) x := by
  rw [loupe, withKeys_mainPower, hk, ← withKeys_ite, loupe]

/-- A Loupe instruction whose work on the port commutes with the exchange does so as a command. -/
theorem exec_loupe_withKeys {i : Instr} {k : State → State} (hi : ∀ s, exec i s = .next (loupe s k))
    (hk : ∀ s x, k (withKeys s x) = withKeys (k s) x) (s x : State) :
    ∃ t, exec i s = .next t ∧ exec i (withKeys s x) = .next (withKeys t x) :=
  ⟨_, hi s, by rw [hi, loupe_withKeys hk]⟩

/-! ## What an access of the debug port reads -/

theorem durByte_withKeys (s x : State) : durByte (withKeys s x) = durByte s := by
  unfold durByte
  rw [withKeys_jr, withKeys_foc, withKeys_owner]
  rfl

theorem flowByte_withKeys (s x : State) (a : Nat) : flowByte (withKeys s x) a = flowByte s a := rfl
theorem journalByte_withKeys (s x : State) (a : Nat) : journalByte (withKeys s x) a = journalByte s a := rfl
theorem slotByte_withKeys (s x : State) (a : Nat) : slotByte (withKeys s x) a = slotByte s a := rfl
theorem logByte_withKeys (s x : State) (a : Nat) : logByte (withKeys s x) a = logByte s a := rfl

section
variable {s x : State} (h : SameOpen s x)
include h

theorem SameOpen.leaves : x.ks.leaves = s.ks.leaves := by
  have e := congrArg KsSt.leaves h.store
  exact e

theorem SameOpen.heap : x.ks.heap = s.ks.heap := by
  have e := congrArg KsSt.heap h.store
  exact e

theorem SameOpen.marks : x.ks.marks = s.ks.marks := by
  have e := congrArg KsSt.marks h.store
  exact e

theorem SameOpen.tree : x.ks.tree = s.ks.tree := by
  have e := congrArg KsSt.tree h.store
  exact e

theorem SameOpen.roots : x.ks.roots = s.ks.roots := by
  have e := congrArg KsSt.roots h.store
  exact e

theorem SameOpen.updates : x.ks.log = s.ks.log := by
  have e := congrArg KsSt.log h.store
  exact e

theorem SameOpen.sb (p : Nat) : (x.facet p).sb = (s.facet p).sb := by
  have e := congrArg Facet.sb (h.facets p).1
  exact e

theorem SameOpen.g (p : Nat) : (x.facet p).g = (s.facet p).g := by
  have e := congrArg Facet.g (h.facets p).1
  exact e

theorem SameOpen.v (p : Nat) : (x.facet p).v = (s.facet p).v := by
  have e := congrArg Facet.v (h.facets p).1
  exact e

theorem SameOpen.halt (p : Nat) : (x.facet p).halt = (s.facet p).halt := by
  have e := congrArg Facet.halt (h.facets p).1
  exact e

theorem SameOpen.treeHbmByte_eq (a : Nat) : treeHbmByte (withKeys s x) a = treeHbmByte s a := by
  rw [treeHbmByte, withKeys_ks, h.leaves, treeHbmByte]

theorem SameOpen.treeMramByte_eq (a : Nat) : treeMramByte (withKeys s x) a = treeMramByte s a := by
  rw [treeMramByte, withKeys_ks, h.tree, h.roots, h.updates, treeMramByte]

theorem SameOpen.leaseByte_eq (a : Nat) : leaseByte (withKeys s x) a = leaseByte s a := by
  rw [leaseByte, withKeys_ks, h.marks, leaseByte]

theorem SameOpen.hbmStruct_eq (a : Nat) : hbmStruct (withKeys s x) a = hbmStruct s a := by
  simp only [hbmStruct, h.treeHbmByte_eq, withKeys_ks, h.heap, flowByte_withKeys, journalByte_withKeys, withKeys_freeCtr]

theorem SameOpen.mramStruct_eq (a : Nat) : mramStruct (withKeys s x) a = mramStruct s a := by
  simp only [mramStruct, slotByte_withKeys, h.treeMramByte_eq, h.leaseByte_eq, logByte_withKeys, durByte_withKeys]

theorem SameOpen.devByte_eq : (withKeys s x).devByte = s.devByte := by
  funext a
  rw [State.devByte, h.hbmStruct_eq, h.mramStruct_eq, withKeys_gmem, State.devByte]

theorem SameOpen.devRead_eq (a n : Nat) : (withKeys s x).devRead a n = s.devRead a n := by
  rw [State.devRead, h.devByte_eq, State.devRead]

/-- A register that the debug port reads is open, and then both states hold the same, or it reads as zero. -/
theorem SameOpen.dbgRegRead_eq (p : Fin 72) (r : DbgReg) : dbgRegRead (withKeys s x) p r = dbgRegRead s p r := by
  cases r with
  | reg n i =>
    cases n with
    | g g => exact congrArg (fun t => leBytes 8 ((tget 0 t g.val).toNat / 2 ^ (64 * i.val))) (h.g p)
    | v v => exact congrArg (fun t => leBytes 8 ((tget 0 t v.val).toNat / 2 ^ (64 * i.val))) (h.v p)
    | b b =>
      obtain ⟨hseal, hopen⟩ := (h.facets p.val).2 b
      simp only [dbgRegRead, getB_withKeys, hseal]
      cases hs : (getB s p b).sld with
      | true => rfl
      | false => rw [hopen hs]
  | _ => rfl

theorem SameOpen.congr {t y : State} (ht : t.facets = s.facets) (hk : t.ks = s.ks) (hy : y.facets = x.facets) (hl : y.ks = x.ks) :
    SameOpen t y := by
  obtain ⟨hf, hs⟩ := h
  simp only [State.facet, getB] at hf
  constructor
  · simpa only [State.facet, getB, ht, hy] using hf
  · rw [hk, hl]
    exact hs

theorem SameOpen.setSb (p : Nat) (l : List SbItem) :
    SameOpen (s.setFacet p { s.facet p with sb := l }) (x.setFacet p { x.facet p with sb := l }) := by
  refine ⟨fun q => ?_, h.store⟩
  by_cases hq : q = p
  · subst hq
    simp only [getB, facet_setFacet_same]
    exact ⟨congrArg (fun f => { f with sb := l }) (h.facets q).1, (h.facets q).2⟩
  · simp only [getB, facet_setFacet_other _ _ _ _ hq]
    exact h.facets q

end

/-- What `drainFree` makes of a store buffer: the stores kept, and the memory. -/
def drained (s : State) (l : List SbItem) : List SbItem × List Host.Cell :=
  let q := drainSome (fun t => (s.free.1 / 64 ^ t) % 64) l s.gmem
  (match q.1 with
    | .barrier :: l => l
    | l => l, q.2)

theorem drainFree_eq (s : State) (p : Nat) : drainFree s p =
    if (s.facet p).sb = [] then s
    else { s.setFacet p { s.facet p with sb := (drained s (s.facet p).sb).1 } with
      freeCtr := s.freeCtr + 1, gmem := (drained s (s.facet p).sb).2 } := rfl

theorem SameOpen.drainFree_withKeys {s x : State} (h : SameOpen s x) (p : Nat) :
    ∃ y, drainFree (withKeys s x) p = withKeys (drainFree s p) y ∧ SameOpen (drainFree s p) y := by
  rw [drainFree_eq, drainFree_eq, withKeys_facet, h.sb]
  split
  · exact ⟨x, rfl, h⟩
  · exact ⟨x.setFacet p { x.facet p with sb := (drained s (s.facet p).sb).1 }, rfl, (h.setSb p _).congr rfl rfl rfl rfl⟩

theorem SameOpen.visible_withKeys {s x : State} (h : SameOpen s x) : ∃ y, visible (withKeys s x) = withKeys (visible s) y ∧ SameOpen (visible s) y := by
  unfold visible
  generalize List.range 72 = l
  induction l generalizing s x with
  | nil => exact ⟨x, rfl, h⟩
  | cons p l ih =>
    obtain ⟨y, hy, ho⟩ := h.drainFree_withKeys p
    rw [List.foldl_cons, List.foldl_cons, hy]
    exact ih ho

/-! ## What DBG_ACCESS shifts out -/

/-- An aperture unit admits an access that has no cause of refusal, and leaves the state as it was. -/
theorem aptCheck_of_admitted {s : State} {u a n m : Nat} {inWorld write served : Bool} (h : (aptCause s u a n m inWorld write served).1 = 0) :
    aptCheck s u a n m inWorld write served = (true, s) :=
  if_pos h

theorem aptCheck_of_refused {s : State} {u a n m : Nat} {inWorld write served : Bool} (h : (aptCause s u a n m inWorld write served).1 ≠ 0) :
    (aptCheck s u a n m inWorld write served).1 = false := by
  rw [aptCheck, if_neg h]

/-- The eight data bytes and the status byte that DBG_ACCESS shifts out (17 R427, R428). -/
def dbgShift (s : State) (t : DbgTarget) (write : Bool) : Bytes :=
  let good := fun (d : Bytes) => d ++ [0]
  let bad := List.replicate 8 0 ++ [1]
  match t with
  | .reg p r =>
    if !(s.right (haltRight s p)) ∨ (s.facet p).halt ≠ 1 then bad
    else if write then good (List.replicate 8 0) else good (dbgRegRead s p r)
  | .mem addr =>
    if s.right 4 && !(s.right 0) && !write && within addr.toNat 8 logBase (logBase + 0xFFFFF) then good (s.devRead addr.toNat 8)
    else if !(s.right 0) && !(s.right 2) then bad
    else match place (s.right 0) write addr.toNat 8 with
      | .glob u d =>
        if (aptCause s u d 8 0xB8 (s.right 0) write false).1 ≠ 0 then bad
        else if write then good (List.replicate 8 0) else good ((visible s).devRead addr.toNat 8)
      | _ => bad

theorem exec_loupeDbgAccess_out (t : DbgTarget) (write : Bool) (data : BitVec 64) (s : State) :
    ∃ u, exec (.loupeDbgAccess t write data) s = .next u ∧ u.out = if s.mainPower then dbgShift (loupeLeave s) t write else s.out := by
  refine ⟨_, rfl, ?_⟩
  unfold loupe
  cases s.mainPower with
  | false => rfl
  | true =>
    simp only [if_true]
    generalize loupeLeave s = s
    cases t with
    | reg p r =>
      simp only [dbgShift]
      split
      · rfl
      · split <;> rfl
    | mem addr =>
      simp only [dbgShift]
      split
      · rfl
      split
      · rfl
      cases place (s.right 0) write addr.toNat 8 with
      | glob u d =>
        by_cases hr : (aptCause s u d 8 0xB8 (s.right 0) write false).1 = 0
        · simp only [aptCheck_of_admitted hr, hr]
          cases write <;> rfl
        · simp [aptCheck_of_refused hr, hr]
          rfl
      | _ => rfl

theorem SameOpen.dbgShift_eq {s x : State} (h : SameOpen s x) (t : DbgTarget) (write : Bool) :
    dbgShift (withKeys s x) t write = dbgShift s t write := by
  cases t with
  | reg p r =>
    simp only [dbgShift, withKeys_right, withKeys_facet, h.halt, h.dbgRegRead_eq]
    rfl
  | mem addr =>
    obtain ⟨y, hy, ho⟩ := h.visible_withKeys
    simp only [dbgShift, withKeys_right, h.devRead_eq, hy, ho.devRead_eq]
    rfl

theorem loupeLeave_sameOpen {s x : State} (h : SameOpen s x) : SameOpen (loupeLeave s) x := by
  have e : loupeLeave s = withKeys (loupeLeave s) s := loupeLeave_withKeys s s
  have hf := congrArg State.facets e
  have hk := congrArg State.ks e
  exact h.congr hf hk rfl rfl

/-- Settles O55: a register access and the port's reading instructions commute with the exchange of the keys; what DBG_ACCESS
shifts out is open in both states. -/
theorem readsIgnoreKeyMaterial : Obligations.ReadsIgnoreKeyMaterial := by
  refine ⟨fun s x i hi => ?reads, fun s x t w d h => ?debug⟩
  case reads =>
    obtain ⟨a, r, len, hread⟩ | rfl | rfl | ⟨pads, drive, rfl⟩ := hi
    · exact ⟨_, exec_read s hread, by rw [exec_read _ hread, readAccess_withKeys]⟩
    all_goals exact exec_loupe_withKeys (fun _ => rfl) (fun s x => by rw [loupeLeave_withKeys]; rfl) s x
  case debug =>
    obtain ⟨u, hu, hout⟩ := exec_loupeDbgAccess_out t w d s
    obtain ⟨v, hv, hout'⟩ := exec_loupeDbgAccess_out t w d (withKeys s x)
    refine ⟨u, v, hu, hv, ?_⟩
    rw [hout, hout', loupeLeave_withKeys, (loupeLeave_sameOpen h).dbgShift_eq]
    rfl

end Sys2Proof.Machine
end

section
/-! # Block registers (02 R44 to R47, 03 R78)

An instruction on block registers waits for every block in flight and then has its effect on `settled h s`; a source that is not
permitted there is a guard of that effect. -/

namespace Sys2Proof.Machine

open Sys2Proof

/-! ## Issue behind the blocks in flight -/

section
variable {h : Slot} {s : State} {regs : List Nat}

theorem afterLens_fetched (hs : Survives h s) (k : State → State) : afterLens h k (fetched h s) = k (settled h s) := by
  rw [afterLens]
  exact if_neg hs.2

/-- An instruction behind the lenses that may issue has its effect on the settled state. -/
theorem issueLens_of_ready (hr : Ready h regs s) (hs : Survives h s) (k : State → State) : issueLens h s regs k = k (settled h s) := by
  rw [issueLens, hs.1, Bool.and_false, if_neg Bool.false_ne_true, issue_ready h s regs _ hr, afterLens_fetched hs]

section
variable {i : Instr} {k refuse : State → State} {bad : State → Bool} {t : State}

/-- A command that is an instruction behind the lenses, once it issues. -/
theorem exec_issueLens (hi : exec i s = .next (issueLens h s regs k)) (hr : Ready h regs s) (hs : Survives h s)
    (ht : k (settled h s) = t) : exec i s = .next t := by
  rw [hi, issueLens_of_ready hr hs, ht]

/-- The same for an effect `k` behind a guard: no `bad` source, and with one the work is refused. -/
theorem exec_issueLens_good (hi : exec i s = .next (issueLens h s regs (fun s => if bad s then refuse s else k s))) (hr : Ready h regs s)
    (hs : Survives h s) (hb : bad (settled h s) = false) (ht : k (settled h s) = t) : exec i s = .next t :=
  exec_issueLens hi hr hs ((if_neg (ne_true_of_eq_false hb)).trans ht)

theorem exec_issueLens_bad (hi : exec i s = .next (issueLens h s regs (fun s => if bad s then refuse s else k s))) (hr : Ready h regs s)
    (hs : Survives h s) (hb : bad (settled h s) = true) (ht : refuse (settled h s) = t) : exec i s = .next t :=
  exec_issueLens hi hr hs ((if_pos hb).trans ht)

end

end

/-- Settles O7: each operation is its effect on the settled state; BCTR alone looks at the seal of its source. -/
theorem blockRegisterOperationsComplete : Obligations.BlockRegisterOperationsComplete := by
  intro h bd bs1 bs2 n db sb dn sn v g s hs
  refine ⟨fun hr => ⟨?bxor, ?band, ?bshl, ?bshr, ?bmovb, ?bmovn, ?bctrOpen, ?bctrSealed, ?gcm, ?cmac, ?bcmp⟩,
    fun hr => ⟨?bctrOpen', ?bctrSealed'⟩⟩
  case bctrOpen | bctrOpen' => exact fun hx => exec_issueLens_good rfl hr hs hx rfl
  case bctrSealed | bctrSealed' => exact fun hx => exec_issueLens_bad rfl hr hs hx rfl
  case gcm => exact exec_issueLens rfl hr hs (by rw [if_pos rfl]; rfl)
  case cmac => exact exec_issueLens rfl hr hs (by rw [if_neg Bool.false_ne_true]; rfl)
  all_goals exact exec_issueLens rfl hr hs rfl

/-- Settles O8: the guards are the seals of the sources, and for TAG whether its source is a released result; the PIN-field instructions
are guarded by the format. -/
theorem openBlockInstructionsComplete : Obligations.OpenBlockInstructionsComplete := by
  refine ⟨Config.pairDigits, fun h bd bs1 bs2 g fmt s hs => ⟨fun hr => ?halves, fun hr hx => ?field, fun hfmt => ?pin⟩⟩
  case halves =>
    exact ⟨fun hz => ⟨exec_issueLens_good rfl hr hs hz rfl, exec_issueLens_good rfl hr hs hz rfl⟩,
      fun hx => ⟨exec_issueLens_good rfl hr hs hx rfl, exec_issueLens_good rfl hr hs hx rfl⟩⟩
  case field =>
    exact ⟨fun hy => exec_issueLens_good rfl hr hs (Bool.or_eq_false_iff.2 ⟨hx, hy⟩) rfl, exec_issueLens_good rfl hr hs hx rfl,
      fun hrel => exec_issueLens_good rfl hr hs (Bool.or_eq_false_iff.2 ⟨hx, congrArg not hrel⟩) rfl⟩
  case pin =>
    have hok : (!pinFmtOk fmt.toNat) = false := by obtain rfl | rfl | rfl | rfl := hfmt <;> rfl
    refine ⟨fun hr => ⟨?pext, exec_issueLens_good rfl hr hs hok rfl, exec_issueLens_good rfl hr hs hok rfl⟩,
      fun hr => exec_issueLens_good rfl hr hs hok rfl⟩
    by_cases hlen : (fieldNibbles fmt.toNat (getB (settled h s) h.p.val bs1).val).getD 1 0 ≤ 12
    · exact ⟨_, _, exec_issueLens_good rfl hr hs hok (if_pos hlen), fun _ => ⟨rfl, rfl⟩⟩
    · exact ⟨_, _, exec_issueLens_good rfl hr hs hok (if_neg hlen), fun h => absurd h hlen⟩

end Sys2Proof.Machine
end

section
/-! # Lenses and the block sequencer (02 R29 to R47, 03 Table 03.4A), with the loads and stores of a facet (03 R53, R74) -/

namespace Sys2Proof.Machine

open Sys2Proof

/-! ## Loads and stores -/

section
variable {s : State} {p a n : Nat} {write : Bool}

theorem accessOk_of_local (hp : place (inner s p) write a n = .loc) : accessOk s p a n write = (.loc, s) := by
  rw [accessOk, hp]

theorem accessOk_of_admitted {u d : Nat} (hp : place (inner s p) write a n = .glob u d)
    (ha : (aptCause s u d n p (inner s p) write false).1 = 0) : accessOk s p a n write = (.glob u d, s) := by
  simp only [accessOk, hp, aptCheck_of_admitted ha, if_true]

end

section
variable {h : Slot} {i : Instr} {s u : State} {a : Nat}

theorem loads_of_exec {n : Nat} {k : Bytes → State → State} (hi : exec i s = .next (loadBytes h u a n k)) : Loads h i s u a n k := by
  refine ⟨fun hp he => ?_, fun un d hp ha hm => ?_⟩
  · simp only [hi, loadBytes, accessOk_of_local hp, he, if_true]
  · simp only [hi, loadBytes, accessOk_of_admitted hp ha, hm, Bool.false_eq_true, if_false]

theorem stores_of_exec {data : Bytes} (hi : exec i s = .next (storeBytes h u a data)) : Stores h i s u a data := by
  refine ⟨fun hp he => ?_, fun un d hp ha => ?_⟩
  · simp only [hi, storeBytes, accessOk_of_local hp, he, if_true]
  · simp only [hi, storeBytes, accessOk_of_admitted hp ha]

end

/-! ## Instructions that need K -/

theorem fetched_cls (h : Slot) (s : State) : ((fetched h s).facet h.p.val).cls = (s.facet h.p.val).cls := by
  rw [fetched_facet]
  rfl

/-- With a key in K and no load pending, an instruction that needs K has its effect on the fetched state under that key (02 R38). -/
theorem issueK_of_ready {h : Slot} {s : State} {regs : List Nat} {key : KReg} (hr : Ready h regs s) (hl : (s.facet h.p.val).ldk = none)
    (hk : (s.facet h.p.val).k = some key) (k : KReg → State → State) : issueK h s regs k = k key (fetched h s) := by
  simp [issueK, hl, issue_ready h s regs _ hr, fetched_facet, hk]

/-! ## LENS -/

section
variable {h : Slot} {bd bs1 bs2 : BR} {sel dir dest : Nat} {k : KReg} {s : State} {d : LensDst}

/-- What 02 Table 02.6 permits LENS under K: the class, the direction and the destination. -/
structure LensPermits (h : Slot) (bd : BR) (dir dest : Nat) (k : KReg) (s : State) (d : LensDst) : Prop where
  cls : classOk k.use (s.facet h.p.val).cls = true
  use : (useDirs k.use).contains dir = true
  alg : algDir k.alg dir = true
  dst : lensDest s h.p.val k.use bd.val dest = some d

/-- A source of LENS is open, or the use code takes sealed input (02 R46). -/
def lensInput (h : Slot) (k : KReg) (s : State) (b : BR) : Prop :=
  (getB s h.p.val b).sld = false ∨ useSealedIn k.use (s.facet h.p.val).cls = true

theorem lensIssue_of_permitted (hp : LensPermits h bd dir dest k s d) (hx : lensInput h k s bs1) (hy : sel = 2 → lensInput h k s bs2) :
    lensIssue h bd bs1 bs2 sel dir dest false k s =
      let t := lensPush s h.p.val (if sel = 1 then 1 else 0) k dir (getB s h.p.val bs1).val d
      if sel = 2 then
        lensPush t h.p.val 1 k dir (getB s h.p.val bs2).val
          ((lensDest t h.p.val k.use (Config.pairedDest bd).val (if dest = 1 then 2 else dest)).getD d)
      else t := by
  obtain ⟨hc, hu, ha, hd⟩ := hp
  have hguard : (((getB s h.p.val bs1).sld || (decide (sel = 2) && (getB s h.p.val bs2).sld)) &&
      !(useSealedIn k.use (s.facet h.p.val).cls)) = false := by
    unfold lensInput at hx hy
    grind
  have hxor : (getB s h.p.val bs1).val ^^^ 0 = (getB s h.p.val bs1).val := BitVec.xor_zero
  simp only [lensIssue, hc, hu, ha, hd, hguard, hxor, Bool.not_true, Bool.or_self, Bool.false_and, if_false, Bool.false_eq_true]

end

theorem exec_lens_of_ready {h : Slot} {s : State} {k : KReg} (hr : Ready h [] s) (hl : (s.facet h.p.val).ldk = none)
    (hsome : (s.facet h.p.val).k.isSome) (hs : Survives h s) (hk : ((settled h s).facet h.p.val).k = some k) (bd bs1 bs2 : BR)
    (sel : BitVec 2) {dir dest : BitVec 3} (hdir : dir.toNat < 4) (hdest : dest.toNat < 5) (subj : Bool) :
    exec (.lens h bd bs1 bs2 sel dir dest subj) s =
      .next (lensIssue h bd bs1 bs2 sel.toNat dir.toNat dest.toNat subj k (settled h s)) := by
  obtain ⟨key, hkey⟩ := Option.isSome_iff_exists.1 hsome
  refine congrArg Host.Outcome.next ((if_neg (by omega)).trans ?_)
  rw [issueK_of_ready hr hl hkey, afterLens_fetched hs, hk]

/-! ## The other instructions of the lenses and the sequencer -/

theorem exec_hset_of_ready {h : Slot} {s : State} {k : KReg} (hr : Ready h [] s) (hl : (s.facet h.p.val).ldk = none)
    (hk : (s.facet h.p.val).k = some k) (hc : classOk k.use (s.facet h.p.val).cls = true) (hu : (useDirs k.use).contains 0 = true)
    (ha : algDir k.alg 0 = true) (hd : (useBlockDest k.use (s.facet h.p.val).cls).isSome = true) :
    exec (.hset h) s = .next (lensPush (fetched h s) h.p.val 0 k 0 0 .hsub) := by
  obtain ⟨b, hb⟩ := Option.isSome_iff_exists.1 hd
  refine congrArg Host.Outcome.next ((issueK_of_ready hr hl hk _).trans (if_neg ?_))
  rw [fetched_cls, hc, hu, ha, hb]
  exact Bool.false_ne_true

theorem recipePermitted_of {f : Facet} {recipe : Bytes} {k : KReg} (hc : classOk k.use f.cls = true)
    (hu : (useDirs k.use).contains (byteAt recipe 1) = true) (hd : useBlockDest k.use f.cls = some false)
    (ha : algDir k.alg (byteAt recipe 1) = true) : recipePermitted f recipe k = true := by
  rw [recipePermitted, hc, hu, hd, ha]
  rfl

theorem recipeSealed_of_accepted {s : State} {p : Nat} {recipe : Bytes} {ctr : BR} {k : KReg}
    (h : byteAt recipe 0 ≠ 1 ∨ (getB s p ctr).sld = false ∨ useSealedIn k.use (s.facet p).cls = true) :
    recipeSealed (s.facet p) recipe ctr.val k = false := by
  rw [getB] at h
  obtain h | h | h := h <;> simp [recipeSealed, h]

theorem exec_seqgo_of_ready {h : Slot} {s : State} {k : KReg} {q : Fin 4} {ctr : BR} {sl : SeqSlot} (hr : Ready h [] s)
    (hl : (s.facet h.p.val).ldk = none) (hk : (s.facet h.p.val).k = some k) (hs : Survives h s)
    (hsl : tget none ((settled h s).facet h.p.val).seq q.val = some sl)
    (hp : recipePermitted ((settled h s).facet h.p.val) sl.recipe k = true)
    (hc : recipeSealed ((settled h s).facet h.p.val) sl.recipe ctr.val k = false) (count : Fin 65536) :
    exec (.seqgo h q ctr count) s = .next ((settled h s).modFacet h.p.val (fun f => { f with
      seq := tset none f.seq q.val (some ⟨sl.recipe, count.val + 1, 0, ctr.val⟩) })) := by
  refine congrArg Host.Outcome.next ((issueK_of_ready hr hl hk _).trans ((afterLens_fetched hs _).trans ?_))
  simp only [hsl, hp, hc, Bool.not_true, Bool.false_eq_true, if_false]

theorem exec_seqwait_of_ready {h : Slot} {s : State} (hr : Ready h [] s) (hh : seqHeld (s.facet h.p.val) = false) (q : Fin 4)
    (hpc : ((lensDrain ((fetched h s).facet h.p.val).lens.length (fetched h s) h.p.val).facet h.p.val).pc ≠ 0) :
    exec (.seqwait h q) s =
      let w := lensDrain ((fetched h s).facet h.p.val).lens.length (fetched h s) h.p.val
      .next (seqRun h.ecc (seqLeft w h.p.val q.val) w h.p.val q.val) := by
  refine congrArg Host.Outcome.next ((if_neg ?_).trans ((issue_ready h s [] _ hr).trans (if_neg hpc)))
  rw [hh, Bool.and_false]
  exact Bool.false_ne_true

/-- Settles O9: each instruction, once it issues under K, passes the checks of 02 Table 02.6 by hypothesis. -/
theorem lensInstructionsComplete : Obligations.LensInstructionsComplete := by
  intro h bd bs1 bs2 ctr sel dir dest q s1 imm count k s p u cls
  refine ⟨fun hr hl hsome hs hk hc d hdir hdest hu ha hd hx => ?lens, exec_hset_of_ready, ?seqgo, fun hr hs => ?seqld,
    fun hr hh => exec_seqwait_of_ready hr hh q⟩
  case lens =>
    have hp : LensPermits h bd dir.toNat dest.toNat k u d := ⟨hc, hu, ha, hd⟩
    have hsel : sel.toNat = 2 ↔ sel = 2 := by bv_omega
    have hone : sel.toNat = 1 ↔ sel = 1 := by bv_omega
    rw [exec_lens_of_ready hr hl hsome hs hk bd bs1 bs2 sel hdir hdest]
    refine ⟨fun h2 => ?_, fun h2 hy => ?_⟩
    · rw [lensIssue_of_permitted hp hx (fun e => absurd (hsel.1 e) h2)]
      simp only [hsel, if_neg h2, hone]
      rfl
    · rw [lensIssue_of_permitted hp hx (fun _ => hy)]
      subst h2
      exact ⟨_, rfl⟩
  case seqgo =>
    intro hr hl hk hs hc sl hsl hu ha hd hin
    exact exec_seqgo_of_ready hr hl hk hs hsl (recipePermitted_of hc hu hd ha) (recipeSealed_of_accepted hin) count
  case seqld => exact loads_of_exec (congrArg Host.Outcome.next (issueLens_of_ready hr hs _))

end Sys2Proof.Machine
end

section
/-! # The hash unit and the check-value unit of a facet (02 R48, 12 R327) -/

namespace Sys2Proof.Machine

open Sys2Proof

section
variable {h : Slot} {s : State}

theorem exec_hinit_unkeyed (hr : Ready h [] s) (alg : Fin 12) :
    exec (.hinit h alg false) s =
      .next ((fetched h s).modFacet h.p.val (fun f => { f with hash := some ⟨alg.val, false, [], 0, []⟩ })) :=
  congrArg Host.Outcome.next ((if_neg Bool.false_ne_true).trans (issue_ready h s [] _ hr))

theorem exec_hinit_keyed {alg : Fin 12} {k : KReg} (hr : Ready h [] s) (hl : (s.facet h.p.val).ldk = none)
    (hk : (s.facet h.p.val).k = some k) (hu : k.use = 6 ∨ k.use = 7) (hc : classOk k.use (s.facet h.p.val).cls = true) (ha : alg.val < 10) :
    exec (.hinit h alg true) s =
      .next ((fetched h s).modFacet h.p.val (fun f => { f with hash := some ⟨alg.val, true, k.key, k.use, []⟩ })) := by
  refine congrArg Host.Outcome.next ((if_pos rfl).trans ((if_neg (by omega)).trans ((issueK_of_ready hr hl hk _).trans (if_pos ?_))))
  exact ⟨hu, (fetched_cls h s).symm ▸ hc⟩

/-- The hash unit of the fetched facet is that of the facet. -/
theorem fetched_hash {x : HashSt} (hx : (s.facet h.p.val).hash = some x) : ((fetched h s).facet h.p.val).hash = some x := by
  rw [fetched_facet]
  exact hx

/-- An instruction that issues has its effect on the fetched state. -/
theorem exec_issue {i : Instr} {regs : List Nat} {k : State → State} {t : State} (hi : exec i s = .next (issue h s regs k))
    (hr : Ready h regs s) (ht : k (fetched h s) = t) : exec i s = .next t := by
  rw [hi, issue_ready h s regs k hr, ht]

theorem exec_hfin_block {b : BR} {x : HashSt} (hr : Ready h [] s) (hs : Survives h s)
    (hx : ((settled h s).facet h.p.val).hash = some x) :
    exec (.hfin h (.blk b)) s = .next (setB ((settled h s).modFacet h.p.val (fun f => { f with hash := none })) h.p.val b
      ⟨blockOf x.result, x.keyed && decide (x.use = 7), false, false, false⟩) := by
  refine exec_issueLens rfl hr hs ?_
  simp only [hx]
  rfl

end

/-- Settles O11: memory operands pass through the rules for loads and stores. -/
theorem hashAndCheckValueInstructionsComplete : Obligations.HashAndCheckValueInstructionsComplete := by
  refine ⟨Config.hashImage, fun h d s1 s2 b alg s => ?_⟩
  intro p u w f a1 a2
  refine ⟨fun hr => ?units, fun hr => ?memory, fun hr x hx => ?save, fun hr x hx => ?restore, fun hr c hc => ?value⟩
  case units =>
    exact ⟨exec_hinit_unkeyed hr alg, fun k hl hk hu hc ha => exec_hinit_keyed hr hl hk hu hc ha,
      fun hs => ⟨fun hb => exec_issueLens_good rfl hr hs hb rfl, fun x hx => exec_hfin_block hr hs hx⟩⟩
  case memory =>
    refine ⟨fun hpos => loads_of_exec (exec_issue rfl hr ?_), fun hlt => exec_issue rfl hr ?_,
      fun hpos hle => loads_of_exec (exec_issue rfl hr ?_)⟩ <;> simp only [getG_fetched]
    · exact if_neg (Nat.ne_of_gt hpos)
    · exact if_neg (Nat.not_le.2 hlt)
    · exact if_neg (not_or.2 ⟨Nat.ne_of_gt hpos, Nat.not_lt.2 hle⟩)
  case save =>
    refine ⟨fun hopen => stores_of_exec (exec_issue rfl hr ?_), fun hkey hin => stores_of_exec (exec_issue rfl hr ?_)⟩ <;>
      simp only [getG_fetched, fetched_hash hx]
    · exact if_neg hopen
    · exact (if_neg (ne_true_of_eq_false hkey)).trans (if_pos hin)
  case restore =>
    have hx : tget none (s.facet h.p.val).hsaved (getG s h.p.val s1).toNat = some x := hx
    refine loads_of_exec (exec_issue rfl hr ?_)
    simp only [getG_fetched, fetched_facet, hx]
    rfl
  case value =>
    have hc : (s.facet h.p.val).cvu = some c := hc
    refine exec_issue rfl hr ?_
    simp only [fetched_facet, hc]
    rfl

end Sys2Proof.Machine
end

section
/-! # The key register (02 R34 to R39, 04 R83, R90 to R93) -/

namespace Sys2Proof.Machine

open Sys2Proof

/-! ## What the fetch and a count leave of the key store -/

theorem fetched_ks (h : Slot) (s : State) : (fetched h s).ks = s.ks := by
  have hp (t : State) (p code n : Nat) : (perf t p code n).ks = t.ks := by
    have e := congrArg State.ks (perf_spec t p code n).1
    exact e
  rw [fetched, modFacet_ks, hp, hp]

theorem fetched_ring (h : Slot) (s : State) : (fetched h s).ring = s.ring := by
  have hp (t : State) (p code n : Nat) : (perf t p code n).ring = t.ring := by
    have e := congrArg State.ring (perf_spec t p code n).1
    exact e
  rw [fetched, modFacet_ring, hp, hp]

theorem kidx_of_ring {s t : State} (h : t.ring = s.ring) (o n : Nat) : kidx t o n = kidx s o n := by
  rw [kidx, spaceOf, h, kidx, spaceOf]

theorem cached_of_ks {s t : State} (h : t.ks = s.ks) (i : Nat) : cached t i = cached s i := by
  rw [cached, h, cached]

theorem incWrap_ks (s : State) (f : Fld) (i j : Nat) : (s.incWrap f i j).ks = s.ks := rfl
theorem incWrap_ring (s : State) (f : Fld) (i j : Nat) : (s.incWrap f i j).ring = s.ring := rfl
theorem incWrap_facet (s : State) (f : Fld) (i j p : Nat) : (s.incWrap f i j).facet p = s.facet p := rfl

theorem fetched_owner (h : Slot) (s : State) : ((fetched h s).facet h.p.val).owner = (s.facet h.p.val).owner := by
  rw [fetched_facet]

theorem fetched_entry (h : Slot) (s : State) : ((fetched h s).facet h.p.val).entry = (s.facet h.p.val).entry := by
  rw [fetched_facet]

/-! ## LDK -/

section
variable {h : Slot} {d s1 : GR} {use : BitVec 8} {s : State}

/-- An LDK that check 1 of 02 Table 02.5 permits. -/
structure LdkIssues (h : Slot) (d s1 : GR) (use : BitVec 8) (s : State) : Prop where
  ready : Ready h [d.val, s1.val] s
  idle : (s.facet h.p.val).ldk = none
  inK : useInK use.toNat = true
  cls : classOk use.toNat (s.facet h.p.val).cls = true
  uses : ∃ e, (s.facet h.p.val).entry = some e ∧ e.uses.testBit use.toNat = true

/-- The record that an LDK names. -/
def ldkIndex (h : Slot) (s1 : GR) (s : State) : Nat :=
  kidx s (s.facet h.p.val).owner ((getG s h.p.val s1).toNat % 4294967296)

/-- The request of an LDK. -/
def ldkReq (h : Slot) (d s1 : GR) (use : BitVec 8) (s : State) : LdkReq :=
  ⟨d.val, (getG s h.p.val s1).toNat % 4294967296, use.toNat⟩

/-- An LDK that issues finds its record cached, and is delivered at once. -/
theorem exec_ldk_of_cached (hi : LdkIssues h d s1 use s) (hcached : cached s (ldkIndex h s1 s) = true) :
    exec (.ldk h d s1 use) s = .next (ldkDeliver
      (cacheTake (((fetched h s).incWrap F.FCT_LDK h.p.val).modFacet h.p.val (fun f => { f with ldk := some (ldkReq h d s1 use s) }))
        (ldkIndex h s1 s) false) h.p.val (ldkReq h d s1 use s)) := by
  obtain ⟨hr, hl, hin, hc, e, he, hu⟩ := hi
  have hk := kidx_of_ring (fetched_ring h s)
  have hring := incWrap_ring (fetched h s) F.FCT_LDK h.p.val 0
  refine congrArg Host.Outcome.next ((if_neg (by simp [hl])).trans ((issue_ready h s _ _ hr).trans ?_))
  simp only [incWrap_facet, fetched_cls, fetched_owner, fetched_entry, getG_fetched, he, hin, hc, hu, kidx_of_ring hring, hk,
    cached_of_ks (incWrap_ks _ _ _ _), cached_of_ks (fetched_ks h s), Bool.not_true, Bool.or_self, Bool.false_eq_true, if_false]
  exact if_pos hcached

/-- An LDK that issues finds its record not cached, and waits for a fill, the only one. -/
theorem exec_ldk_of_miss (hi : LdkIssues h d s1 use s) (hcached : cached s (ldkIndex h s1 s) = false) (hfills : s.ks.fills = []) :
    exec (.ldk h d s1 use) s = .next (showK (setKs
      ((((fetched h s).incWrap F.FCT_LDK h.p.val).incWrap F.FCT_LDK_MISS h.p.val).modFacet h.p.val
        (fun f => { f with ldk := some (ldkReq h d s1 use s), k := none, kTouched := true }))
      { s.ks with fills := [⟨ldkIndex h s1 s, [h.p.val]⟩] }) h.p.val) := by
  obtain ⟨hr, hl, hin, hc, e, he, hu⟩ := hi
  have hk := kidx_of_ring (fetched_ring h s)
  have hring := incWrap_ring (fetched h s) F.FCT_LDK h.p.val 0
  have hmiss (g : Facet → Facet) (o n : Nat) :
      kidx ((((fetched h s).incWrap F.FCT_LDK h.p.val).incWrap F.FCT_LDK_MISS h.p.val).modFacet h.p.val g) o n = kidx s o n :=
    kidx_of_ring (by rw [modFacet_ring, incWrap_ring, incWrap_ring, fetched_ring]) o n
  refine congrArg Host.Outcome.next ((if_neg (by simp [hl])).trans ((issue_ready h s _ _ hr).trans ?_))
  simp only [incWrap_facet, fetched_cls, fetched_owner, fetched_entry, getG_fetched, he, hin, hc, hu, kidx_of_ring hring, hk,
    cached_of_ks (incWrap_ks _ _ _ _), cached_of_ks (fetched_ks h s), Bool.not_true, Bool.or_self, Bool.false_eq_true, if_false]
  refine (if_neg (ne_true_of_eq_false hcached)).trans ?_
  simp only [modFacet_ks, incWrap_ks, fetched_ks, hfills, hmiss, List.any_nil, Bool.false_eq_true, if_false, List.nil_append,
    ldkReq, ldkIndex]

end

theorem ldkDeliver_of_granted {s : State} {p : Nat} {l : LdkReq} {r : KeyRec}
    (hk : keyCheck s (s.facet p).owner (inner s p) (workAcc s p) l.handle l.use = (sOk, r))
    (hm : mustWait s (.ldk p) (kidx s (s.facet p).owner l.handle) = false) (hlease : r.leaseSpent = false) :
    ldkDeliver s p l = ldkLoads (useOne s (kidx s (s.facet p).owner l.handle)) p l.dest r l.use := by
  simp only [ldkDeliver, hk, hm, hlease, ne_eq, not_true_eq_false, if_false, Bool.false_eq_true]

/-! ## The fill and the lease -/

theorem exec_unsealFillComplete_of_fill {space : Fin 17} {index : Fin 33554432} {s : State} {x : Fill}
    (hx : s.ks.fills.find? (fun x => x.index == space.val * 33554432 + index.val) = some x)
    (hkey : (pageKey s (pageOf (space.val * 33554432 + index.val))).isSome = true) :
    exec (.unsealFillComplete space index true) s =
      let j := space.val * 33554432 + index.val
      let t := setKs s { s.ks with fills := s.ks.fills.filter (fun y => y.index != j) }
      .next (fillDeliver (if recordSound t j then cacheTake t j false else recordBad t j) j x.facets) := by
  have hnone : (pageKey s (pageOf (space.val * 33554432 + index.val))).isNone = false := by
    rw [← Option.not_isSome, hkey, Bool.not_true]
  refine congrArg Host.Outcome.next ?_
  simp only [hx, hnone, Bool.true_and, Bool.false_eq_true, and_false, if_false]

theorem exec_leaseMarkCommit_of_free {space : Fin 17} {hd : Word} {s : State}
    (ha : s.ks.advance.contains (space.val * 33554432 + hIdx hd.toNat) = true)
    (hm : markFull s (space.val * 33554432 + hIdx hd.toNat) = false)
    (hf : s.fenced (s.krec (space.val * 33554432 + hIdx hd.toNat)).owner = false) :
    exec (.leaseMarkCommit space hd) s =
      let j := space.val * 33554432 + hIdx hd.toNat
      let t := markWrite s j
      .next (markShow (leaseServe (t.ks.leaseWait.length + 1) t j)) := by
  refine congrArg Host.Outcome.next ?_
  simp only [ha, hm, hf, Bool.or_self, Bool.and_false, Bool.false_eq_true, if_false, if_true]

/-! ## KSET, KVAR and KCOMMIT -/

section
variable {h : Slot} {s : State} {k : KReg}

/-- KSET and KVAR do not issue while a load is pending, and then wait for the lenses. -/
theorem issueKey_of_ready (hr : Ready h [] s) (hl : (s.facet h.p.val).ldk = none) (hs : Survives h s) (f : State → State) :
    issueKey h s f = f (settled h s) := by
  simp [issueKey, hl, issueLens_of_ready hr hs]

theorem exec_kset_of_permitted {use : BitVec 8} {alg : BitVec 4} {a : Nat} (hr : Ready h [] s) (hl : (s.facet h.p.val).ldk = none)
    (hs : Survives h s) (hk : ((settled h s).facet h.p.val).k = some k) (hc : classOk k.use ((settled h s).facet h.p.val).cls = true)
    (ha : ksetAlg alg.toNat = some a) (ht : (useTargets k.use).contains use.toNat = true)
    (hv : vendorEntry ((settled h s).facet h.p.val) = true ∨ (use ≠ 10 ∧ use ≠ 11 ∧ use ≠ 13)) :
    exec (.kset h use alg) s = .next (setK (settled h s) h.p.val
      (some ⟨derivKey ((settled h s).facet h.p.val).deriv a, a, use.toNat, ((settled h s).facet h.p.val).cls, 0⟩)) := by
  have hvendor : ((use.toNat = 10 || use.toNat = 11 || use.toNat = 13) && !(vendorEntry ((settled h s).facet h.p.val))) = false := by
    obtain hv | ⟨h10, h11, h13⟩ := hv
    · rw [hv, Bool.not_true, Bool.and_false]
    · have : use.toNat ≠ 10 ∧ use.toNat ≠ 11 ∧ use.toNat ≠ 13 := by bv_omega
      simp [this]
  refine congrArg Host.Outcome.next ((issueKey_of_ready hr hl hs _).trans ?_)
  simp only [ha, hk, ht, hc, hvendor, Bool.not_true, Bool.or_self, Bool.false_eq_true, if_false]

theorem exec_kvar_of_permitted {v : VR} (hr : Ready h [] s) (hl : (s.facet h.p.val).ldk = none)
    (hs : Survives h s) (hk : ((settled h s).facet h.p.val).k = some k) (hc : classOk k.use ((settled h s).facet h.p.val).cls = true)
    (ht : hasTargets k.use = true) :
    exec (.kvar h v) s = .next ((settled h s).modFacet h.p.val (fun f =>
      { f with deriv := derivOf k.alg k.key ^^^ getV (settled h s) h.p.val v })) := by
  refine congrArg Host.Outcome.next ((issueKey_of_ready hr hl hs _).trans ?_)
  simp only [hk, ht, hc, Bool.not_true, Bool.or_self, Bool.false_eq_true, if_false]

end

/-- KCOMMIT that passes the creation checks creates the record of the subject lane's key. -/
theorem exec_kcommit_of_created {h : Slot} {d : GR} {attr : Bytes} {s t : State} {k : KReg} {x : SubjectLane} {j : Nat}
    (hr : Ready h [d.val] s) (hl : (s.facet h.p.val).ldk = none) (hs : Survives h s) (hk : (s.facet h.p.val).k = some k)
    (hu : k.use = 4) (hc : classOk 4 ((settled h s).facet h.p.val).cls = true)
    (hck : creationCheck (settled h s) ((settled h s).facet h.p.val).owner (attrOf attr) = sOk)
    (hext : isExtAlg (attrOf attr).alg = false) (halg : (attrOf attr).alg ≠ 7)
    (hx : ((settled h s).facet h.p.val).subject = some x) (hpos : 0 < algKeyLen (attrOf attr).alg)
    (hmax : algKeyLen (attrOf attr).alg ≤ 32) (hlen : algKeyLen (attrOf attr).alg ≤ x.kept.length)
    (hnew : createRec (settled h s) (newKeyOf ((settled h s).facet h.p.val).owner (attrOf attr) 3
      (x.kept.take (algKeyLen (attrOf attr).alg)) none) = some (j, t)) :
    exec (.kcommit h d attr) s =
      .next (setG (t.modFacet h.p.val (fun f => { f with subject := none })) h.p.val d (BitVec.ofNat 64 sOk)) := by
  have hbad : ¬ (isExtAlg (attrOf attr).alg = true ∨ x.kept.length < algKeyLen (attrOf attr).alg ∨ algKeyLen (attrOf attr).alg = 0 ∨
      32 < algKeyLen (attrOf attr).alg) := by
    simp only [hext, Bool.false_eq_true, false_or]
    omega
  refine congrArg Host.Outcome.next ((issueK_of_ready hr hl hk _).trans ((afterLens_fetched hs _).trans ?_))
  simp only [hu, hc, hck, halg, hx, hbad, hnew, ne_eq, not_true_eq_false, Bool.not_true, Bool.false_eq_true, or_self, if_false]

/-- Settles O10: each of the seven cases is the equation of its instruction above, at the record, the use code and the algorithm
that the case names. -/
theorem keyRegisterInstructionsComplete : Obligations.KeyRegisterInstructionsComplete := by
  unfold Obligations.KeyRegisterInstructionsComplete
  intro h d s1 use alg v attr space index hd s p u w f n i l u1 c
  refine ⟨fun hr hl hin hc he => ?_, fun x hx hkey => exec_unsealFillComplete_of_fill hx hkey,
    fun ha hm hf => exec_leaseMarkCommit_of_free ha hm hf, fun hr hl hs k hk hc => ⟨fun a ha ht hv => ?_, fun ht => ?_⟩,
    fun hr hl hs k hk hu hc hck hext halg x hx hpos hmax hlen j t hnew =>
      exec_kcommit_of_created hr hl hs hk hu hc hck hext halg hx hpos hmax hlen hnew⟩
  · have hi : LdkIssues h d s1 use s := ⟨hr, hl, hin, hc, he⟩
    exact ⟨exec_ldk_of_miss hi, fun hcached r hk hm hlease =>
      (exec_ldk_of_cached hi hcached).trans (congrArg Host.Outcome.next (ldkDeliver_of_granted hk hm hlease))⟩
  · exact exec_kset_of_permitted hr hl hs hk hc ha ht hv
  · exact exec_kvar_of_permitted hr hl hs hk hc ht

end Sys2Proof.Machine
end

section
/-! # Integer instructions of a facet (03 R55, R56, Table 03.3)

An integer instruction is an effect behind `issue`. What it may change is the relation `IntegerFrame`, which is reflexive and
transitive, so each part of the way (the count of the fetch, a register write, a jump) is looked at once. -/

namespace Sys2Proof.Machine

open Sys2Proof

/-! ## What an integer instruction may change -/

/-- From `s` to `t` nothing has changed but general registers, program counter, C, the discard flag and the debug halt of facet `p`, and its
performance counters. -/
structure IntegerFrame (p : Nat) (s t : State) : Prop where
  outside : { t with facets := s.facets, regs := s.regs } = s
  others : ∀ q, q ≠ p → t.facet q = s.facet q
  regs : ∀ off, ¬ isPerf p off → t.reg off = s.reg off
  own : { t.facet p with g := (s.facet p).g, pc := (s.facet p).pc, c := (s.facet p).c, squash := (s.facet p).squash, halt := (s.facet p).halt } =
    s.facet p

namespace IntegerFrame

variable {p : Nat} {s t u : State}

theorem refl (p : Nat) (s : State) : IntegerFrame p s s := ⟨rfl, fun _ _ => rfl, fun _ _ => rfl, rfl⟩

theorem trans (h : IntegerFrame p s t) (k : IntegerFrame p t u) : IntegerFrame p s u where
  outside := (congrArg (fun x : State => { x with facets := s.facets, regs := s.regs }) k.outside).trans h.outside
  others q hq := (k.others q hq).trans (h.others q hq)
  regs off ho := (k.regs off ho).trans (h.regs off ho)
  own := (congrArg (fun f : Facet => { f with
    g := (s.facet p).g, pc := (s.facet p).pc, c := (s.facet p).c, squash := (s.facet p).squash, halt := (s.facet p).halt }) k.own).trans h.own

/-- An update of the facet stays in the frame when it touches only the five fields. -/
theorem modFacet (s : State) {p : Nat} {f : Facet → Facet}
    (hf : ∀ x, { f x with g := x.g, pc := x.pc, c := x.c, squash := x.squash, halt := x.halt } = x) : IntegerFrame p s (s.modFacet p f) where
  outside := rfl
  others q hq := facet_setFacet_other s p q _ hq
  regs _ _ := rfl
  own := by rw [State.modFacet, facet_setFacet_same, hf]

theorem perf (s : State) (p code n : Nat) : IntegerFrame p s (perf s p code n) where
  outside := by
    have h := congrArg (fun x : State => { x with facets := s.facets }) (perf_spec s p code n).1
    exact h
  others q _ := perf_facet s p code n q
  regs := (perf_spec s p code n).2
  own := by rw [perf_facet]

theorem fetched (h : Slot) (s : State) : IntegerFrame h.p.val s (fetched h s) :=
  ((perf s _ _ _).trans (perf _ _ _ _)).trans (modFacet _ fun _ => rfl)

theorem setG (s : State) (p : Nat) (d : GR) (x : W64) : IntegerFrame p s (setG s p d x) := by
  unfold Machine.setG
  split
  · exact refl p s
  · exact modFacet s fun _ => rfl

theorem setC (s : State) (p : Nat) (c : Bool) : IntegerFrame p s (setC s p c) := modFacet s fun _ => rfl

theorem goTo (h : Slot) (s : State) (n : Nat) : IntegerFrame h.p.val s (goTo h s n) := modFacet s fun _ => rfl

/-- Issuing adds the count of the fetch and moves the program counter, the halt and the discard flag alone. -/
theorem issue {h : Slot} (hparity : h.parity = false) (halone : h.also = []) (s : State) (regs : List Nat) {k : State → State}
    (hk : ∀ u, IntegerFrame h.p.val u (k u)) : IntegerFrame h.p.val s (issue h s regs k) := by
  unfold Machine.issue
  extract_lets p f u
  have hu : IntegerFrame p s u := by
    unfold u
    split
    · exact modFacet s fun _ => rfl
    · exact refl p s
  split
  · exact refl p s
  split
  · exact hu.trans (modFacet u fun _ => rfl)
  split
  · exact hu
  · simp only [withCauses, halone, hparity, if_true, Bool.false_eq_true, if_false, Bool.not_true]
    exact hu.trans ((fetched h u).trans (hk _))

end IntegerFrame

/-- A conditional branch jumps or leaves the fetched state. -/
theorem IntegerFrame.branch (h : Slot) (u : State) (c : Bool) (n : Nat) : IntegerFrame h.p.val u (if c then Machine.goTo h u n else u) := by
  split
  · exact goTo h u n
  · exact refl _ u

/-- An integer instruction is an effect behind `issue` that stays in the frame: a register write, with C or without, or a jump. -/
theorem exec_integer {i : Instr} {h : Slot} (hi : integerSlot i = some h) :
    ∃ regs k, (∀ s, exec i s = .next (issue h s regs k)) ∧ ∀ u, IntegerFrame h.p.val u (k u) := by
  cases i with
  | addc | subb =>
    cases hi
    exact ⟨_, _, fun _ => rfl, fun u => (IntegerFrame.setG u _ _ _).trans (IntegerFrame.setC _ _ _)⟩
  | jr | j =>
    cases hi
    exact ⟨_, _, fun _ => rfl, fun u => IntegerFrame.goTo _ u _⟩
  | beq | bne | blt | bge =>
    cases hi
    exact ⟨_, _, fun _ => rfl, fun u => IntegerFrame.branch _ u _ _⟩
  | add | sub | and | or | xor | shl | shr | sar | slt | sltu | mul | mulh | addi | andi | ori | xori | slti | lui =>
    cases hi
    exact ⟨_, _, fun _ => rfl, fun u => IntegerFrame.setG u _ _ _⟩
  | _ => cases hi

/-- Settles O56: an integer instruction is an effect in the frame behind `issue`, and issuing adds nothing outside it. -/
theorem integerInstructionsFrame : Obligations.IntegerInstructionsFrame := by
  intro i h s t hi hparity halone ht
  obtain ⟨regs, k, hexec, hk⟩ := exec_integer hi
  cases (hexec s).symm.trans ht
  obtain ⟨houtside, hothers, hregs, hown⟩ := IntegerFrame.issue hparity halone s regs hk
  exact ⟨houtside, hothers, fun off hoff => hregs off fun ⟨j, hj, e⟩ => hoff j hj e, hown⟩

/-! ## The results -/

section
variable {h : Slot} {s : State}

/-- The two register operands of an instruction that issues are those before its fetch. -/
theorem aluA_of_ready {d s1 s2 : GR} (hr : Ready h [d.val, s1.val, s2.val] s) (f : W64 → W64 → W64) :
    aluA h d s1 s2 f s = setG (fetched h s) h.p.val d (f (getG s h.p.val s1) (getG s h.p.val s2)) := by
  rw [aluA, issue_ready h s _ _ hr, getG_fetched, getG_fetched]

theorem aluC_of_ready {d s1 s2 : GR} (hr : Ready h [d.val, s1.val, s2.val] s) (f : W64 → W64 → Bool → W64 × Bool) :
    aluC h d s1 s2 f s =
      setC (setG (fetched h s) h.p.val d (f (getG s h.p.val s1) (getG s h.p.val s2) (s.facet h.p.val).c).1) h.p.val
        (f (getG s h.p.val s1) (getG s h.p.val s2) (s.facet h.p.val).c).2 := by
  simp only [aluC, issue_ready h s _ _ hr, getG_fetched, fetched_facet]

theorem aluI_of_ready {d s1 : GR} (hr : Ready h [d.val, s1.val] s) (imm : BitVec 16) (f : W64 → W64 → W64) :
    aluI h d s1 imm f s = setG (fetched h s) h.p.val d (f (getG s h.p.val s1) (imm.signExtend 64)) := by
  rw [aluI, issue_ready h s _ _ hr, getG_fetched, simm]

theorem branchIf_of_ready {s1 s2 : GR} (hr : Ready h [s1.val, s2.val] s) (off : BitVec 16) (c : W64 → W64 → Bool) :
    branchIf h s1 s2 off c s =
      if c (getG s h.p.val s1) (getG s h.p.val s2) then goTo h (fetched h s) (branchTarget ((s.facet h.p.val).pc + 1) off)
      else fetched h s := by
  simp only [branchIf, issue_ready h s _ _ hr, getG_fetched, fetched_facet]

end

theorem bit64_slt (a b : W64) : bit64 (a.slt b) = if a.toInt < b.toInt then 1 else 0 := by
  simp [bit64, BitVec.slt]

theorem bit64_ult (a b : W64) : bit64 (a.ult b) = if a.toNat < b.toNat then 1 else 0 := by
  simp [bit64, BitVec.ult]

/-- Settles O1: each instruction is `aluA` of its function of the two registers. -/
theorem facetArithmeticCompletes : Obligations.FacetArithmeticCompletes := by
  intro h d s1 s2 s hr a b u
  have hexec {i : Instr} {f : W64 → W64 → W64} {x : W64} (hi : exec i s = .next (aluA h d s1 s2 f s)) (hx : f a b = x) :
      exec i s = .next (setG u h.p.val d x) := by
    rw [hi, aluA_of_ready hr, hx]
  exact ⟨hexec rfl rfl, hexec rfl rfl, hexec rfl rfl, hexec rfl rfl, hexec rfl rfl, hexec rfl (bit64_slt a b), hexec rfl (bit64_ult a b),
    hexec rfl rfl, hexec rfl rfl⟩

theorem addCarry_eq (a b : W64) (c : Bool) :
    addCarry a b c = (a + b + BitVec.ofNat 64 (b2n c), decide (2 ^ 64 ≤ a.toNat + b.toNat + b2n c)) := by
  simp [addCarry, BitVec.ofNat_add]

theorem shiftBy_of_lt (kind : Nat) (f : W64 → Nat → W64) (a : W64) {b : W64} (h : b.toNat < 64) : shiftBy kind f a b = f a b.toNat :=
  if_pos h

/-- Settles O2: `aluC` gives the carry chain, `aluA` the shifts and `aluI` the immediate forms. -/
theorem facetCarryShiftAndImmediatesComplete : Obligations.FacetCarryShiftAndImmediatesComplete := by
  refine ⟨fun h d s1 s2 s hr => ?registers, fun h d s1 imm s => ⟨fun hr => ?immediates, fun hr => ?lui⟩⟩
  case registers =>
    have hexec {i : Instr} {f : W64 → W64 → W64} (hi : exec i s = .next (aluA h d s1 s2 f s)) :=
      hi.trans (congrArg _ (aluA_of_ready hr f))
    have hcarry {i : Instr} {f : W64 → W64 → Bool → W64 × Bool} {x : W64} {c : Bool} (hi : exec i s = .next (aluC h d s1 s2 f s))
        (hx : f (getG s h.p.val s1) (getG s h.p.val s2) (s.facet h.p.val).c = (x, c)) :
        exec i s = .next (setC (setG (fetched h s) h.p.val d x) h.p.val c) := by
      rw [hi, aluC_of_ready hr, hx]
    exact ⟨hcarry rfl (addCarry_eq _ _ _), hcarry rfl rfl, ⟨_, hexec rfl, shiftBy_of_lt _ _ _⟩, ⟨_, hexec rfl, shiftBy_of_lt _ _ _⟩,
      ⟨_, hexec rfl, shiftBy_of_lt _ _ _⟩⟩
  case immediates =>
    have hexec {i : Instr} {f : W64 → W64 → W64} {x : W64} (hi : exec i s = .next (aluI h d s1 imm f s))
        (hx : f (getG s h.p.val s1) (imm.signExtend 64) = x) : exec i s = .next (setG (fetched h s) h.p.val d x) := by
      rw [hi, aluI_of_ready hr, hx]
    exact ⟨hexec rfl rfl, hexec rfl rfl, hexec rfl rfl, hexec rfl rfl, hexec rfl (bit64_slt _ _)⟩
  case lui => exact exec_issue rfl hr rfl

/-- Where the signed and the unsigned order of two words agree, BLT and BGE compare by that order. -/
theorem branchLess_of_agree {a b : W64} (h : a.toInt < b.toInt ↔ a.toNat < b.toNat) : branchLess a b = true ↔ a.toNat < b.toNat := by
  unfold branchLess
  split <;> simp [BitVec.slt, BitVec.ult, h]

/-- Settles O3: a branch is `branchIf` of its condition; BNE and BGE have the conditions of BEQ and BLT negated. -/
theorem facetBranchesComplete : Obligations.FacetBranchesComplete := by
  intro h s1 s2 off s a b u taken
  refine ⟨fun hr => ?branches, fun hr => ?jump, fun hr => ?jumpRegister⟩
  case branches =>
    have hexec {i : Instr} {c : W64 → W64 → Bool} (hi : exec i s = .next (branchIf h s1 s2 off c s)) :
        exec i s = .next (if c a b then taken else u) := by
      rw [hi, branchIf_of_ready hr]
    refine ⟨(hexec rfl).trans ?_, (hexec rfl).trans ?_, branchLess a b, hexec rfl, (hexec rfl).trans ?_, branchLess_of_agree⟩
    · simp only [beq_iff_eq]
    · simp only [bne_iff_ne, ite_not]
    · cases branchLess a b <;> rfl
  case jump => exact exec_issue rfl hr (by rw [fetched_facet])
  case jumpRegister => exact exec_issue rfl hr (by rw [getG_fetched])

end Sys2Proof.Machine
end

section
/-! # Memory and vector instructions of a facet (03 R53, R74 to R76, Table 03.3 majors 0x10 to 0x1E) -/

namespace Sys2Proof.Machine

open Sys2Proof

/-! ## What the fetch leaves of the state -/

section
variable (h : Slot) (s : State)

theorem fetched_outside : { fetched h s with facets := s.facets, regs := s.regs } = s := (IntegerFrame.fetched h s).outside

theorem fetched_apt : (fetched h s).apt = s.apt := by
  have e := congrArg State.apt (fetched_outside h s)
  exact e

theorem fetched_marked : (fetched h s).marked = s.marked := by
  have e := congrArg State.marked (fetched_outside h s)
  exact e

theorem markAt_fetched (a n : Nat) : (fetched h s).markAt a n = s.markAt a n := by
  rw [State.markAt, fetched_marked, State.markAt]

theorem aptCause_fetched (u a n m : Nat) (inWorld write served : Bool) :
    aptCause (fetched h s) u a n m inWorld write served = aptCause s u a n m inWorld write served := by
  unfold aptCause State.desc
  rw [fetched_apt]

theorem effAddr_fetched (s1 : GR) (imm : BitVec 16) :
    effAddr (fetched h s) h.p.val s1 imm = (getG s h.p.val s1 + imm.signExtend 64).toNat := by
  rw [effAddr, getG_fetched, simm]

theorem getV_fetched (v : VR) : getV (fetched h s) h.p.val v = getV s h.p.val v := by
  rw [getV, fetched_facet, getV]

end

/-! ## Loads and stores -/

/-- What a load of `n` bytes of value `v` leaves in a general register: `v`, or its reading with a sign (log entry 15). -/
def loadExt (n v : Nat) : W64 :=
  BitVec.ofNat 64 (if Config.loadSigned ∧ 2 ^ (8 * n - 1) ≤ v then v + (2 ^ 64 - 2 ^ (8 * n)) else v)

theorem loadExt_of_lt {n v : Nat} (h : v < 2 ^ (8 * n - 1)) : loadExt n v = BitVec.ofNat 64 v := by
  rw [loadExt, if_neg fun hv => absurd h (Nat.not_lt.2 hv.2)]

/-- Over the whole register the two readings agree. -/
theorem loadExt_eight (v : Nat) : loadExt 8 v = BitVec.ofNat 64 v := by
  unfold loadExt
  split
  · simp
  · rfl

section
variable {h : Slot} {d s1 : GR} {imm : BitVec 16} {s : State}

theorem loads_loadG {i : Instr} {n : Nat} (hi : exec i s = .next (loadG h d s1 imm n s)) (hr : Ready h [d.val, s1.val] s) :
    Loads h i s (fetched h s) (getG s h.p.val s1 + imm.signExtend 64).toNat n
      (fun x t => setG t h.p.val d (loadExt n (leNat x))) :=
  loads_of_exec (exec_issue hi hr (by rw [effAddr_fetched]; rfl))

theorem stores_storeG {i : Instr} {n : Nat} (hi : exec i s = .next (storeG h d s1 imm n s)) (hr : Ready h [d.val, s1.val] s) :
    Stores h i s (fetched h s) (getG s h.p.val s1 + imm.signExtend 64).toNat (leBytes n (getG s h.p.val d).toNat) :=
  stores_of_exec (exec_issue hi hr (by rw [effAddr_fetched, getG_fetched]))

end

/-- Settles O4: a load or store at its address and width is what the instruction does once it issues; BLD and BST issue behind the blocks in
flight. -/
theorem facetLoadsAndStoresComplete : Obligations.FacetLoadsAndStoresComplete := by
  refine ⟨⟨loadExt, fun _ _ => loadExt_of_lt, fun h d s1 v b imm s => ⟨fun hr => ?loads, fun hr => ⟨?vld, fun hs => ?bld⟩⟩⟩,
    fun h d s1 v b imm s => ⟨fun hr => ?stores, fun hr => ⟨?vst, fun hs hopen => ?bst⟩⟩⟩
  case loads =>
    have hldd := loads_loadG (i := .ldd h d s1 imm) rfl hr
    simp only [loadExt_eight] at hldd
    exact ⟨loads_loadG rfl hr, loads_loadG rfl hr, loads_loadG rfl hr, hldd⟩
  case vld => exact loads_of_exec (exec_issue rfl hr (by rw [effAddr_fetched]))
  case bld => exact loads_of_exec (exec_issueLens rfl hr hs rfl)
  case stores => exact ⟨stores_storeG rfl hr, stores_storeG rfl hr, stores_storeG rfl hr, stores_storeG rfl hr⟩
  case vst => exact stores_of_exec (exec_issue rfl hr (by rw [effAddr_fetched, getV_fetched]))
  case bst => exact stores_of_exec (exec_issueLens_good rfl hr hs hopen rfl)

/-! ## Atomics and fences -/

section
variable {h : Slot} {d s1 s2 : GR} {s : State}

/-- The aligned word that the address of an atomic lies in, at a place that takes one and admits both its accesses (03 R76). -/
structure AmoAdmits (h : Slot) (a un da : Nat) (s : State) : Prop where
  read : place (inner s h.p.val) false a 8 = .glob un da
  write : place (inner s h.p.val) true a 8 = .glob un da
  notMram : un ≠ 2
  notFrame : un ≠ 3
  clean : s.markAt a 8 = false
  mayRead : (aptCause s un da 8 h.p.val (inner s h.p.val) false false).1 = 0
  mayWrite : (aptCause s un da 8 h.p.val (inner s h.p.val) true false).1 = 0

/-- The state after an atomic's function has given the word to write, or none. -/
def amoPut (a : Nat) (r : Option W64 × State) : State :=
  match r.1 with
  | some x => { r.2 with gmem := memWrite r.2.gmem a (leBytes 8 x.toNat) }
  | none => r.2

theorem amoPut_setEq (a : Nat) (x : W64) (t : State) (p : Nat) (e : Bool) :
    amoPut a (some x, setEq t p e) = { setEq t p e with gmem := memWrite t.gmem a (leBytes 8 x.toNat) } := rfl

/-- An atomic that is admitted reads the old word and writes what `f` makes of it, behind every store of the facet. -/
theorem amo_of_admitted (hr : Ready h [d.val, s1.val, s2.val] s) {un da : Nat}
    (ha : AmoAdmits h ((getG s h.p.val s1).toNat / 8 * 8) un da s) (f : State → W64 → Option W64 × State) :
    amo h d s1 s2 f s =
      let a := (getG s h.p.val s1).toNat / 8 * 8
      let w := drainAll (visible (fetched h s)) h.p.val
      let old := BitVec.ofNat 64 (leNat (memRead w.gmem a 8))
      setG (amoPut a (f w old)) h.p.val d old := by
  obtain ⟨hread, hwrite, hmram, hframe, hclean, hmayRead, hmayWrite⟩ := ha
  rw [← fetched_inner h s] at hread hwrite hmayRead hmayWrite
  rw [← aptCause_fetched h s] at hmayRead hmayWrite
  simp only [amo, issue_ready h s _ _ hr, getG_fetched, accessOk_of_admitted hread hmayRead, accessOk_of_admitted hwrite hmayWrite,
    markAt_fetched, hclean, hmram, hframe, or_self, if_false, Bool.false_eq_true]
  rfl

end

/-- Settles O5: the three atomics are `amo` of their functions; a fence is its effect on the store buffer of the fetched state. -/
theorem facetAtomicsAndFencesComplete : Obligations.FacetAtomicsAndFencesComplete := by
  intro h d s1 s2 s p u a w w1 old put
  refine ⟨fun hr un da hread hwrite hmram hframe hclean hmayRead hmayWrite => ?atomics, fun hr => ?fences⟩
  case atomics =>
    have hamo {i : Instr} {f : State → W64 → Option W64 × State} {t : State} (hi : exec i s = .next (amo h d s1 s2 f s))
        (ht : amoPut a (f w old) = t) : exec i s = .next (setG t p d old) := by
      rw [hi, amo_of_admitted hr ⟨hread, hwrite, hmram, hframe, hclean, hmayRead, hmayWrite⟩, ← ht]
    refine ⟨hamo rfl rfl, hamo rfl rfl, fun he => hamo rfl ?_, fun he => hamo rfl ?_⟩
    · rw [decide_eq_true he]
      exact amoPut_setEq a (getG w p s2) w p true
    · rw [decide_eq_false he]
      rfl
  case fences =>
    refine ⟨exec_issue rfl hr rfl, exec_issue rfl hr rfl, fun he => exec_issue rfl hr (if_pos ?_),
      fun he => exec_issue rfl hr (if_neg ?_)⟩ <;>
      rwa [fetched_facet]

/-! ## Vector instructions -/

section
variable {h : Slot} {s : State}

theorem exec_vec {i : Instr} {d s1 s2 : VR} {f : W256 → W256 → W256} (hi : exec i s = .next (vec h d s1 s2 f s)) (hr : Ready h [] s) :
    exec i s = .next (setV (fetched h s) h.p.val d (f (getV s h.p.val s1) (getV s h.p.val s2))) :=
  exec_issue hi hr (by rw [getV_fetched, getV_fetched])

end

/-- Settles O6: the four functions that log entry 18 leaves free are constants of the configuration. -/
theorem facetVectorsComplete : Obligations.FacetVectorsComplete := by
  refine ⟨Config.vectorOp 0, Config.vectorOp 1, Config.vmovToVector, Config.vmovToGeneral, fun h d s1 s2 g s =>
    ⟨fun hr => ⟨exec_vec rfl hr, exec_vec rfl hr, exec_vec rfl hr, exec_vec rfl hr⟩, fun hr => ⟨?toVector, ?toGeneral⟩⟩⟩
  case toVector => exact exec_issue rfl hr (by rw [if_pos rfl, getV_fetched, getG_fetched])
  case toGeneral => exact exec_issue rfl hr (by rw [if_neg Bool.false_ne_true, getV_fetched, getG_fetched])

end Sys2Proof.Machine
end

section
/-! # A facet program's command and frame (03 R57 to R63) -/

namespace Sys2Proof.Machine

open Sys2Proof

/-! ## Host transfers -/

section
variable {h : Slot} {d s1 s2 s3 : GR} {s : State} {i : Nat} {r : JRec}

/-- A copy within the bounds of the command, at a place of local memory that takes one, starts and stalls the facet (03 R58). -/
theorem hostCopy_of_inside {toHost : Bool} {bound : Nat} (hr : Ready h [d.val, s1.val, s2.val, s3.val] s) (hs : Survives h s)
    (hrec : (settled h s).curRec h.p.val = some (i, r)) (hn : (getG (settled h s) h.p.val s3).toNat ≤ 4096)
    (hlim : (getG (settled h s) h.p.val s1).toNat + (getG (settled h s) h.p.val s3).toNat ≤ subField r.sub bound 4)
    (hin : within (getG (settled h s) h.p.val s2).toNat (getG (settled h s) h.p.val s3).toNat 0x10000 0x1FFFF = true ∨
      toHost = true ∧ within (getG (settled h s) h.p.val s2).toNat (getG (settled h s) h.p.val s3).toNat 0x22000 0x22FFF = true) :
    hostCopy h d s1 s2 s3 toHost bound s = (settled h s).modFacet h.p.val (fun f => { f with
      dma := some ⟨toHost, d.val, (getG (settled h s) h.p.val s2).toNat, (getG (settled h s) h.p.val s1).toNat,
        (getG (settled h s) h.p.val s3).toNat⟩ }) := by
  refine (issueLens_of_ready hr hs _).trans ?_
  simp only [hrec]
  rw [if_neg (by omega), if_neg (by obtain hw | ⟨ht, hw⟩ := hin <;> simp [*])]

end

theorem aptCheck_eq_of_true {s : State} {u a n m : Nat} {inWorld write served : Bool}
    (h : (aptCheck s u a n m inWorld write served).1 = true) : aptCheck s u a n m inWorld write served = (true, s) := by
  by_cases hc : (aptCause s u a n m inWorld write served).1 = 0
  · exact aptCheck_of_admitted hc
  · rw [aptCheck_of_refused hc] at h
    cases h

/-- A check of the host path that admits the copy leaves the state as it was. -/
theorem hostAccess_eq_of_true {s : State} {p fn a n : Nat} {write : Bool} (h : (hostAccess s p fn a n write).1 = true) :
    hostAccess s p fn a n write = (true, s) := by
  unfold hostAccess at h ⊢
  split at h
  · exact if_pos ‹_›
  · exact (if_neg ‹_›).trans (aptCheck_eq_of_true h)

theorem copyAccess_eq_of_true {s : State} {p : Nat} {q : DmaReq} (h : (copyAccess s p q).1 = true) : copyAccess s p q = (true, s) := by
  unfold copyAccess at h ⊢
  generalize s.curRec p = e at h ⊢
  cases e with
  | none => rfl
  | some e =>
    dsimp only at h ⊢
    split at h
    · exact if_pos ‹_›
    · exact (if_neg ‹_›).trans (hostAccess_eq_of_true h)

theorem sramEcc_ok (p : Nat) (s : State) (a : Nat) : sramEcc .ok p s a = (true, s) := by
  unfold sramEcc
  split <;> rfl

theorem setG_mod (s : State) (p : Nat) (d : GR) (x : W64) (h : d.val % 32 < 32) : setG s p ⟨d.val % 32, h⟩ x = setG s p d x :=
  congrArg (fun r => setG s p r x) (Fin.ext (Nat.mod_eq_of_lt d.isLt))

/-- The state in which a completed copy moves its bytes: the facet no longer stalls, and the wait is counted. -/
def copyDone (s : State) (p : Nat) : State := perf (s.modFacet p (fun f => { f with dma := none })) p 0x0C 1

section
variable {s : State} {p : Nat} {dd : GR} {la ho len : Nat} {data : Bytes}

theorem dmaComplete_of_read (hq : (s.facet p).dma = some ⟨false, dd.val, la, ho, len⟩)
    (hstop : copyStopped s p ⟨false, dd.val, la, ho, len⟩ = false)
    (hacc : (copyAccess (copyDone s p) p ⟨false, dd.val, la, ho, len⟩).1 = true) :
    dmaComplete p true .ok data s =
      setG ((copyDone s p).modFacet p (fun f => locWrite f la (sliceBytes data 0 len))) p dd (BitVec.ofNat 64 sOk) := by
  have hacc := copyAccess_eq_of_true hacc
  unfold copyDone at hacc ⊢
  simp only [dmaComplete, hq, hstop, hacc, sramEcc_ok, setG_mod, Bool.not_true, Bool.false_eq_true, if_false]

theorem dmaComplete_of_write (hq : (s.facet p).dma = some ⟨true, dd.val, la, ho, len⟩)
    (hstop : copyStopped s p ⟨true, dd.val, la, ho, len⟩ = false)
    (hacc : (copyAccess (copyDone s p) p ⟨true, dd.val, la, ho, len⟩).1 = true) {y : State} {bytes : Bytes}
    (hbytes : locRead ((copyDone s p).facet p) la len = bytes)
    (hy : (copyDone s p).modFacet p (fun f => { f with cmdout := memWrite f.cmdout ho bytes }) = y) {i : Nat} {r : JRec}
    (hrec : y.curRec p = some (i, r)) (hflr : r.flr = false) :
    dmaComplete p true .ok data s =
      setG { y with sent := y.sent ++ [.host (y.ctxFn r.ctx) (subField r.sub 36 8 + ho) bytes] } p dd (BitVec.ofNat 64 sOk) := by
  have hacc := copyAccess_eq_of_true hacc
  unfold copyDone at hacc hbytes hy
  simp only [dmaComplete, hq, hstop, hacc, sramEcc_ok, setG_mod, hbytes, hy, hrec, hflr, Bool.not_true, Bool.false_eq_true, if_false, if_true]

end

/-! ## DONE -/

/-- The program's end of its command, under a status and a result that DONE passes on (03 R59, R60). -/
theorem done_of_result {s : State} {p i : Nat} {r : JRec} (hrec : s.curRec p = some (i, r)) {x : State} (hx : perf (drainAll s p) p 0x0F 1 = x)
    (hst : progStatus ((getG x p 1).toNat % 65536) = sOk ∨ progStatus ((getG x p 1).toNat % 65536) = sVerifyFail)
    (hlen : (getG x p 2).toNat ≤ subField r.sub 44 4) :
    done p s = finishWith x r.owner r.tag (progStatus ((getG x p 1).toNat % 65536))
      (locRead (x.facet p) 0x22000 (min (getG x p 2).toNat 4096) ++ memRead (x.facet p).cmdout 4096 ((getG x p 2).toNat - 4096))
      (locRead (x.facet p) 0x22000 (min (getG x p 2).toNat 4096)) := by
  simp only [done, hrec, hx]
  rw [if_neg (not_and_or.2 (hst.imp not_not_intro not_not_intro)), if_neg (Nat.not_lt.2 hlen)]

/-! ## Frames -/

theorem length_leBytes (n v : Nat) : (leBytes n v).length = n := by
  induction n generalizing v with
  | zero => rfl
  | succ n ih => rw [leBytes, List.length_cons, ih]

theorem length_blockBytes (x : Block) : (blockBytes x).length = 16 := by
  rw [blockBytes, beBytes, List.length_reverse, length_leBytes]

/-- The general register that an FLD or an FST names. -/
def frameRegNames (r : FrameReg) : List Nat := match r with
  | .g r => [r.val]
  | _ => []

/-- What FLD makes of the bytes it takes from the frame: a block register is open and marked (03 R63). -/
def putFrameReg (s : State) (p : Nat) (r : FrameReg) (d : Bytes) : State := match r with
  | .g r => setG s p r (BitVec.ofNat 64 (leNat d))
  | .v r => setV s p r (BitVec.ofNat 256 (leNat d))
  | .b r => setB s p r ⟨blockOf d, false, false, true, false⟩

/-- The bytes that FST stores. -/
def frameRegBytes (s : State) (p : Nat) (r : FrameReg) : Bytes := match r with
  | .g r => leBytes 8 (getG s p r).toNat
  | .v r => leBytes 32 (getV s p r).toNat
  | .b r => blockBytes (getB s p r).val

/-- Is the register of an FST a sealed block register (02 R46)? -/
def frameRegSealed (s : State) (p : Nat) (r : FrameReg) : Bool := match r with
  | .b r => (getB s p r).sld
  | _ => false

theorem length_frameRegBytes (s : State) (p : Nat) (r : FrameReg) : (frameRegBytes s p r).length = frameRegLen r := by
  cases r with
  | g r => exact length_leBytes 8 _
  | v r => exact length_leBytes 32 _
  | b r => exact length_blockBytes _

section
variable {h : Slot} {off : BitVec 16} {s : State} {x : Frame} {r : FrameReg} {i : Nat}

theorem exec_fld_of_inside (hr : Ready h (frameRegNames r) s) (hs : Survives h s) (hx : (settled h s).curFrame h.p.val = some x)
    (hi : frameIdx x off.toInt (frameRegLen r) = some i) :
    exec (.fld h r off) s = .next (putFrameReg (settled h s) h.p.val r (sliceBytes x.buf i (frameRegLen r))) := by
  refine exec_issueLens rfl hr hs ?_
  simp only [hx, hi, Option.bind_some, Option.map_some]
  cases r <;> rfl

theorem exec_fst_of_inside (hr : Ready h (frameRegNames r) s) (hs : Survives h s) (hx : (settled h s).curFrame h.p.val = some x)
    (hi : frameIdx x off.toInt (frameRegLen r) = some i) (hopen : frameRegSealed (settled h s) h.p.val r = false) :
    exec (.fst h r off) s = .next (modFrame (settled h s) x.id (fun x =>
      { x with buf := spliceBytes x.buf i (frameRegBytes (settled h s) h.p.val r) })) := by
  rw [← length_frameRegBytes (settled h s) h.p.val r] at hi
  refine exec_issueLens rfl hr hs ((if_neg (ne_true_of_eq_false hopen)).trans ?_)
  cases r <;> simp only [frameRegBytes] at hi ⊢ <;> simp only [hx, hi, Option.bind_some, Option.map_some]

theorem exec_fdone_of_passed (hr : Ready h [1, 2, 3] s) (hs : Survives h s) (hx : (settled h s).curFrame h.p.val = some x)
    (hv : (getG (settled h s) h.p.val 1).toNat = 0) {st : Int} (hst : (getG (settled h s) h.p.val 2).toInt = st) {len : Nat}
    (hlen : (getG (settled h s) h.p.val 3).toNat = len) (hlo : -64 ≤ st) (hhi : st ≤ 64) (hin : 64 + st + len ≤ x.buf.length)
    (hform : x.dir = 0 ∨ ((settled h s).flow x.flow).any (fun f => protectedForm f x st len) = true)
    (hauth : x.dir ≠ 0 ∨ ((drainAll (settled h s) h.p.val).facet h.p.val).auth = true) :
    exec (.fdone h) s = .next (frameLeave
      (modFrame (drainAll (settled h s) h.p.val) x.id (fun x => { x with start := (64 + st).toNat, len := len })) h.p.val x.id none) := by
  refine exec_issueLens rfl hr hs ?_
  have hinside : (decide (-64 ≤ st) && decide (st ≤ 64) && decide (64 + st + len ≤ x.buf.length) &&
      (decide (x.dir = 0) || ((settled h s).flow x.flow).any (fun f => protectedForm f x st len))) = true := by
    simp [hlo, hhi, hin, hform]
  have hpass : ¬ (x.dir = 0 ∧ (!((drainAll (settled h s) h.p.val).facet h.p.val).auth) = true) := by
    simpa [imp_iff_not_or] using hauth
  simp only [hx, hv, hst, hlen, hinside]
  rw [if_neg (by decide), if_neg (by decide), if_neg (by decide), if_neg hpass]

end

/-- Settles O12: the instructions have their effect on the settled state, each by its lemma above; HOST_DMA_COMPLETE is no instruction of
the facet and has its effect at once. -/
theorem commandAndFrameInstructionsComplete : Obligations.CommandAndFrameInstructionsComplete := by
  intro h d s1 s2 s3 v b off p data s w q o a n
  refine ⟨fun hr hs hn i r hrec => ⟨fun hlim hin => ?cmdin, fun hlim hin => ?cmdout⟩, fun dd la ho len => ⟨?dmaRead, ?dmaWrite⟩,
    fun hr hs i r hrec hst hlen => ?done, fun hs x hx => ⟨fun i hi hr => ?general, fun i hi hr => ?vector, fun i hi hr => ?block,
      fun hr hv hlo hhi hin hform hauth => ?pass⟩⟩
  case cmdin => exact congrArg Host.Outcome.next (hostCopy_of_inside hr hs hrec hn hlim (.inl hin))
  case cmdout => exact congrArg Host.Outcome.next (hostCopy_of_inside hr hs hrec hn hlim (hin.imp_right (⟨rfl, ·⟩)))
  case dmaRead => exact fun hq hstop hacc => congrArg Host.Outcome.next (dmaComplete_of_read hq hstop hacc)
  case dmaWrite => exact fun hq hstop hacc i r hrec hflr => congrArg Host.Outcome.next (dmaComplete_of_write hq hstop hacc rfl rfl hrec hflr)
  case done => exact exec_issueLens rfl hr hs (done_of_result hrec rfl hst hlen)
  case general => exact ⟨exec_fld_of_inside (r := .g d) hr hs hx hi, exec_fst_of_inside (r := .g d) hr hs hx hi rfl⟩
  case vector => exact ⟨exec_fld_of_inside (r := .v v) hr hs hx hi, exec_fst_of_inside (r := .v v) hr hs hx hi rfl⟩
  case block => exact ⟨exec_fld_of_inside (r := .b b) hr hs hx hi, exec_fst_of_inside (r := .b b) hr hs hx hi⟩
  case pass => exact exec_fdone_of_passed hr hs hx hv rfl rfl hlo hhi hin hform hauth

end Sys2Proof.Machine
end

section
/-! # World calls, entry calls, gates, RNGLD and FF1 (03 R71 to R73, Table 03.9, 08 R233, 12 R320) -/

namespace Sys2Proof.Machine

open Sys2Proof

/-! ## World calls and entry calls -/

section
variable {s : State} {p n : Nat}

theorem wcall_of_installed {id : Nat} {g : Prog} (hid : tget none s.gates n = some id) (hg : s.prog 0 id = some g)
    (hin : inner s p = false) (hn : n < 64) :
    wcall s p n = showEntry (((drainAll s p).modFacet p (fun f => { f with
      gate := some f.pc, gateFrom := f.entry, gateDepth := f.calls.length, kTouched := false
      entry := some g.entry, pc := g.start })).incWrap F.FCT_GATES p) p := by
  have hin : ¬ (inner s p = true ∨ 64 ≤ n) := by simp [hin, hn]
  simp only [wcall, hid, hg, Option.bind_some]
  exact if_neg hin

theorem wret_of_gate {ret : Nat} (hg : (s.facet p).gate = some ret) :
    wret s p = showK (showEntry ((drainAll s p).modFacet p (fun f => scrubGate f ret)) p) p := by
  simp only [wret, hg]

end

section
variable {h : Slot} {s : State} (hr : Ready h [] s) (hs : Survives h s)
include hr hs

theorem exec_ecall_of_callee {n : BitVec 16} {g : Prog} {e : EntryRef} (hg : callee (settled h s) h.p.val n.toNat = some g)
    (he : ((settled h s).facet h.p.val).entry = some e) (hdepth : ((settled h s).facet h.p.val).calls.length < 8) :
    exec (.ecall h n) s = .next (perf (showK (showEntry ((settled h s).setFacet h.p.val (enterProg
      { (settled h s).facet h.p.val with
        calls := ⟨e, ((settled h s).facet h.p.val).pc⟩ :: ((settled h s).facet h.p.val).calls } g)) h.p.val) h.p.val) h.p.val 0x0D 1) := by
  refine exec_issueLens rfl hr hs ?_
  simp only [hg, he]
  exact if_neg (Nat.not_le.2 hdepth)

theorem exec_eret_of_caller {c : Caller} {r : List Caller} {g : Prog} (hc : ((settled h s).facet h.p.val).calls = c :: r)
    (hgate : ((settled h s).facet h.p.val).gate = none) (hg : (settled h s).prog c.entry.signer c.entry.id = some g) :
    exec (.eret h) s = .next (showK (showEntry ((settled h s).setFacet h.p.val (loadWindow
      { passEntry ((settled h s).facet h.p.val) c.entry with entry := some c.entry, pc := c.pc, calls := r } g)) h.p.val) h.p.val) := by
  refine exec_issueLens rfl hr hs ?_
  simp only [hc, hgate, hg, Option.isSome_none, Bool.false_eq_true, false_and, if_false]

end

/-! ## Gates -/

theorem fetched_own (h : Slot) (s : State) : (fetched h s).own = s.own := by
  have e := congrArg State.own (fetched_outside h s)
  exact e

/-- Inside a gate the body of a gate's row has its effect on the fetched state (log entry 29). -/
theorem exec_gateRun_inside {i : Instr} {h : Slot} {n : Nat} {body : State → State} {s t : State}
    (hi : exec i s = .next (gateRun h n body s)) (hr : Ready h [] s) (hg : (s.facet h.p.val).gate.isSome = true)
    (ht : body (fetched h s) = t) : exec i s = .next t :=
  exec_issue (hi.trans (congrArg Host.Outcome.next (if_pos hg))) hr ht

section
variable {s : State} {p : Nat} (hfind : (gateFind s p).1 = sOk)
include hfind

theorem gateKeyInfo_of_found : gateKeyInfo p s =
    setG (setG (setG s p 1 (BitVec.ofNat 64 sOk)) p 2 (BitVec.ofNat 64 ((gateFind s p).2.state + 256 * (gateFind s p).2.use +
      65536 * flagByte (gateFind s p).2 + 16777216 * (gateFind s p).2.alg))) p 3
      (BitVec.ofNat 64 (if (gateFind s p).2.counted then (gateFind s p).2.limit - (gateFind s p).2.uses else 0)) :=
  if_neg (not_not_intro hfind)

theorem gateKcv_of_found {b : Body} (hm : kcvMethodOf (gateFind s p).2.alg = (getG s p 2).toNat)
    (hb : tget none s.ks.bodies (kidx s (s.facet p).owner (gateFind s p).2.handle) = some b) :
    gateKcv p s = setG (setG s p 1 (BitVec.ofNat 64 sOk)) p 2
      (BitVec.ofNat 64 (beNat (kcvOf (gateFind s p).2.alg (gateFind s p).2.material b.pub))) := by
  simp only [gateKcv, g1, g2, hfind, hm, hb, ne_eq, not_true_eq_false, if_false]

end

/-! ## FF1 -/

/-- The numerals that FF1 leaves: encrypted under an even mode, decrypted under an odd one, with the tweak of the length that g4 names. -/
def ff1Out (s : State) (p : Nat) (k : KeyRec) (nums : List Nat) : List Nat :=
  let radix := (getG s p 2).toNat
  let m := (getG s p 4).toNat
  let tweak := locRead (s.facet p) 0x1F000 (m / 256)
  if m % 2 = 0 then ff1Enc k.alg k.material radix tweak nums else ff1Dec k.alg k.material radix tweak nums

section
variable {s : State} {p : Nat}

theorem ff1Nums_of_le (h : (getG s p 3).toNat ≤ 4096) : ff1Nums s p =
    (List.range (getG s p 3).toNat).map (fun i => leNat (locRead (s.facet p) (0x10000 + 2 * i) 2)) :=
  if_pos h

/-- Arguments within the limits of 08 R233 and R234. -/
theorem ff1Fits_of_range (hmode : (getG s p 4).toNat % 256 ≤ 1) (htweak : (getG s p 4).toNat < 65536) (hlo : 2 ≤ (getG s p 3).toNat)
    (hhi : (getG s p 3).toNat ≤ 4096) (hradix : 2 ≤ (getG s p 2).toNat) (hradixMax : (getG s p 2).toNat ≤ 65536)
    (hdomain : 1000000 ≤ (getG s p 2).toNat ^ min (getG s p 3).toNat 20) (hnums : ∀ x ∈ ff1Nums s p, x < (getG s p 2).toNat) :
    ff1Fits s p = true := by
  simp only [ff1Fits, Bool.and_eq_true, decide_eq_true_eq, Bool.not_eq_true', List.any_eq_false, Nat.not_le]
  exact ⟨⟨⟨⟨⟨⟨⟨hmode, htweak⟩, hlo⟩, hhi⟩, hradix⟩, hradixMax⟩, hdomain⟩, hnums⟩

/-- FF1 with arguments in range under a key that loads and whose algorithm it takes. -/
theorem ff1Run_of_loaded (hfits : ff1Fits s p = true) {k : KeyRec} {t : State} (hcheck : ff1Check (ff1Pipe s p) p = (sOk, k))
    (huse : consume (ff1Pipe s p) (.call p) (kidx (ff1Pipe s p) (s.facet p).owner ((getG s p 1).toNat % 4294967296)) = some t)
    (halg : k.alg = 1 ∨ k.alg = 2 ∨ k.alg = 3) :
    ff1Run p s = setG ((setK t p (some ⟨k.material, k.alg, 14, (s.facet p).cls, k.handle⟩)).modFacet p
      (fun f => locWrite f 0x10000 ((ff1Out s p k (ff1Nums s p)).flatMap (leBytes 2)))) p 1 (BitVec.ofNat 64 sOk) := by
  have huse : consume (ff1Pipe s p) (.call p) (kidx (ff1Pipe s p) (s.facet p).owner ((getG s p g1).toNat % 4294967296)) = some t := huse
  have halg : (!(decide (k.alg = 1) || decide (k.alg = 2) || decide (k.alg = 3))) = false := by
    obtain h | h | h := halg <;> simp [h]
  simp only [ff1Run, hfits, hcheck, huse, halg, ne_eq, not_true_eq_false, Bool.not_true, Bool.false_eq_true, if_false]
  rfl

end

/-- Settles O13: calls and returns have their effect on the settled state, and a gate's body inside the gate on the fetched one; FF1 passes
its range and key checks by hypothesis. -/
theorem worldCallsAndGatesComplete : Obligations.WorldCallsAndGatesComplete := by
  refine ⟨Config.companion, fun h n d s => ⟨fun hr hs => ⟨fun id g hid hg hin hn => ?wcall, fun ret hg => ?wret,
    fun g e hg he hdepth => exec_ecall_of_callee hr hs hg he hdepth, fun c r g hc hgate hg => exec_eret_of_caller hr hs hc hgate hg⟩,
    fun hr hgate => ⟨fun hfind => ?keyInfo, ?ownerInfo, ?auditNote, fun hfind hm b hb => ?kcv⟩,
    fun hr => ⟨fun hstop => ?stopped, fun hrun => ?drawn⟩,
    fun hr hs hecc hmode htweak hlo hhi hradix hradixMax hdomain hnums k t hcheck huse halg => ?ff1⟩⟩
  case wcall => exact exec_issueLens rfl hr hs (wcall_of_installed hid hg hin hn)
  case wret => exact exec_issueLens rfl hr hs (wret_of_gate hg)
  case keyInfo => exact exec_gateRun_inside rfl hr hgate (gateKeyInfo_of_found hfind)
  case ownerInfo =>
    refine ⟨_, rfl, _, _, rfl, rfl, exec_gateRun_inside rfl hr hgate ?_⟩
    simp only [gateOwnerInfo, fetched_owner, fetched_own, g1, g2, g3, g4]
  case auditNote =>
    refine exec_gateRun_inside rfl hr hgate ?_
    simp only [gateAuditNote, getG_fetched, fetched_owner]
    rfl
  case kcv =>
    refine exec_gateRun_inside rfl hr hgate (gateKcv_of_found hfind ?_ ?_)
    · rwa [getG_fetched]
    · rwa [fetched_ks, fetched_owner, kidx_of_ring (fetched_ring h s)]
  case stopped => exact exec_issue rfl hr (if_pos hstop)
  case drawn => exact exec_issue rfl hr (if_neg (ne_true_of_eq_false hrun))
  case ff1 =>
    have hrange := ff1Nums_of_le hhi
    have hfits := ff1Fits_of_range hmode htweak hlo hhi hradix hradixMax hdomain (hrange ▸ hnums)
    have hrun := ff1Run_of_loaded hfits hcheck huse halg
    refine exec_issueLens rfl hr hs ?_
    simp only [hecc, sramEcc_ok, if_true, hrun, ff1Out, hrange]

end Sys2Proof.Machine
end

section
/-! # Sealed pages: sealing, the ring to the host, acknowledgement, wipe, import and the end of the reload (04 R89, R96 to R104)

A command whose conditions are met takes one way; each lemma below gives the state that way leaves. For RELOAD_END
two ways are given: every group has verified, or one of groups 0 to 7 has not. -/

namespace Sys2Proof.Machine

open Sys2Proof

/-! ## Sealing and the wipe of a destroyed key (04 R89, R96) -/

theorem exec_pageReseal_of_unsealed {s : State} {p : Fin 17825792} (h : s.ks.toSeal.contains p.val = true) :
    exec (.pageReseal p) s = .next (resealPage s p) :=
  congrArg Host.Outcome.next (if_pos h)

theorem exec_destroyWipe_of_free {s : State} {sp : Fin 17} {i : Fin 33554432}
    (hw : s.ks.wiping.contains (sp.val * 33554432 + i.val) = true) (hf : keyHeld s (sp.val * 33554432 + i.val) = false) :
    exec (.destroyWipe sp i) s = .next (wipeRec s (sp.val * 33554432 + i.val)) :=
  congrArg Host.Outcome.next (if_pos ⟨hw, by rw [hf]; rfl⟩)

/-! ## The ring to the host (04 R97, R98, R100) -/

/-- The host address of the slot that KS_EXP_PROD selects. -/
def expAddress (s : State) : Nat :=
  s.get F.KS_EXP_BASE_LO_ADDR_LO * 4096 + s.get F.KS_EXP_BASE_HI * 4294967296 + s.get F.KS_EXP_PROD % s.expSize * 4160

/-- The entry leaves the pending list for the ring and goes to the host. -/
def expSent (s : State) (x : PageSlot) (r : List PageSlot) : State :=
  { s with
    sent := s.sent ++ [Out.host (s.primary * 2048) (expAddress s) (fitBytes 4096 x.payload ++ slotTrailer x s.ks.expSeq)]
    ks := { s.ks with pendExp := r, ring := s.ks.ring ++ [x], expSeq := s.ks.expSeq + 1 } }

theorem exportWrite_of_room {s : State} {x : PageSlot} {r : List PageSlot} (hx : s.ks.pendExp = x :: r)
    (hen : s.is F.KS_CTRL_EXP_EN = true) (hroom : s.expUsed < s.expSize) :
    exportWrite s = expUpdate ((expSent s x r).poke F.KS_EXP_PROD ((s.get F.KS_EXP_PROD + 1) % 4294967296)) := by
  have hgo : ¬((!s.is F.KS_CTRL_EXP_EN) = true ∨ s.expSize ≤ s.expUsed) := by simp [hen, hroom]
  simp only [exportWrite, hx, if_neg hgo]
  rfl

theorem exportAck_of_within {a : Agent} {v : Nat} {s : State} (hr : s.outOfReach a 0x50000 = false) (hp : s.isPrimary a = true)
    (hv : (v + 4294967296 - s.get F.KS_EXP_ACK) % 4294967296 ≤ s.expUsed) :
    exportAck a v s = expUpdate (s.poke F.KS_EXP_ACK v) := by
  simp [exportAck, hr, hp, Nat.not_lt.2 hv]

theorem exec_exportStall_of_full {s : State} (h : s.is F.KS_STATUS_EXP_FULL = true) :
    exec .exportStall s = .next (event (s.raise F.KS_STATUS_EXP_STALL) 3 evExpStall 128) :=
  congrArg Host.Outcome.next (if_pos h)

/-! ## The import ring (04 R103) -/

/-- The host address of bytes 52 to 63 of the import slot that KS_IMP_CONS selects. -/
def impAnswerAddress (s : State) : Nat :=
  s.get F.KS_IMP_BASE_LO_ADDR_LO * 4096 + s.get F.KS_IMP_BASE_HI * 4294967296 +
    s.get F.KS_IMP_CONS % 2 ^ s.get F.KS_IMP_SIZE_LOG2_SLOTS * 4160 + 4096 + 52

/-- The entry is answered with a status and a version. -/
def impAnswered (s : State) (st v : Nat) : State :=
  { s with
    sent := s.sent ++ [Out.host (s.primary * 2048) (impAnswerAddress s) (leBytes 2 st ++ [0, 0] ++ leBytes 8 v)]
    out := leBytes 2 st ++ leBytes 8 v }

theorem exec_importEntry_of_answer {slot : Bytes} {s t : State} {st v : Nat} (hen : s.is F.KS_CTRL_IMP_EN = true)
    (hload : s.get F.KS_STATUS_RELOAD ≠ 0) (hplaced : s.get F.KS_IMP_PROD ≠ s.get F.KS_IMP_CONS)
    (hentry : importEntry s slot = some (st, v, t)) :
    exec (.importEntry slot) s =
      .next ((impAnswered t st v).poke F.KS_IMP_CONS ((t.get F.KS_IMP_CONS + 1) % 4294967296)) := by
  have hgo : ¬((!s.is F.KS_CTRL_IMP_EN) = true ∨ s.get F.KS_STATUS_RELOAD = 0 ∨ s.get F.KS_IMP_PROD = s.get F.KS_IMP_CONS) := by
    simp [hen, hload, hplaced]
  refine congrArg Host.Outcome.next ((if_neg hgo).trans ?_)
  rw [hentry]
  rfl

/-! ## The end of the reload (04 R104) -/

/-- READY and RELOAD 3, the facets mapped, the Huxel arrays and domains 108 and 109 on, and step 6. -/
def reloadDone (s : State) : State :=
  setStage (setDomains (setDomains (facetMap
    (((credsEnrol (rootDraw (reloadFinish (bodiesMissing s)))).put F.KS_STATUS_READY 1).poke F.KS_STATUS_RELOAD 3))
    72 79 true) 108 109 true) 6

/-- The missing groups have failed, and KS_STATUS shows it. -/
def groupsFailed (s : State) : State :=
  ((groupsMissing s).foldl groupFail s).poke F.KS_STATUS_GROUP_FAIL 1

/-- The start has stopped with cause 11 and RELOAD 4. -/
def reloadStopped (s : State) : State :=
  setRst ((s.poke F.KS_STATUS_RELOAD 4).poke F.DEV_START_FAIL 11) { s.rst with stopped := true }

section
variable {a : Agent} {s : State} (hr : s.outOfReach a 0x50000 = false) (hp : s.isPrimary a = true) (h5 : s.atStep 5 = true)
  (hload : s.get F.KS_STATUS_RELOAD = 1 ∨ s.get F.KS_STATUS_RELOAD = 2)
include hr hp h5 hload

theorem reloadEnd_of_complete (hmiss : groupsMissing s = []) : reloadEnd a s = reloadDone s := by
  simp [reloadEnd, reloadDone, hr, hp, h5, hload, hmiss]

theorem reloadEnd_of_missing {g : Nat} (hg : g ∈ groupsMissing s) (h8 : g < 8) :
    reloadEnd a s = reloadStopped (groupsFailed s) := by
  have hsome : groupsMissing s ≠ [] := List.ne_nil_of_mem hg
  have hfirst : (groupsMissing s).any (fun g => decide (g < 8)) = true := List.any_eq_true.2 ⟨g, hg, decide_eq_true h8⟩
  rw [reloadEnd, if_neg (ne_true_of_eq_false hr), if_neg (by simp [hp]), if_neg (by simp [h5, hload])]
  exact (if_pos hfirst).trans (congrArg reloadStopped (if_neg hsome))

end

/-- Settles O35: each command's conditions are met, so it takes the one way that its lemma above gives. -/
theorem pageCommandsComplete : Obligations.PageCommandsComplete := by
  intro s
  refine ⟨fun _ h => exec_pageReseal_of_unsealed h, fun x r hx hen hroom => ?write, fun a v hr hp hv => ?ack,
    exec_exportStall_of_full, fun _ _ => exec_destroyWipe_of_free, fun _ _ _ _ => exec_importEntry_of_answer,
    fun a hr hp h5 hload => ⟨fun hmiss => ?complete, fun g hg h8 => ?missing⟩⟩
  case write => exact congrArg Host.Outcome.next (exportWrite_of_room hx hen hroom)
  case ack => exact congrArg Host.Outcome.next (exportAck_of_within hr hp hv)
  case complete => exact congrArg Host.Outcome.next (reloadEnd_of_complete hr hp h5 hload hmiss)
  case missing => exact congrArg Host.Outcome.next (reloadEnd_of_missing hr hp h5 hload hg h8)

end Sys2Proof.Machine
end

section
/-! # Key custody (05 R112 to R141)

A custody command passes three gates: it runs its own meaning, its quorum is met, and its checks pass. Behind them it has the one effect
that the model gives it; `exec_quorum_of_checks` takes a command through all three. -/

namespace Sys2Proof.Machine

open Sys2Proof

theorem firstFail_cons_eq_none {b : Bool} {st : Nat} {l : List (Bool × Nat)} :
    firstFail ((b, st) :: l) = none ↔ b = true ∧ firstFail l = none := by
  cases b <;> simp [firstFail_cons]

section
variable {i : Instr} {op cls o : Nat} {w : Work} {s t : State}

/-- A command of the queue pairs that runs its own meaning. -/
theorem exec_command_of_runs {body : State → State} (hi : exec i s = .next (command op w s body)) (hr : Runs op w s)
    (ht : body s = t) : exec i s = .next t := by
  rw [hi, command_runs _ _ _ _ hr, ht]

section
variable {l : Bytes → Bytes → State → List (Bool × Nat)} {k : Bytes → Bytes → State → State → State} {q : QRes}

/-- A quorum that is met, and checks that pass on the body and in the state it leaves. -/
theorem withQuorum_of_checks (hq : quorum s w op cls o = q) (hst : q.st = sOk) (hl : firstFail (l q.body q.m q.s) = none)
    (ht : k q.body q.m q.s q.s = t) :
    withQuorum s w op cls o (fun body m s => withChecks s w (l body m s) (k body m s)) = t := by
  subst hq
  rw [withQuorum_ok _ _ _ _ _ _ hst, withChecks_pass _ _ _ _ hl, ht]

theorem exec_quorum_of_checks
    (hi : exec i s = .next (command op w s (fun s => withQuorum s w op cls o (fun body m s => withChecks s w (l body m s) (k body m s)))))
    (hr : Runs op w s) (hq : quorum s w op cls o = q) (hst : q.st = sOk) (hl : firstFail (l q.body q.m q.s) = none)
    (ht : k q.body q.m q.s q.s = t) : exec i s = .next t :=
  exec_command_of_runs hi hr (withQuorum_of_checks hq hst hl ht)

end

end

/-! ## Creation and exchange of keys, components (05 R123 to R134) -/

section
variable {w : Work} {s : State} {x : KBlock}

/-- Both imports hand the key block to `importBlock` once the description of the new key and the fields pass. -/
theorem importKey_of_block {body : Bytes} {working : Bool} (hlen : 32 ≤ body.length) (hcheck : creationCheck s w.o (attrOf body) = sOk)
    (hrep : (!working || decide ((attrOf body).replaced = 0)) = true)
    (huse : (!working || !([3, 4, 5].contains (attrOf body).use)) = true)
    (hf : (w.unused 1 && w.z 48 64 && w.fits w.createLen) = true) (hblock : keyBlock (body.drop 32) = some x)
    (hsup : kbUnsupported x = false) : importKey s w body working = importBlock s w (attrOf body) x := by
  rw [importKey]
  refine (withChecks_pass _ _ _ _ ?_).trans ?_
  · simp only [firstFail_cons_eq_none, firstFail_nil, and_true]
    exact ⟨decide_eq_true hlen, decide_eq_true hcheck, hrep, huse, hf⟩
  · simp only [hblock, hsup, Bool.false_eq_true, if_false]

/-- A block that opens under the key of handle A to a key it permits makes the creation of that key. -/
theorem importBlock_of_opened {a : Attr} {k : KeyRec} {t : State} {p m : Bytes} (hload : LoadsKey (skippedOpts s w.o x) w w.a 4 true k t)
    (hfit : kbpkFits x.ver k.alg = true) (hopen : kbOpen x k.alg k.material = some p) (hkey : kbKey p = some m)
    (hpermit : (kbPermits x.usage x.mode x.letter a.use && decide (kbAlg x.letter m.length = a.alg) && decide (a.alg ≠ 0) &&
      (decide (x.exp = 0x45) || !(a.flags.testBit 0)) && decide (strength a.alg m.length ≤ strength k.alg k.klen)) = true)
    (hkp : (x.opts.find? (fun e => e.1 == ascii "KP")).all
      (fun e => e.2 == kpText (kcvMethodOf a.alg) (kcvOf a.alg m [])) = true) : importBlock s w a x =
      createFor t w (newKeyOf w.o a 2 m none) := by
  simp only [importBlock, withKey_ok _ _ _ _ _ _ _ _ _ _ hload hfit, hopen, hkey]
  refine withChecks_pass _ _ _ _ ?_
  simp only [firstFail_cons_eq_none, firstFail_nil, and_true]
  exact ⟨hpermit, hkp⟩

end

/-- Settles O14: the checks of each command are its hypotheses; the two imports share `importKey`, of which the working key's has no
quorum. -/
theorem keyCreationAndExchangeComplete : Obligations.KeyCreationAndExchangeComplete := by
  intro w s
  dsimp only
  refine ⟨fun hr hq hlen hcheck hf => ?generate,
    fun body u working i x k t p m hway hlen hcheck hf hblock hsup hload hfit hopen hkey hpermit hkp => ?importKey,
    fun hr hq hbody hfind hexp halg hf k t hload hfit hstrength => ?exportKey, fun hr hf hroom hrng => ?compOpen,
    fun x hr hq hx hf hlo hhi hlen hnew htag => ?compAdd, fun x hr hq hx hcheck hlen hrsv hf halg hparts hcomb hkcv => ?compCombine⟩
  case generate =>
    have hchecked := exec_quorum_of_checks (i := .keyGenerate w) rfl hr rfl hq (by
      simp only [firstFail_cons_eq_none, firstFail_nil, and_true]
      exact ⟨by simp [hlen], decide_eq_true hcheck, by simpa [hlen] using hf⟩) rfl
    refine ⟨fun hext => hchecked.trans (congrArg _ (if_pos hext)), fun hext hrng => creates_of _ _ _ _ _ _ (hchecked.trans (congrArg _ ?_))⟩
    rw [if_neg (ne_true_of_eq_false hext), if_neg (ne_true_of_eq_false hrng)]
  case importKey =>
    have hcreate := importBlock_of_opened hload hfit hopen hkey hpermit hkp
    obtain ⟨rfl, rfl, hr, rfl, rfl, hwork⟩ | ⟨rfl, rfl, hr, hq, rfl, rfl⟩ := hway
    · obtain ⟨hrep, huse⟩ := Bool.and_eq_true_iff.1 hwork
      have hkeyblock := importKey_of_block (working := true) hlen hcheck hrep huse hf hblock hsup
      exact creates_of _ _ _ _ _ _ (exec_command_of_runs rfl hr (hkeyblock.trans hcreate))
    · have hkeyblock := importKey_of_block (working := false) hlen hcheck rfl rfl hf hblock hsup
      exact creates_of _ _ _ _ _ _ (exec_command_of_runs rfl hr ((withQuorum_ok _ _ _ _ _ _ hq).trans (hkeyblock.trans hcreate)))
  case exportKey =>
    refine exec_quorum_of_checks rfl hr rfl hq ?_ ?_
    · simp only [firstFail_cons_eq_none, firstFail_nil, and_true]
      exact ⟨by simpa [hbody, hfind] using hf, decide_eq_true hfind, hexp, decide_eq_true halg⟩
    · rw [withKey_ok _ _ _ _ _ _ _ _ _ _ hload hfit, if_neg (Nat.not_lt.2 hstrength)]
  case compOpen =>
    refine exec_command_of_runs rfl hr (withChecks_pass _ _ _ _ ?_)
    simp only [firstFail_cons_eq_none, firstFail_nil, and_true]
    exact ⟨hf, decide_eq_true hroom, congrArg not hrng⟩
  case compAdd =>
    refine exec_quorum_of_checks rfl hr rfl hq ?_ ?_
    · simp only [firstFail_cons_eq_none, firstFail_nil, and_true, hx, Option.getD_some]
      exact ⟨hf, rfl, by simp [hlo, hhi, hlen], by simpa using hnew, decide_eq_true htag⟩
    · simp only [hx, Option.getD_some]
  case compCombine =>
    refine creates_of _ _ _ _ _ _ (exec_quorum_of_checks rfl hr rfl hq ?_ ?_)
    · simp only [firstFail_cons_eq_none, firstFail_nil, and_true, hx]
      exact ⟨by simp [hlen], decide_eq_true hcheck, by simpa [hlen, hrsv] using hf, rfl⟩
    · simp only [hx, hparts, hcomb]
      rw [if_neg (not_not_intro halg), if_neg (by simp), if_neg (not_not_intro hkcv)]

/-! ## Activation, cancellation, limits and destruction (05 R135 to R141) -/

/-- Settles O15: the checks of each command are its hypotheses; KEY_SCHEDULE goes one of two ways, by whether the key is armed, and
KEY_SET_LIMIT by whether the uses have reached the limit. -/
theorem keyChangesComplete : Obligations.KeyChangesComplete := by
  intro w s
  dsimp only
  refine ⟨fun hr hq hf hfind hfit hpend hfree hkcv => ?activate,
    fun hr hnew hq hf hfind hfit hpend hbound hahead hkcv => ⟨fun u x harmed hfar hx => ?move, fun u harmed hadd => ?arm⟩,
    fun hr hq hbody hf hfind hpend hclose => ?cancel, fun hr hq hbody hf hfind hcount hlim hhw => ?limit,
    fun hr hq hbody hf hfind hnamed hclose => ?destroy⟩
  case activate =>
    refine exec_quorum_of_checks rfl hr rfl hq ?_ (if_neg ?_)
    · simp only [firstFail_cons_eq_none, firstFail_nil, and_true]
      exact ⟨hf, decide_eq_true hfind, hfit, by simp [hpend, hfree]⟩
    · simp [hkcv]
  case move =>
    -- The instants are compared by `rw`: a step of `simp` by reflexivity would have the kernel unfold `mtNs` as a numeral.
    refine exec_command_of_runs rfl hr ?_
    simp only [hnew]
    refine withQuorum_of_checks rfl hq ?_ (by simp only [harmed, hx])
    simp only [firstFail_cons_eq_none, firstFail_nil, and_true]
    exact ⟨hf, decide_eq_true hfind, hfit, by simp [hpend, hbound, hahead], by rw [harmed, Option.all_some, decide_eq_true hfar], hkcv⟩
  case arm =>
    refine exec_command_of_runs rfl hr ?_
    simp only [hnew]
    refine withQuorum_of_checks rfl hq ?_ (by simp only [harmed, hadd])
    simp only [firstFail_cons_eq_none, firstFail_nil, and_true]
    exact ⟨hf, decide_eq_true hfind, hfit, by simp [hpend, hbound, hahead], by rw [harmed, Option.all_none], hkcv⟩
  case cancel =>
    refine exec_quorum_of_checks rfl hr rfl hq ?_ rfl
    simp only [firstFail_cons_eq_none, firstFail_nil, and_true]
    exact ⟨by simpa [hbody] using hf, decide_eq_true hfind, by simp [hpend, hclose]⟩
  case limit =>
    have hchecked := exec_quorum_of_checks (i := .keySetLimit w) rfl hr rfl hq (by
      simp only [firstFail_cons_eq_none, firstFail_nil, and_true]
      exact ⟨by simpa [hbody] using hf, decide_eq_true hfind, by simp [hcount, hlim, hhw]⟩) rfl
    exact ⟨fun hspent => hchecked.trans (congrArg (fun u => Host.Outcome.next (endDurable u w _ [])) (if_pos hspent)),
      fun hkept => hchecked.trans (congrArg (fun u => Host.Outcome.next (endDurable u w _ [])) (if_neg (not_and_or.2 hkept)))⟩
  case destroy =>
    refine exec_quorum_of_checks rfl hr rfl hq ?_ rfl
    simp only [firstFail_cons_eq_none, firstFail_nil, and_true]
    exact ⟨by simpa [hbody] using hf, decide_eq_true hfind, by simp [hnamed, hclose]⟩

/-! ## Challenges, custodians and policies (05 R112 to R119) -/

/-- Settles O16: the checks of each command are its hypotheses; CUST_ENROL goes on behind the verdict on its credential's signature, and
CUST_REMOVE goes one of two ways, by whether the credential's record is there. -/
theorem custodianCommandsComplete : Obligations.CustodianCommandsComplete := by
  intro w s
  dsimp only
  refine ⟨fun hr hf hroom hrng => ?challenge,
    fun hr hq hmay hquota hf hlen hrsv hzero hslot hwait hsig hinput hverdict i t hcreate => ?enrol,
    fun hr hq hbody hmay hf c hc hwait hmet => ?remove, fun hr hq hmay hf hlen hrsv hzero hfloor hmet => ?policy⟩
  case challenge =>
    refine exec_command_of_runs rfl hr ((withChecks_pass _ _ _ _ ?_).trans ?_)
    · simp only [firstFail_cons_eq_none, firstFail_nil, and_true]
      exact hf
    · exact (if_neg (Nat.not_le.2 hroom)).trans (if_neg (ne_true_of_eq_false hrng))
  case enrol =>
    refine exec_quorum_of_checks rfl hr rfl hq ?_ ((withCredential_ok _ _ _ _ _ _ _ hinput hverdict).trans (by rw [hcreate]))
    simp only [firstFail_cons_eq_none, firstFail_nil, and_true, hf, hlen, hrsv, decide_true, Bool.true_and]
    exact ⟨hmay, hquota, hzero, by simp [hslot, hwait], decide_eq_true hsig⟩
  case remove =>
    have hchecked := exec_quorum_of_checks (i := .custRemove w) rfl hr rfl hq (by
      simp only [firstFail_cons_eq_none, firstFail_nil, and_true, hc]
      exact ⟨hmay, by simpa [hbody] using hf, by simp [hwait, hmet]⟩) rfl
    rw [hc, Option.getD_some] at hchecked
    exact ⟨fun hfound => hchecked.trans (congrArg _ (if_neg (not_not_intro hfound))), fun hgone => hchecked.trans (congrArg _ (if_pos hgone))⟩
  case policy =>
    refine exec_quorum_of_checks rfl hr rfl hq ?_ rfl
    simp only [firstFail_cons_eq_none, firstFail_nil, and_true, hf, hlen, hrsv, hzero, decide_true]
    exact ⟨hmay, rfl, Bool.and_eq_true_iff.2 ⟨hfloor, hmet⟩⟩

end Sys2Proof.Machine
end

section
/-! # Accepted work (06 R147 to R168, 14 R363 to R365)

Doorbells and writes of QP_CTRL pass one gate, that the writing function owns the context; an entry read passes four, and then goes
as its class says. Dispatch, completion and release act on the record that the model picks. -/

namespace Sys2Proof.Machine

open Sys2Proof

/-! ## Doorbells and enables (06 R147, R148) -/

/-- The indexes of a queue are cleared and its phase is set, and it runs. -/
def queueStarted (s : State) (c : Nat) : State :=
  let indexes := ((((s.poke F.QP_SQ_TAIL_TAIL 0 c).poke F.QP_AH_AH 0 c).poke F.QP_CQ_HEAD_CH 0 c).poke F.QP_CQ_TAIL_TAIL 0 c).poke
    F.QP_CH_DUR_DUR 0 c
  let running := ((indexes.poke F.QP_CQ_TAIL_PHASE 1 c).poke F.QP_CTRL_ENABLE 1 c).poke F.QP_STATUS_RUN 1 c
  showQueue (modQueue running c (fun q => { q with readIdx := 0, reading := [] })) c

section
variable {a : Agent} {c : Nat} {s : State} (hr : s.outOfReach a 0x400000 = false) (ho : s.ownsCtx a c = true)
include hr ho

/-- The gate of a queue context's doorbells and QP_CTRL, passed by the function that owns the context (06 R147). -/
theorem ite_ownsCtx {u v t : State} : (if s.outOfReach a 0x400000 then u else if !(s.ownsCtx a c) then v else t) = t := by
  simp only [hr, ho, Bool.not_true, Bool.false_eq_true, if_false]

theorem sqDoorbell_of_within {v : Nat} (hv : v < s.sqSize c)
    (hahead : (s.get F.QP_SQ_TAIL_TAIL c + s.sqSize c - s.get F.QP_AH_AH c % s.sqSize c) % s.sqSize c ≤
      (v + s.sqSize c - s.get F.QP_AH_AH c % s.sqSize c) % s.sqSize c) :
    sqDoorbell a c v s = s.poke F.QP_SQ_TAIL_TAIL v c :=
  (ite_ownsCtx hr ho).trans (if_neg (not_or.2 ⟨Nat.not_le.2 hv, Nat.not_lt.2 hahead⟩))

theorem cqDoorbell_of_within {v : Nat} (hv : v < s.cqSize c)
    (hposted : (v + s.cqSize c - s.get F.QP_CQ_HEAD_CH c % s.cqSize c) % s.cqSize c ≤
      (s.get F.QP_CQ_TAIL_TAIL c + s.cqSize c - s.get F.QP_CQ_HEAD_CH c % s.cqSize c) % s.cqSize c) :
    cqDoorbell a c v s = releaseTo s c v :=
  (ite_ownsCtx hr ho).trans (if_neg (not_or.2 ⟨Nat.not_le.2 hv, Nat.not_lt.2 hposted⟩))

theorem qpEnable_of_stopped {v : Word} (hstandby : (s.owner (s.ctxOwner c)).state ≠ oStandby) (hflr : s.flrOpen c = false)
    (hen : s.is F.QP_CTRL_ENABLE c = false) : qpEnable a c v s = queueStarted (ctrlFields s c v) c :=
  (ite_ownsCtx hr ho).trans <| (if_neg (not_or.2 ⟨hstandby, ne_true_of_eq_false hflr⟩)).trans (if_neg (ne_true_of_eq_false hen))

theorem qpDisable_of_posted {v : Word} {u : State} (hen : s.is F.QP_CTRL_ENABLE c = true) (hposted : unposted s c = false)
    (hu : u = unreadAll (ctrlFields s c v) c) :
    qpDisable a c v s =
      (((releaseTo u c (u.get F.QP_CQ_TAIL_TAIL c)).poke F.QP_CTRL_ENABLE 0 c).poke F.QP_STATUS_RUN 0 c).poke F.QP_STATUS_JFULL 0 c := by
  subst hu
  exact (ite_ownsCtx hr ho).trans <| (if_neg (by simp [hen])).trans (if_neg (ne_true_of_eq_false hposted))

end

/-! ## Entry reads and releases (06 R151 to R160, R168) -/

/-- Settles O30: a doorbell or a write of QP_CTRL passes the gate of its context; an entry read passes four, and each class of the entry
is one branch behind them. -/
theorem queueCommandsComplete : Obligations.QueueCommandsComplete := by
  intro c s
  dsimp only
  refine ⟨fun a hr ho => ⟨fun v hv hahead => ?tail, fun v hv hposted => ?head, fun v hstandby hflr hen => ?enable,
      fun v hen hposted => ?disable⟩,
    fun b hturn hlive hroom hadmits => ?read, rfl, fun hdue hfence => ?mark, rfl⟩
  case tail => exact congrArg Host.Outcome.next (sqDoorbell_of_within hr ho hv hahead)
  case head => exact congrArg Host.Outcome.next (cqDoorbell_of_within hr ho hv hposted)
  case enable => exact congrArg Host.Outcome.next (qpEnable_of_stopped hr ho hstandby hflr hen)
  case disable => exact congrArg Host.Outcome.next (qpDisable_of_posted hr ho hen hposted rfl)
  case read =>
    have hread : sqRead c b s = _ := (if_neg (not_not_intro hturn)).trans <|
      (if_neg (by rw [hlive, Bool.false_and]; exact Bool.false_ne_true)).trans <| (if_neg (ne_true_of_eq_false hroom)).trans
        (if_neg (by rw [hadmits]; decide))
    refine ⟨fun st hst => ?status, fun st k hst => ?mismatch, fun k hk => ?answer, fun k r hk hr hc => ?recovered,
      fun mode hmode hlim => ?run⟩
    all_goals refine congrArg Host.Outcome.next (hread.trans ?_)
    case status => simp only [hst]
    case mismatch => simp only [hst]
    case answer => simp only [hk]
    case recovered => simp only [hk, hr, hc, if_true]
    case run => simp only [hmode, hlim, Bool.false_eq_true, if_false]
  case mark => exact congrArg Host.Outcome.next (if_pos ⟨hdue, congrArg not hfence⟩)

/-! ## Dispatch and posting (06 R157, R158, R184) -/

/-- A dispatched record's input is fetched and its command put on the facet; a command not defined for its version ends at once, and
so does one whose fetch was refused. -/
def dispatchOn (p : Nat) (input : Bytes) (s : State) (e : Nat × JRec) : State :=
  let d := dmaAccess s (s.ctxFn e.2.ctx) (subField e.2.sub 24 8) (min 4096 (subField e.2.sub 32 4)) false
  let t := startCommand d.2 p e.1 e.2 (if d.1 then input else [])
  if (opDefined (byteAt e.2.sub 2) e.2.opcode && verOk t (byteAt e.2.sub 2)) = false then finishCommand t e.2.owner e.2.tag sUnsupported []
  else if d.1 then t else finishCommand t e.2.owner e.2.tag sDenied []

section
variable {p : Nat} {input : Bytes} {s : State} {e : Nat × JRec}

theorem dispatch_custody (hfree : facetFree s p 2 = true) (he : oldestCustody (heads s) = some e) :
    dispatch p input s = dispatchOn p input s e := by
  simp only [dispatch, hfree, he, if_true, Bool.not_eq_true', dispatchOn]

theorem dispatch_transaction {t u : State} {l : List (Nat × JRec)} (hcust : facetFree s p 2 = false) (hfree : facetFree s p 1 = true)
    (hl : l = (heads s).filter (fun e => !(isCustody e.2.opcode e.2.sub))) (ht : t = clearDeficits s l) (hresume : resumeReady t = none)
    (he : drr (5000 * (t.own.length + 1)) t l = (some e, u)) : dispatch p input s = dispatchOn p input u e := by
  subst ht hl
  simp only [dispatch, hcust, hfree, hresume, he, Option.isSome_none, Bool.false_eq_true, if_false, if_true, Bool.not_eq_true', dispatchOn]

end

/-- Settles O31: the record that each command looks for is there by hypothesis, and COMPLETION_POST makes no access for a result, since
the record is neither an answer nor run again. -/
theorem journalCommandsComplete : Obligations.JournalCommandsComplete := by
  intro s
  dsimp only
  refine ⟨fun i r hi => ⟨fun hst hfence => ?accept, fun hcomp hfence => ?complete⟩,
    fun p input e => ⟨fun hfree he => ?custody, fun u hcust hfree hresume he => ?transaction⟩,
    fun c i r x hfind hx hst hen hroom hfence hdma hanswer hagain => ?post⟩
  case accept =>
    refine congrArg Host.Outcome.next ?_
    rw [hi]
    exact if_pos ⟨hst, congrArg not hfence⟩
  case complete =>
    refine congrArg Host.Outcome.next ?_
    rw [hi]
    exact if_pos ⟨hcomp, congrArg not hfence⟩
  case custody => exact congrArg Host.Outcome.next (dispatch_custody hfree he)
  case transaction => exact congrArg Host.Outcome.next (dispatch_transaction hcust hfree rfl rfl hresume he)
  case post =>
    have hgo : ¬((!decide (r.st = .done)) = true ∨ (!s.is F.QP_CTRL_ENABLE c) = true ∨
        (s.get F.QP_CQ_TAIL_TAIL c + 1) % s.cqSize c = s.get F.QP_CQ_HEAD_CH c ∨ s.fenced r.owner = true ∨
        s.dmaStopped (s.ctxFn c) = true) := by
      simp [hst, hen, hroom, hfence, hdma]
    refine congrArg Host.Outcome.next ?_
    simp only [post, hfind, hx, if_neg hgo, hanswer, hagain, Bool.false_eq_true, or_self, false_and, if_false, if_true]

end Sys2Proof.Machine
end

section
/-! # Data, MAC and derived-key commands, RANDOM and the queries (07 R177 to R192, R197, R204)

A command passes its checks and loads its keys; behind them stands the one end that its mode or its MAC gives. -/

namespace Sys2Proof.Machine

open Sys2Proof

section
variable {i : Instr} {op : Nat} {w : Work} {s t : State}

/-- A command of the queue pairs whose checks pass. -/
theorem exec_command_of_checks {l : State → List (Bool × Nat)} {k : State → State → State}
    (hi : exec i s = .next (command op w s (fun s => withChecks s w (l s) (k s)))) (hr : Runs op w s) (hl : firstFail (l s) = none)
    (ht : k s s = t) : exec i s = .next t :=
  exec_command_of_runs hi hr ((withChecks_pass _ _ _ _ hl).trans ht)

theorem firstFail_single {b : Bool} {st : Nat} (h : b = true) : firstFail [(b, st)] = none :=
  firstFail_cons_eq_none.2 ⟨h, firstFail_nil⟩

/-! ## ENCIPHER and DECIPHER of both versions (07 R186 to R189) -/

section
variable {x : Sym}

/-- The eight data commands are one operation on the fields that each reads. -/
theorem exec_dataCommand
    (hi : (op, x, i) ∈ [(0x0201, symV2 w true w.input, .encipher w), (0x0202, symV2 w false w.input, .decipher w),
      (0x0210, symV1 w true 0, .v1EncipherEcb w), (0x0211, symV1 w true 1, .v1EncipherCbc w), (0x0212, symV1 w true 2, .v1EncipherCtr w),
      (0x0220, symV1 w false 0, .v1DecipherEcb w), (0x0221, symV1 w false 1, .v1DecipherCbc w),
      (0x0222, symV1 w false 2, .v1DecipherCtr w)]) : exec i s = .next (symCmd op w x s) := by
  simp only [List.mem_cons, List.not_mem_nil, or_false, Prod.mk.injEq] at hi
  obtain ⟨rfl, rfl, rfl⟩ | ⟨rfl, rfl, rfl⟩ | ⟨rfl, rfl, rfl⟩ | ⟨rfl, rfl, rfl⟩ | ⟨rfl, rfl, rfl⟩ | ⟨rfl, rfl, rfl⟩ | ⟨rfl, rfl, rfl⟩ |
    ⟨rfl, rfl, rfl⟩ := hi <;> rfl

variable {k : KeyRec} (hr : Runs op w s) (hf : x.fieldsOk w (algOf s w w.a) = true)
  (hload : LoadsKey s w w.a (if x.enc then 1 else 2) false k t) (hfit : x.fit k.alg = true)
include hr hf hload hfit

theorem symCmd_of_key (hmode : x.mode ≠ 4) (hunused : w.unused 1 = true) :
    symCmd op w x s = symEnd t w (x.run k.alg k.material []) := by
  refine (command_runs _ _ _ _ hr).trans ((withChecks_pass _ _ _ _ (firstFail_single ?_)).trans ?_)
  · simp [hmode, hunused, hf]
  · rw [withKey_ok _ _ _ _ _ _ _ _ _ _ hload hfit, if_neg (by simp [hmode])]

theorem symCmd_of_keys {k2 : KeyRec} {u : State} (hmode : x.mode = 4) (hunused : w.unused 2 = true) (hne : w.a ≠ w.b)
    (hload2 : LoadsKey t w w.b 1 false k2 u) (halg : k2.alg = k.alg) :
    symCmd op w x s = symEnd u w (x.run k.alg k.material k2.material) := by
  refine (command_runs _ _ _ _ hr).trans ((withChecks_pass _ _ _ _ (firstFail_single ?_)).trans ?_)
  · simp [hmode, hunused, hf, hne]
  · rw [withKey_ok _ _ _ _ _ _ _ _ _ _ hload hfit, if_pos (by simp [hmode]),
      withKey_ok _ _ _ _ _ _ _ _ _ _ hload2 (decide_eq_true halg)]

end

/-- Settles O17: the mode decides whether one key is loaded or two; the result of the run decides the status. -/
theorem dataCommandsComplete : Obligations.DataCommandsComplete := by
  intro w s op x i hi hr hf k t hload hfit
  rw [exec_dataCommand hi]
  refine ⟨fun hmode hunused => ?oneKey, fun hmode hunused hne k2 u hload2 halg d hd => ?twoKeys⟩
  case oneKey =>
    rw [symCmd_of_key hr hf hload hfit hmode hunused]
    exact ⟨fun d hd => by rw [hd, symEnd], fun hnone => by rw [hnone, symEnd]⟩
  case twoKeys => rw [symCmd_of_keys hr hf hload hfit hmode hunused hne hload2 halg, hd, symEnd]

/-! ## TRANSLATE, MACs, derived keys and RANDOM (07 R189 to R192, R197) -/

theorem macEnd_verify (u : State) (x : Mac) (kalg : Nat) (key : Bytes) :
    macEnd u w x true kalg key =
      endWith u w (if x.expect.take x.len = (macValue x.alg x.pad kalg key x.msg).take x.len then sOk else sVerifyFail) [] := rfl

theorem macEnd_generate (u : State) (x : Mac) (kalg : Nat) (key : Bytes) :
    macEnd u w x false kalg key = endWith u w sOk ((macValue x.alg x.pad kalg key x.msg).take x.len) := rfl

section
variable {k : KeyRec}

theorem macCmd_of_key {v : Bool} (hr : Runs op w s)
    (hf : (w.unused 1 && (macOf w v w.input).ok && w.fits (if v then 0 else (macOf w v w.input).len)) = true)
    (hload : LoadsKey s w w.a (if v then 7 else 6) false k t) (hfit : macFit (macOf w v w.input).alg k.alg = true) :
    macCmd op v w s = macEnd t w (macOf w v w.input) v k.alg k.material := by
  refine (command_runs _ _ _ _ hr).trans ((withChecks_pass _ _ _ _ (firstFail_single hf)).trans ?_)
  rw [withKey_ok _ _ _ _ _ _ _ _ _ _ hload hfit]

/-- A derived-key command ends under the working key that the AES key of handle A, the label and the context give. -/
theorem derivedCmd_of_key {ok : Nat → Bytes → Bool} {fin : State → Nat → Bytes → Bytes → State} {alg : Nat} {label ctx rest : Bytes}
    (hr : Runs op w s) (hblock : derivBlock w.input = some (alg, label, ctx, rest)) (hunused : w.unused 1 = true)
    (hload : LoadsKey s w w.a 5 false k t) (haes : isAesAlg k.alg = true) (hok : ok alg rest = true) :
    derivedCmd op w s ok fin = fin t alg (derivedKey alg k.alg k.material label ctx) rest := by
  refine (command_runs _ _ _ _ hr).trans ?_
  simp only [hblock]
  rw [withChecks_pass _ _ _ _ (firstFail_single (Bool.and_eq_true_iff.2 ⟨hunused, hok⟩)), withKey_ok _ _ _ _ _ _ _ _ _ _ hload haes]

end

end

/-- Settles O18: the MAC and derived-key commands are one operation each for both directions, and the direction decides how they end. -/
theorem translateMacAndDerivedCommandsComplete : Obligations.TranslateMacAndDerivedCommandsComplete := by
  intro w s
  dsimp only
  refine ⟨fun hr hf k t k2 u hload hfit hload2 hfit2 clear e hclear he => ?translate, fun v hr hf k t hload hfit => ?mac,
    fun alg label ctx rest k t hblock hunused hload haes => ⟨fun e hr hok => ?derivedData, fun v hr hok => ?derivedMac⟩,
    fun hr hf hrng => ?random⟩
  case translate =>
    refine exec_command_of_checks rfl hr (firstFail_single hf) ?_
    rw [withKey_ok _ _ _ _ _ _ _ _ _ _ hload hfit, withKey_ok _ _ _ _ _ _ _ _ _ _ hload2 hfit2, hclear]
    exact congrArg (symEnd u w) he
  case mac =>
    have hend := macCmd_of_key hr hf hload hfit
    refine ⟨?_, ?_⟩ <;> rintro rfl
    · exact congrArg Host.Outcome.next (hend.trans (macEnd_generate ..))
    · exact congrArg Host.Outcome.next (hend.trans (macEnd_verify ..))
  case derivedData =>
    cases e with
    | false => exact congrArg Host.Outcome.next (derivedCmd_of_key hr hblock hunused hload haes hok)
    | true => exact congrArg Host.Outcome.next (derivedCmd_of_key hr hblock hunused hload haes hok)
  case derivedMac =>
    refine ⟨?_, ?_⟩ <;> rintro rfl
    · exact congrArg Host.Outcome.next ((derivedCmd_of_key hr hblock hunused hload haes hok).trans (macEnd_generate ..))
    · exact congrArg Host.Outcome.next ((derivedCmd_of_key hr hblock hunused hload haes hok).trans (macEnd_verify ..))
  case random =>
    refine exec_command_of_checks rfl hr ?_ rfl
    simp only [firstFail_cons_eq_none, firstFail_nil, and_true]
    exact ⟨hf, congrArg not hrng⟩

/-! ## Queries (07 R177, R204) -/

/-- A query without input, whose fields hold and whose result fits, gives its answer. -/
theorem exec_query_of_fields {i : Instr} {op n : Nat} {w : Work} {s t : State} {ok : Bool} {k : State → State}
    (hi : exec i s = .next (query op w s ok n k)) (hlen : w.len = 0) (hr : Runs op w s) (hf : (ok && w.fits n) = true) (ht : k s = t) :
    exec i s = .next t :=
  exec_command_of_checks hi hr (firstFail_single (by simpa [hlen] using hf)) ht

/-- Settles O19: each query is `query` with its own fields and answer. -/
theorem queriesComplete : Obligations.QueriesComplete := by
  intro w s hlen
  refine ⟨fun hr hf => ?version, fun hr hf r hfind => ?key, fun hr hf => ?list, fun hr hf => ?owner, fun hr hf => ?device⟩
  case version => exact exec_query_of_fields rfl hlen hr hf rfl
  case key =>
    refine exec_query_of_fields rfl hlen hr hf ?_
    rw [hfind]
    exact if_neg (not_not_intro rfl)
  case list => exact exec_query_of_fields rfl hlen hr hf rfl
  case owner => exact exec_query_of_fields rfl hlen hr hf rfl
  case device => exact exec_query_of_fields rfl hlen hr hf rfl

end Sys2Proof.Machine
end

section
/-! # Public-key commands and their resumption (07 R193 to R196, R526; 05 R121, R125)

A public-key command passes its checks and parks. COMMAND_RESUME takes the operation that has ended from the queue; what the operation
was decides how its command ends. -/

namespace Sys2Proof.Machine

open Sys2Proof

/-! ## Commands that park (07 R193 to R196) -/

/-- The checks on the description of the key that an agreement creates pass, and the command's own stand behind them. -/
theorem firstFail_agreeAttr_append {w : Work} {s : State} {l : List (Bool × Nat)} (hlen : 32 ≤ w.len)
    (hcheck : creationCheck s w.o (attrOf w.input) = sOk)
    (hattr : (decide ((attrOf w.input).replaced = 0) && !(isExtAlg (attrOf w.input).alg)) = true)
    (huse : (!([3, 4, 5].contains (attrOf w.input).use)) = true) (hl : firstFail l = none) : firstFail (agreeAttr s w ++ l) = none := by
  simp only [agreeAttr, List.cons_append, List.nil_append, firstFail_cons_eq_none]
  exact ⟨decide_eq_true hlen, decide_eq_true hcheck, hattr, huse, hl⟩

theorem verifyPark_of_valid {w : Work} {s : State} {alg : Nat} {pub : Bytes}
    (h : verifyInputOk alg pub ((w.input.drop (w.f 52 1 + w.f 60 2)).take (w.f 56 4)) = true) :
    verifyPark s w alg pub =
      park s w 0x0702 alg (pkLen alg pub ((w.input.drop (w.f 52 1 + w.f 60 2)).length - w.f 56 4)) false :=
  if_neg (by simp [h])

/-! ## COMMAND_RESUME (07 R195) -/

section
variable {p : Fin 72} {o t st : Nat} {s : State} {x : HxOp} {l : List HxOp}

/-- The queue of ended commands without the command of work tag `t`. -/
def resumeTaken (s : State) (o t : Nat) : State :=
  { s with jr := { s.jr with resume := s.jr.resume.filter (fun y => y != (o, t)) } }

/-- The command of journal record `i` runs on facet `p`. -/
def onFacet (s : State) (p o i : Nat) (r : JRec) : State :=
  jrMod (s.modFacet p (fun f => { f with work := .cmd r.ctx r.aseq, owner := o })) i (fun y => { y with facet := p + 1, parked := false })

theorem resumeOn_of_running {i : Nat} {r : JRec} (h : jrRunning s o t = some (i, r)) (p : Nat) : resumeOn s p o t = onFacet s p o i r := by
  simp only [resumeOn, h, onFacet]

section
variable (hfree : facetFree s p 1 = true) (hready : resumeReady s = some (o, t)) (hresult : x.result = some st)
include hfree hready hresult

theorem exec_commandResume_of_operation {i : Nat} {r : JRec}
    (hops : s.hx.ops.filter (fun x => decide (x.owner = o) && decide (x.tag = t)) = [x]) (hjudge : x.judge = none)
    (hrun : jrRunning (opDone (resumeTaken s o t) x) o t = some (i, r)) :
    exec (.commandResume p) s = .next (resumeEnd (onFacet (opDone (resumeTaken s o t) x) p o i r) x st) := by
  refine congrArg Host.Outcome.next ?_
  rw [← resumeOn_of_running hrun]
  simp only [commandResume, hfree, hready, hops, List.head?_cons, hresult, hjudge, Bool.not_true, Bool.false_eq_true, if_false, resumeTaken,
    List.foldl_cons, List.foldl_nil]

theorem exec_commandResume_of_judge {j : Judge}
    (hops : s.hx.ops.filter (fun x => decide (x.owner = o) && decide (x.tag = t)) = x :: l) (hjudge : x.judge = some j) :
    exec (.commandResume p) s = .next (judged (resumeOn ((x :: l).foldl opDone (resumeTaken s o t)) p o t) (x :: l) j) := by
  refine congrArg Host.Outcome.next ?_
  simp only [commandResume, hfree, hready, hops, List.head?_cons, hresult, hjudge, Bool.not_true, Bool.false_eq_true, if_false, resumeTaken]

end

end

/-! ## How a resumed command ends (07 R195, R196) -/

theorem hxKind_le_five (op : Nat) : hxKind op ≤ 5 := by
  unfold hxKind
  split <;> decide

section
variable {s : State} {x : HxOp}

theorem resumeEnd_of_failed {st : Nat} (h : st ≠ sOk) : resumeEnd s x st = endWith s x.w st := if_pos h

theorem resumeEnd_of_signature (hk : hxKind x.opcode = 0) : resumeEnd s x sOk = endWith s x.w sOk x.out := by
  simp [resumeEnd, hk]

theorem resumeEnd_of_verification (hk : hxKind x.opcode = 1) :
    resumeEnd s x sOk = endWith s x.w (if x.out = [1] then sOk else sVerifyFail) := by
  simp [resumeEnd, hk]

theorem resumeEnd_of_generation (hk : 5 ≤ hxKind x.opcode)
    (hcheck : creationCheck s x.w.o (attrOf x.w.input) (generateBody x.w (attrOf x.w.input)) = sOk) :
    resumeEnd s x sOk = createFor s x.w (newKeyOf x.w.o (attrOf x.w.input) 0 [] (some ⟨x.out, x.out2⟩)) := by
  have hk5 := Nat.le_antisymm (hxKind_le_five x.opcode) hk
  simp [resumeEnd, hk5, hcheck]

/-- Bytes of the key that an agreement creates: an HMAC key has a length the specification leaves open. -/
def agreedLen (s : State) (a : Attr) : Nat := if a.alg = 7 then 1 + s.free.1 % 32 else algKeyLen a.alg

/-- What the key derivation of an agreement or an encapsulation is labelled with. -/
def agreedLabel (kind : Nat) : String := if kind = 2 then "PH64-AGREE" else "PH64-KEM"

theorem resumeEnd_of_agreement (hlo : 2 ≤ hxKind x.opcode) (hhi : hxKind x.opcode ≤ 4)
    (hcheck : creationCheck s.free.2 x.w.o (attrOf x.w.input) = sOk) :
    resumeEnd s x sOk = createFor s.free.2 x.w
      (newKeyOf x.w.o (attrOf x.w.input) 0 ((kdf x.out (agreedLabel (hxKind x.opcode)) (x.w.input.drop (x.w.len - x.w.f 52 2))).take
        (agreedLen s (attrOf x.w.input))) none)
      (if hxKind x.opcode = 4 then x.out2 else []) := by
  obtain hk | hk | hk : hxKind x.opcode = 2 ∨ hxKind x.opcode = 3 ∨ hxKind x.opcode = 4 := by omega
  · simp [resumeEnd, hk, hcheck, agreedLen, agreedLabel]
  · simp [resumeEnd, hk, hcheck, agreedLen, agreedLabel]
  · simp [resumeEnd, hk, hcheck, agreedLen, agreedLabel]

end

/-- Settles O23: each command passes its checks and parks; COMMAND_RESUME takes the one operation of its command, or the
operations of a quorum, and each kind of operation ends in its own way. -/
theorem publicKeyCommandsComplete : Obligations.PublicKeyCommandsComplete := by
  intro w s
  refine ⟨fun hr hf hkey hfit => ?sign,
    fun hr hf => ⟨fun ha hz k t hkey hload hfit hvalid => ?verifyOwn, fun ha hfit hvalid => ?verifyInput⟩,
    fun hlen hcheck hattr huse => ⟨fun hr hf hkey hfit hpeer => ?agree, fun hr hf hkey hfit hsize => ?decapsulate, fun hr hf => ?encapsulate⟩,
    fun hr hfind hext hf => ?exportPublic,
    fun p o t x st i r hfree hready hops hresult hjudge hrun => ?resume,
    fun p o t x l st j hfree hready hops hresult hjudge => exec_commandResume_of_judge hfree hready hresult hops hjudge⟩
  case sign =>
    refine exec_command_of_checks rfl hr ?_ rfl
    simp only [firstFail_cons_eq_none, firstFail_nil, and_true]
    exact ⟨hf, decide_eq_true hkey, hfit⟩
  case verifyOwn =>
    refine exec_command_of_checks rfl hr ?_ ?_
    · simp only [firstFail_cons_eq_none, firstFail_nil, and_true, hkey, decide_eq_true ha, if_true]
      exact ⟨Bool.and_eq_true_iff.2 ⟨hf, hz⟩, rfl, hfit⟩
    · rw [if_pos (decide_eq_true ha), withKey_ok _ _ _ _ _ _ _ _ _ _ hload hfit, verifyPark_of_valid hvalid]
  case verifyInput =>
    have hown : ¬ decide (w.a ≠ 0) = true := by simp [ha]
    refine exec_command_of_checks rfl hr ?_ ?_
    · simp only [firstFail_cons_eq_none, firstFail_nil, and_true, hown, Bool.not_false, Bool.true_or]
      exact Bool.and_eq_true_iff.2 ⟨hf, hfit⟩
    · rw [if_neg hown, verifyPark_of_valid hvalid]
  case agree =>
    refine exec_command_of_checks rfl hr (firstFail_agreeAttr_append hlen hcheck hattr huse ?_) rfl
    simp only [firstFail_cons_eq_none, firstFail_nil, and_true]
    exact ⟨hf, decide_eq_true hkey, hfit, hpeer⟩
  case decapsulate =>
    refine exec_command_of_checks rfl hr (firstFail_agreeAttr_append hlen hcheck hattr huse ?_) rfl
    simp only [firstFail_cons_eq_none, firstFail_nil, and_true]
    exact ⟨hf, decide_eq_true hkey, hfit, decide_eq_true hsize⟩
  case encapsulate =>
    exact exec_command_of_checks rfl hr (firstFail_agreeAttr_append hlen hcheck hattr huse (firstFail_single hf)) rfl
  case exportPublic =>
    refine exec_command_of_checks rfl hr ?_ rfl
    simp only [firstFail_cons_eq_none, firstFail_nil, and_true, hfind, if_true, decide_true]
    exact ⟨hf, trivial, hext⟩
  case resume =>
    have hresumed := exec_commandResume_of_operation hfree hready hresult hops hjudge hrun
    refine ⟨fun hst => ?_, ?_, ?_, ?_, ?_⟩
    · exact hresumed.trans (congrArg _ (resumeEnd_of_failed hst))
    · rintro rfl hk
      exact hresumed.trans (congrArg _ (resumeEnd_of_signature hk))
    · rintro rfl hk
      exact hresumed.trans (congrArg _ (resumeEnd_of_verification hk))
    · rintro rfl hk hcheck
      exact creates_of _ _ _ _ _ _ (hresumed.trans (congrArg _ (resumeEnd_of_generation hk hcheck)))
    · rintro rfl hlo hhi _ _ _ hcheck
      exact creates_of _ _ _ _ _ _ (hresumed.trans (congrArg _ (resumeEnd_of_agreement hlo hhi hcheck)))

end Sys2Proof.Machine
end

section
/-! # Stream associations (07 R198, R199; 09 R243 to R270)

SA_INSTALL and SA_EPOCH_KEY load an uncounted key of the suite's algorithm by `flowKey`; the four commands then make the one change that
their checks admit. -/

namespace Sys2Proof.Machine

open Sys2Proof

/-- An uncounted key of the suite's algorithm is loaded for a flow (07 R199). -/
theorem flowKey_of_loaded {s t : State} {w : Work} {dir suite : Nat} {r : KeyRec} {k : KeyRec → State → State}
    (hkey : keyCheck s w.o false w.acc w.a.toNat (if dir = 1 then 1 else 2) = (sOk, r))
    (hload : LoadsKey s w w.a (if dir = 1 then 1 else 2) false r t) (hcount : r.counted = false) (halg : r.alg = suiteAlg suite) :
    flowKey s w dir suite k = k r t := by
  rw [flowKey]
  refine (withChecks_pass _ _ _ _ ?_).trans ?_
  · simp only [firstFail_cons_eq_none, firstFail_nil, and_true, hkey]
    exact ⟨rfl, congrArg not hcount⟩
  · exact withKey_ok _ _ _ _ _ _ _ _ _ _ hload (decide_eq_true halg)

/-- Settles O24: the checks of each command are its hypotheses. -/
theorem associationCommandsComplete : Obligations.AssociationCommandsComplete := by
  intro w s
  dsimp only
  refine ⟨fun hr hf hfree hclash hport r t hkey hload hcount halg hroom hquota hsealed => ?install,
    fun f hr hf hown hst hnamed r t hkey hload hcount halg => ?rekey, fun f hr hf hown => ?withdraw, fun f hr hf hown => ?stats⟩
  case install =>
    refine exec_command_of_checks rfl hr ?_ ((flowKey_of_loaded hkey hload hcount halg).trans
      (withChecks_pass _ _ _ _ (firstFail_single ?_)))
    · simp only [firstFail_cons_eq_none, firstFail_nil, and_true]
      exact ⟨hf, by simp [hfree, hclash, hport]⟩
    · simp only [hroom, hquota, decide_true, Bool.true_and]
      simpa [imp_iff_not_or, or_assoc] using hsealed
  case rekey =>
    refine exec_command_of_checks rfl hr (firstFail_single hf) ?_
    simp only [hown]
    refine (withChecks_pass _ _ _ _ (firstFail_single ?_)).trans (flowKey_of_loaded hkey hload hcount halg)
    simpa [hst, imp_iff_not_or] using hnamed
  case withdraw =>
    refine exec_command_of_checks rfl hr ?_ rfl
    simp only [firstFail_cons_eq_none, firstFail_nil, and_true, hown]
    exact ⟨hf, rfl⟩
  case stats =>
    refine exec_command_of_checks rfl hr (firstFail_single hf) ?_
    simp only [hown]

end Sys2Proof.Machine
end

section
/-! # Payment functions and bundles (08 R207 to R236, 07 R191)

A payment command passes its checks and loads one key or two, and a bundle loads three. What stands behind the loads is a translation, a
verification or a generation; a step that fails decides the status and the failure result. -/

namespace Sys2Proof.Machine

open Sys2Proof

section
variable {i : Instr} {op use useB : Nat} {w : Work} {s t u : State} {ka kb : KeyRec} {fits fitsB : Nat → Bool} {l : List (Bool × Nat)}

/-! ## Commands behind their key loads -/

/-- A command whose checks pass and whose key of handle A loads. -/
theorem exec_command_of_key {body : KeyRec → State → State}
    (hi : exec i s = .next (command op w s (fun s => withChecks s w l (fun s => withKey s w w.a use fits body)))) (hr : Runs op w s)
    (hl : firstFail l = none) (hload : LoadsKey s w w.a use false ka t) (hfit : fits ka.alg = true) :
    exec i s = .next (body ka t) :=
  exec_command_of_checks (l := fun _ => l) hi hr hl (withKey_ok _ _ _ _ _ _ _ _ _ _ hload hfit)

/-- A command whose checks pass and whose keys of handles A and B load, in that order. -/
theorem exec_command_of_keys {body : KeyRec → KeyRec → State → State}
    (hi : exec i s = .next (command op w s (fun s => withChecks s w l (fun s => withKey s w w.a use fits (fun a t =>
      withKey t w w.b useB fitsB (base := s) (k := fun b s => body a b s))))))
    (hr : Runs op w s) (hl : firstFail l = none) (hload : LoadsKey s w w.a use false ka t) (hfit : fits ka.alg = true)
    (hloadB : LoadsKey t w w.b useB false kb u) (hfitB : fitsB kb.alg = true) : exec i s = .next (body ka kb u) :=
  exec_command_of_checks (l := fun _ => l) hi hr hl
    ((withKey_ok _ _ _ _ _ _ _ _ _ _ hload hfit).trans (withKey_ok _ _ _ _ _ _ _ _ _ _ hloadB hfitB))

/-- The two ends of a command that one condition decides. -/
theorem exec_ends_of_ite {p good bad : Prop} [Decidable p] {a b : State} (h : exec i s = .next (if p then a else b)) (hgood : good → p)
    (hbad : bad → ¬p) : (good → exec i s = .next a) ∧ (bad → exec i s = .next b) :=
  ⟨fun hg => by rw [h, if_pos (hgood hg)], fun hb => by rw [h, if_neg (hbad hb)]⟩

theorem firstFail_pair {b c : Bool} {st sd : Nat} (hb : b = true) (hc : c = true) : firstFail [(b, st), (c, sd)] = none :=
  firstFail_cons_eq_none.2 ⟨hb, firstFail_single hc⟩

/-! ## PIN verifications and translations (08 R213 to R218) -/

/-- A format that draws no fill needs no source, and a source that runs fills every format (08 R212). -/
theorem not_fill_of_stopped {o : Nat} (hrng : o = 0 ∨ s.rngStopped = false) : ¬ (needsFill o = true ∧ s.rngStopped = true) := by
  rintro ⟨hfill, hstop⟩
  have hdraws : o ≠ 0 := by simpa [needsFill] using hfill
  exact hrng.elim hdraws (ne_true_of_eq_false · hstop)

/-- Where the fill can be drawn, the check of the inbound field alone decides a translation. -/
theorem ite_translation {α : Type} {f o : Nat} {field : List Nat} {stopped failed done : α} (hrng : o = 0 ∨ s.rngStopped = false) :
    (if needsFill o ∧ s.rngStopped then stopped else if !(pinCheck f field) then failed else done) =
      if pinCheck f field then done else failed := by
  rw [if_neg (not_fill_of_stopped hrng)]
  cases pinCheck f field <;> rfl

theorem offsetVerified_iff {field : List Nat} {b : KeyRec} {v : Bytes} :
    offsetVerified w field b v = true ↔ pinCheck (w.f 48 1) field = true ∧ w.f 49 1 ≤ field.getD 1 0 ∧
      ∀ n < w.f 49 1, (pinDigits field).getD n 0 = ((decimalised w b.alg b.material v).getD n 0 + (offsetNibbles w).getD n 0) % 10 := by
  simp only [offsetVerified, Bool.and_eq_true, decide_eq_true_eq, List.all_eq_true, List.mem_range, and_assoc]

theorem pvvVerified_iff {field pan : List Nat} {b : KeyRec} :
    pvvVerified w field pan b = true ↔ pinCheck (w.f 48 1) field = true ∧
      (decimalScan (nibblesOf (tdesEnc b.material (ofNibbles (panRight 11 pan ++ [w.f 49 1] ++ (pinDigits field).take 4))))).take 4 =
        nibblesOf (sliceBytes w.inl 2 2) := by
  simp only [pvvVerified, Bool.and_eq_true, decide_eq_true_eq]

end

/-- Settles O20: behind its loads each command has one condition left, which the hypotheses on the PIN field decide. -/
theorem pinCommandsComplete : Obligations.PinCommandsComplete := by
  intro w s ka kb t u
  dsimp only
  refine ⟨fun hr hf hpair hload hfit hloadB hfitB hrng => ?translate, fun hr hf hload hfit hloadB hfitB => ?offset,
    fun hr hf hload hfit hloadB hfitB => ?pvv, fun hr hf hload hfit hrng => ?generate,
    fun hr hf hload hfit hloadB hfitB hpin hlen => ?offsetGenerate⟩
  case translate =>
    have hend := exec_command_of_keys (i := .pinTranslate w) rfl hr (firstFail_pair hf hpair) hload hfit hloadB hfitB
    exact exec_ends_of_ite (hend.trans (congrArg _ (ite_translation hrng))) id ne_true_of_eq_false
  case offset =>
    have hend := exec_command_of_keys (i := .pinVerifyOffset w) rfl hr (firstFail_single hf) hload hfit hloadB hfitB
    exact exec_ends_of_ite hend offsetVerified_iff.2 (mt offsetVerified_iff.1)
  case pvv =>
    have hend := exec_command_of_keys (i := .pinVerifyPvv w) rfl hr (firstFail_single hf) hload hfit hloadB (decide_eq_true hfitB)
    exact exec_ends_of_ite hend pvvVerified_iff.2 (mt pvvVerified_iff.1)
  case generate =>
    have hend := exec_command_of_key (i := .pinGenerate w) rfl hr (firstFail_single hf) hload hfit
    exact hend.trans (congrArg _ (if_neg (ne_true_of_eq_false hrng)))
  case offsetGenerate =>
    have hend := exec_command_of_keys (i := .pinOffsetGenerate w) rfl hr (firstFail_single hf) hload hfit hloadB hfitB
    exact hend.trans (congrArg _ (if_neg (not_or.2 ⟨by rw [hpin]; decide, Nat.not_lt.2 hlen⟩)))

section
variable {i : Instr} {op : Nat} {w : Work} {s t : State} {k : KeyRec}

/-! ## Card codes and application cryptograms (08 R222 to R225) -/

/-- CVC_VERIFY and CVC_GENERATE are one operation, and the first compares the code where the second answers with it. -/
theorem exec_cvcCommand {v : Bool} (hi : exec i s = .next (cvcCmd op v w s)) (hr : Runs op w s)
    (hf : (w.unused 1 && bcd (nibblesOf (sliceBytes w.inl 0 2)) && bcd ((nibblesOf (sliceBytes w.inl 2 2)).take 3) &&
      decide (w.f 51 1 % 16 = 15) && decide (3 ≤ w.f 52 1) && decide (w.f 52 1 ≤ 5) &&
      (if v then bcd ((nibblesOf (sliceBytes w.inl 5 3)).take (w.f 52 1)) &&
        ((nibblesOf (sliceBytes w.inl 5 3)).drop (w.f 52 1)).all (fun x => decide (x = 15)) else w.z 53 56) && w.z 56 64 &&
      decide (w.len = 16) && panOk true w.input && w.fits (if v then 0 else 4)) = true)
    (hload : LoadsKey s w w.a 13 false k t) (halg : k.alg = 4) :
    exec i s = .next (if !v then endWith t w sOk (cvcBytes (cvcCode w k.material w.input) ++ [0])
      else if (nibblesOf (sliceBytes w.inl 5 3)).take (w.f 52 1) = cvcCode w k.material w.input then endWith t w sOk
      else failWith t w 1 5) :=
  exec_command_of_key hi hr (firstFail_single hf) hload (decide_eq_true halg)

/-- The three commands on application cryptograms are one operation. -/
theorem exec_acCommand {kind : Nat} (hi : (kind, i) ∈ [(0, Instr.acVerify w), (1, .acRespond w), (2, .acVerifyRespond w)]) :
    exec i s = .next (acCmd (0x0501 + kind) kind w s) := by
  simp only [List.mem_cons, List.not_mem_nil, or_false, Prod.mk.injEq] at hi
  obtain ⟨rfl, rfl⟩ | ⟨rfl, rfl⟩ | ⟨rfl, rfl⟩ := hi <;> rfl

theorem acVerified_iff {pan arqc data : Bytes} :
    acVerified w k pan arqc data = true ↔ acMac k.alg (w.f 50 1) (acKey w k pan) data = arqc := decide_eq_true_iff

end

/-- Settles O21: behind its loads each command has one condition left, the comparison with the code, the cryptogram, the PIN field or the
MAC that the command expects. -/
theorem cardAndDukptCommandsComplete : Obligations.CardAndDukptCommandsComplete := by
  intro w s k kb t u
  refine ⟨fun v => ?card, fun kind i hi => ?cryptogram, ?dukptPin, ?dukptMac, ?dukptData⟩
  case card =>
    intro e l c hr hf hload halg
    refine ⟨?_, ?_, ?_⟩ <;> rintro rfl
    · exact exec_cvcCommand rfl hr hf hload halg
    · exact fun hsame => (exec_cvcCommand rfl hr hf hload halg).trans (congrArg _ (if_pos hsame))
    · exact fun hdiffers => (exec_cvcCommand rfl hr hf hload halg).trans (congrArg _ (if_neg hdiffers))
  case cryptogram =>
    intro fixed arqc rsp key good hr hf hload hfit
    have hend := exec_command_of_key (exec_acCommand hi) hr (firstFail_single hf) hload hfit
    refine ⟨fun h => hend.trans (congrArg _ (if_neg ?_)), fun hkind hbad => hend.trans (congrArg _ (if_pos ⟨hkind, ?_⟩))⟩
    · rintro ⟨hkind, hbad⟩
      have hgood := acVerified_iff.2 (h.resolve_left hkind)
      rw [hgood] at hbad
      cases hbad
    · rw [Bool.not_eq_true', ← Bool.not_eq_true]
      exact mt acVerified_iff.1 hbad
  case dukptPin =>
    intro i o ksn blk pan field hr hf hpair hload hfit hloadB hfitB hrng
    have hend := exec_command_of_keys (i := .dukptPinTranslate w) rfl hr (firstFail_pair hf hpair) hload hfit hloadB hfitB
    exact exec_ends_of_ite (hend.trans (congrArg _ (ite_translation hrng))) id ne_true_of_eq_false
  case dukptMac =>
    intro ksn e m hr hf hload hfit
    have hend := exec_command_of_key (i := .dukptMacVerify w) rfl hr (firstFail_single hf) hload hfit
    exact exec_ends_of_ite hend id ne_true_of_eq_false
  case dukptData =>
    intro kind g bl ksn iv x hr hf hload hfit d hd
    have hend := exec_command_of_key (i := .dukptDecipher w) rfl hr (firstFail_single hf) hload hfit
    exact hend.trans (congrArg _ (congrArg (symEnd t w) hd))

/-! ## Bundles (08 R235, R236) -/

section
variable {i : Instr} {op : Nat} {w : Work} {s t : State} {checks : List (Bool × Nat)} {loads : List (Word × Nat × (Nat → Bool))}
  {ks : List KeyRec} {x y : Nat × Nat} {a b : Bool} {ra rb : Nat} {steps : List KeyRec → State → List (Nat × Nat)}
  {res : List KeyRec → State → Bytes × State}

theorem transVerdict_of_fill {f o : Nat} {field : List Nat} (hrng : o = 0 ∨ s.rngStopped = false) :
    transVerdict s f o field = verdict (pinCheck f field) 1 :=
  if_neg (not_fill_of_stopped hrng)

/-- The first of two steps that fails decides how a bundle ends. -/
theorem bundleRun_of_verdicts (hload : bundleLoads w s loads = some (sOk, ks, t)) (hsteps : steps ks t = [x, y])
    (hx : x = verdict a ra) (hy : y = verdict b rb) :
    bundleRun s w loads steps res =
      if a then if b then endWith (res ks t).2 w sOk (res ks t).1 else failWith t w 2 rb else failWith t w 1 ra := by
  subst hx hy
  simp only [bundleRun, hload, hsteps, ne_eq, not_true_eq_false, if_false]
  cases a with
  | false => rfl
  | true =>
    cases b with
    | false => rfl
    | true => rfl

/-- How a bundle of two verdicts ends, once its checks pass and its loads succeed. -/
theorem exec_bundle_of_verdicts
    (hi : exec i s = .next (command op w s (fun s => withChecks s w checks (fun s => bundleRun s w loads steps res)))) (hr : Runs op w s)
    (hl : firstFail checks = none) (hload : bundleLoads w s loads = some (sOk, ks, t))
    (hsteps : steps ks t = [x, y]) (hx : x = verdict a ra) (hy : y = verdict b rb) :
    (a = true → b = true → exec i s = .next (endWith (res ks t).2 w sOk (res ks t).1)) ∧
      (a = true → ¬b = true → exec i s = .next (failWith t w 2 rb)) ∧ (¬a = true → exec i s = .next (failWith t w 1 ra)) := by
  have hend := exec_command_of_checks (l := fun _ => checks) hi hr hl (bundleRun_of_verdicts hload hsteps hx hy)
  refine ⟨fun ha hb => ?_, fun ha hb => ?_, fun ha => ?_⟩
  · rw [hend, if_pos ha, if_pos hb]
  · rw [hend, if_pos ha, if_neg hb]
  · rw [hend, if_neg ha]

end

/-- Settles O22: the two steps of each bundle are verdicts, a translation's because its fill can be drawn. -/
theorem bundlesComplete : Obligations.BundlesComplete := by
  intro w s t k1 k2 k3
  refine ⟨?acTranslate, ?dukpt, ?acVerify⟩
  case acTranslate =>
    intro i o good r hr hf hpair hload hrng
    obtain ⟨hboth, hpin, hac⟩ := exec_bundle_of_verdicts (i := .acVerifyPinTranslate w) rfl hr (firstFail_pair hf hpair) hload
      rfl rfl (transVerdict_of_fill hrng)
    exact ⟨hboth, fun hgood hbad => hpin hgood (ne_true_of_eq_false hbad), hac⟩
  case dukpt =>
    intro ksn acct e m i o fit pinf r hr hf hpair hload hrng
    obtain ⟨hboth, hmac, hpin⟩ := exec_bundle_of_verdicts (i := .dukptPinTranslateMacVerify w) rfl hr (firstFail_pair hf hpair) hload
      rfl (transVerdict_of_fill hrng) rfl
    exact ⟨hboth, fun hgood hbad => hmac hgood (ne_true_of_eq_false hbad), fun hbad => hpin (ne_true_of_eq_false hbad)⟩
  case acVerify =>
    intro pvv v good pin hr hf hload
    exact exec_bundle_of_verdicts (i := .acVerifyPinVerify w) rfl hr (firstFail_single hf) hload rfl rfl rfl

end Sys2Proof.Machine
end

section
/-! # Frames, packet number marks, links and stream facets (09 R237 to R273, 10 R295)

FRAME_RECEIVE meets seven conditions, which a port that takes the frame settles, and then the branches of 09 Table 09.8. The other
commands look at one or two conditions each; their hypotheses settle them. -/

namespace Sys2Proof.Machine

open Sys2Proof

/-- Settles O37: a good frame passes the MAC and the conditions of its pair, and then its EtherType and the side of its port choose one
branch; each of the other commands finds its frame, flow or link in the state that the one guard before its effect admits. -/
theorem framePathCommandsComplete : Obligations.FramePathCommandsComplete := by
  intro n k s
  dsimp only
  refine ⟨fun stamp o ovf hsub => ?badFcs, fun stamp o ovf hsub hlen => ?badLength,
    fun stamp o hsub hleast hmost hreset hpaired hlink => ?good, fun i hwaiting hcached hroom => ?fill, fun x p hx hp => ?dispatch,
    fun _ => rfl, fun i j f hf hst hnear => ?mark, fun x r htx hdark hreset => ?transmit, fun up hsub hchanged => ?link⟩
  case good =>
    have htaken : frameReceive n k stamp o true false s = _ := (if_neg (Nat.not_le.2 hsub)).trans <| (if_neg Bool.false_ne_true).trans <|
      (if_neg (not_or.2 ⟨Nat.not_lt.2 hleast, Nat.not_lt.2 hmost⟩)).trans <| (if_neg hreset).trans <|
      (if_neg (ne_true_of_eq_false (congrArg not hpaired))).trans <| (if_neg (ne_true_of_eq_false (congrArg not hlink))).trans
        (if_neg Bool.false_ne_true)
    refine ⟨fun hpause => ?pause, fun heapol => ?eapol, fun hpause heapol hclock => ⟨fun hclear => ?clear,
      fun hsealed hsec htag => ?secTag, fun h hsealed hsec hat => ?sealedFlow⟩⟩
    all_goals refine congrArg Host.Outcome.next (htaken.trans ?_)
    case pause => exact if_pos hpause
    case eapol => exact (if_neg (by rw [heapol]; decide)).trans (if_pos heapol)
    all_goals refine (if_neg hpause).trans <| (if_neg heapol).trans <| (if_neg (ne_true_of_eq_false hclock)).trans ?_
    case clear => exact if_pos hclear
    case secTag => exact (if_neg hsealed).trans <| (if_pos hsec).trans (if_neg (ne_true_of_eq_false (congrArg not htag)))
    case sealedFlow =>
      refine (if_neg hsealed).trans <| (if_neg hsec).trans ?_
      rw [hat] <;> rfl
  all_goals refine congrArg Host.Outcome.next ?_
  case badFcs => exact (if_neg (Nat.not_le.2 hsub)).trans (if_pos rfl)
  case badLength => exact (if_neg (Nat.not_le.2 hsub)).trans <| (if_neg Bool.false_ne_true).trans (if_pos hlen)
  case fill => exact (if_neg (not_or.2 ⟨hwaiting, ne_true_of_eq_false hcached⟩)).trans (if_pos hroom)
  case dispatch => simp only [frameDispatch, hx, hp, setStr]
  case mark =>
    rw [pnMarkWrite, hf]
    exact if_neg (not_or.2 ⟨fun hempty => hst hempty.1, fun hfar => Nat.not_lt.2 hnear hfar.1⟩)
  case transmit =>
    rw [frameTransmit, htx]
    exact if_neg (not_or.2 ⟨ne_true_of_eq_false hdark, hreset⟩)
  case link => exact if_neg (not_or.2 ⟨Nat.not_le.2 hsub, hchanged⟩)

/-- Settles O38: an episode is a second one exactly when the mark of an end stands and is not behind the tick; a hang acts on the frames
that the facet holds; the ends of an episode and of an overlap are these updates by definition. -/
theorem streamEventsComplete : Obligations.StreamEventsComplete := by
  intro p s
  dsimp only
  refine ⟨fun hheld hlag => ?start, rfl, fun hheld => ?hang, rfl⟩
  case start =>
    have hstart : lagStart p s = _ := if_neg (not_or.2 ⟨hheld, ne_true_of_eq_false hlag⟩)
    refine ⟨fun hlate => ?single, fun hended hsoon => ?again⟩
    all_goals refine congrArg Host.Outcome.next (hstart.trans ?_)
    case single => exact if_neg (by simp [hlate])
    case again => exact if_pos (by simp [hended, hsoon])
  case hang =>
    refine congrArg Host.Outcome.next ?_
    obtain ⟨id, l, hl⟩ := List.exists_cons_of_ne_nil hheld
    rw [streamHang, hl] <;> rfl

end Sys2Proof.Machine
end

section
/-! # Focus entries and time (10 R276 to R296, 07 R200, R201)

The six actions are one operation: when the instant arrives, time moves to it, the action runs, and the entry takes its outcome. The
commands on entries and the sources of time then act behind one condition each. -/

namespace Sys2Proof.Machine

open Sys2Proof

/-! ## Actions (10 R291 to R296) -/

section
variable {i : Instr} {s u : State} {e : Fin 4096} {typ outcome : Nat} {x : FEntry} {act : FEntry → State → Nat × State}

/-- An instant that arrives: the action runs at it, and an outcome other than 3 (refused) leaves the entry DONE. -/
theorem arrive_of_arrives (h : Arrives s e typ x) (hact : act x (timeAt s x.instant) = (outcome, u)) (hdone : outcome ≠ 3) :
    arrive typ e s act = setEntry u e (some { x with st := fDone, outcome := outcome }) := by
  have hgo : ¬(x.st ≠ fArmed ∨ x.typ ≠ typ ∨ firstAction s ≠ some e.val ∨ (!s.foc.runs) = true ∨ max s.now x.instant ≤ s.foc.floor) := by
    simp only [h.armed, h.kind, h.first, h.runs, not_le.2 h.floor, ne_eq, not_true_eq_false, Bool.not_true, Bool.false_eq_true, or_self,
      not_false_eq_true]
  simp only [arrive, h.entry, if_neg hgo, hact, if_neg hdone]

theorem exec_of_arrives (hi : exec i s = .next (arrive typ e s act)) (h : Arrives s e typ x)
    (hact : act x (timeAt s x.instant) = (outcome, u)) (hdone : outcome ≠ 3) :
    exec i s = .next (setEntry u e (some { x with st := fDone, outcome := outcome })) := by
  rw [hi, arrive_of_arrives h hact hdone]

end

/-- The note that an activation leaves for earlier work does not touch the key store (05 R137). -/
theorem entryKey_noteAct (s : State) (o h t : Nat) (x : FEntry) : entryKey (noteAct s o h t) x = entryKey s x := by
  unfold noteAct
  split <;> rfl

theorem keyAct_of_key {x : FEntry} {s : State} {i : Nat} (hkey : entryKey s x = some i) :
    keyAct x s = (1, activate (noteAct s x.owner (leNat (sliceBytes x.params 0 4)) x.instant) i x.instant) := by
  simp only [keyAct, entryKey_noteAct, hkey]

/-- Settles O28: each action is one run of `arrive`, and what its clause asks for keeps the outcome from being 3; the last two
commands meet the condition before their effect. -/
theorem focusActionsComplete : Obligations.FocusActionsComplete := by
  intro e x s
  dsimp only
  refine ⟨fun i h hkey => ?key, fun h => ?epoch, fun h => ?cut, fun h hleft => ?role, fun h hheld => ?swap, fun h hpresent => ?rate,
    fun he hst hlate => ?adding, fun he hst hold hpin => ?free⟩
  case key => exact exec_of_arrives rfl h (keyAct_of_key hkey) (by decide)
  case epoch => exact exec_of_arrives rfl h rfl (by split <;> decide)
  case cut => exact exec_of_arrives rfl h rfl (by decide)
  case role => exact exec_of_arrives rfl h (if_neg (Nat.not_lt.2 hleft)) (by decide)
  case swap => exact exec_of_arrives rfl h (if_neg (by simpa [← Option.isSome_iff_ne_none] using hheld)) (by decide)
  case rate => exact exec_of_arrives rfl h (if_neg hpresent) (by decide)
  case adding =>
    refine congrArg Host.Outcome.next ?_
    simp only [addingTimeout, he]
    exact if_pos ⟨hst, hlate⟩
  case free =>
    refine congrArg Host.Outcome.next ?_
    simp only [entryFree, he]
    exact if_pos ⟨hst, hold, congrArg not hpin⟩

/-! ## Commands on entries and reads of time (07 R200, R201) -/

section
variable {w : Work} {s u : State}

theorem focusAddCmd_of_checks (hr : Runs 0x0B01 w s) (htyp : w.f 48 1 = 2 ∨ (w.o = 0 ∧ (w.f 48 1 = 3 ∨ w.f 48 1 = 4 ∨ w.f 48 1 = 6)))
    (hf : (w.unused 0 && w.z 49 52 && w.z 62 64 && decide (w.f 58 4 < secNs) && w.fits 4 && paramsOk s w.o (w.f 48 1) w.input) = true)
    (hown : w.f 48 1 ≠ 2 ∨ flowsOwned s w.o w.input = true) (hahead : s.now + 2 * mtNs ≤ w.f 52 6 * secNs + w.f 58 4)
    (hcut : w.f 48 1 ≠ 3 ∨
      cutOk s (w.f 52 6 * secNs + w.f 58 4) (leNat (sliceBytes w.input 0 8)) (leNat (sliceBytes w.input 8 2)) = true)
    (hadd : focusAdd (releaseFacet s w)
      ⟨w.f 48 1, fAdding, w.o, w.f 52 6 * secNs + w.f 58 4, s.nodeId, 0, w.input, w.t, []⟩ = some u) : focusAddCmd w s = u := by
  refine (command_runs _ _ _ _ hr).trans ((if_neg ?_).trans ((withChecks_pass _ _ _ _ ?_).trans ?_))
  · omega
  · simp only [firstFail_cons_eq_none, firstFail_nil, and_true, Bool.or_eq_true, Bool.and_eq_true (decide _), decide_eq_true_eq]
    exact ⟨by omega, by omega, hown, hf, hahead, hcut⟩
  · rw [hadd]

theorem focusCancelCmd_of_armed {x : FEntry} (hr : Runs 0x0B02 w s)
    (hf : (w.unused 0 && decide (w.f 48 2 < 4096) && w.z 50 64 && decide (w.len = 0) && w.fits 0) = true)
    (he : s.fentry (w.f 48 2) = some x) (hst : x.st = fArmed) (htyp : x.typ ≠ 1) (hown : w.o = 0 ∨ x.owner = w.o)
    (hahead : s.now + 2 * mtNs ≤ x.instant) :
    focusCancelCmd w s = let t := entryRemove s (w.f 48 2)
      if t.alone then endChange t w sOk
      else releaseFacet (setFoc t { t.foc with removing := t.foc.removing ++ [(w.f 48 2, w.o, w.t, t.members.erase t.nodeId)] }) w := by
  have hgo : ¬(x.st ≠ fArmed ∨ x.typ = 1 ∨ (!(decide (w.o = 0) || decide (x.owner = w.o))) = true ∨ x.instant < s.now + 2 * mtNs) := by
    simpa [hst, htyp, hahead] using or_iff_not_imp_left.1 hown
  refine (command_runs _ _ _ _ hr).trans ((withChecks_pass _ _ _ _ (firstFail_single hf)).trans ?_)
  rw [he]
  exact if_neg hgo

end

/-! ## Sources of time (10 R276 to R280) -/

/-- The Delay_Resp that answers the outstanding request of the best master completes a sample (10 R278). -/
theorem ptpMsg_delayResp {src n received t3 : Nat} {seq : BitVec 16} {corr there : Int} {s : State}
    (hbest : bestMaster s.foc.ptp.masters = some src) (hreq : s.foc.ptp.req = some (n, t3, there)) (hn : n = seq.toNat) :
    ptpMsg src (.delayResp seq received corr) s = sampleOff (setPtp s { s.foc.ptp with req := none })
      ((there - ((received * ptpNs : Nat) - corr - (t3 : Int))) / (2 * (ptpNs : Int))) := by
  simp only [ptpMsg, hreq]
  exact if_pos ⟨decide_eq_true hbest, hn⟩

/-- Both selectors that name no source select source 0 (10 R277, Table 10.3). -/
theorem selected_of_none {n : Nat} (h : n = 0 ∨ n = 3) : (if n = 3 then 0 else n) = 0 := by
  obtain rfl | rfl := h <;> rfl

/-- Settles O29: a command meets the checks of 07 R200 and R201, and each event the one condition before its effect; a time-of-day
message meets its condition or its negation. -/
theorem focusCommandsAndTimeComplete : Obligations.FocusCommandsAndTimeComplete := by
  intro w s
  dsimp only
  refine ⟨fun u hr htyp hf hown hahead hcut hadd => ?add,
    fun x hr hf he hst htyp hown hahead => ?cancel,
    fun hr hf => ?timeRead, fun x hr hf he hown => ?read,
    fun port sub transport domain src m hsrc hport hsub htransport hdomain =>
      ⟨?ptp, fun seq received corr n t3 there hbest hreq hn => ptpMsg_delayResp hbest hreq hn⟩,
    fun stamp hsrc => ?edge, fun stamp b => ⟨fun hgood => ?tod, fun hbad => ?todError⟩, fun hown => ?timeout, fun hen hruns => ?pulse, rfl,
    fun hstage hruns hfloor hlevel halarms hpfail hdue => ?opens, fun a v hreach hprimary hnone => ?write⟩
  case add => exact congrArg Host.Outcome.next (focusAddCmd_of_checks hr htyp hf hown hahead hcut hadd)
  case cancel =>
    have hcancel := focusCancelCmd_of_armed hr hf he hst htyp hown hahead
    exact exec_ends_of_ite (congrArg Host.Outcome.next hcancel) id ne_true_of_eq_false
  case timeRead => exact exec_command_of_checks rfl hr (firstFail_single hf) rfl
  case read =>
    refine exec_command_of_checks rfl hr (firstFail_single hf) ?_
    rw [he]
    exact if_pos hown
  case ptp => exact congrArg Host.Outcome.next (if_pos ⟨hsrc, hport, hsub, htransport, hdomain⟩)
  case edge => exact congrArg Host.Outcome.next (if_neg (not_not_intro hsrc))
  case tod => exact congrArg Host.Outcome.next (if_pos hgood)
  case todError => exact congrArg Host.Outcome.next (if_neg hbad)
  case timeout => exact congrArg Host.Outcome.next (if_pos hown)
  case pulse => exact congrArg Host.Outcome.next (if_pos ⟨hen, hruns⟩)
  case opens => exact congrArg Host.Outcome.next (if_pos ⟨hstage, hruns, hfloor, hlevel, halarms, congrArg not hpfail, hdue⟩)
  case write =>
    refine congrArg Host.Outcome.next ((if_neg (ne_true_of_eq_false hreach)).trans <|
      (if_neg (ne_true_of_eq_false (congrArg not hprimary))).trans ?_)
    simp only [selected_of_none hnone, if_true]

end Sys2Proof.Machine
end

section
/-! # Register writes of the primary PF (15 R389, 16 R412, 21 R494)

A command that only the primary PF may give is out of reach, refused, or has its meaning; here are the conditions of the last. -/

namespace Sys2Proof.Machine

open Sys2Proof

section
variable {a : Agent} {off : Nat} {s : State} (hr : s.outOfReach a off = false)
include hr

theorem ite_reach {α : Type} {u t : α} : (if s.outOfReach a off = true then u else t) = t := if_neg (ne_true_of_eq_false hr)

theorem ite_primary {α : Type} (hp : s.isPrimary a = true) {u v t : α} :
    (if s.outOfReach a off = true then u else if (!(s.isPrimary a)) = true then v else t) = t :=
  (ite_reach hr).trans (if_neg (ne_true_of_eq_false (congrArg not hp)))

end

end Sys2Proof.Machine
end

section
/-! # What settling the event router establishes (16 R404 to R406)

Settling assigns every latched source and then brings the six offers up to date. Each part changes a few fields of the router: the lemma of a
part says which, and what it leaves in them. Together they give the router's invariant, from a canonical table and bounded stacks alone. -/

namespace Sys2Proof.Machine

open Sys2Proof

/-! ## Assignment -/

theorem not_mem_of_tabove {α : Type} {v : α} {t : Tab α} {j k : Nat} (h : tabove j t = true) (hk : k ≤ j) : (k, v) ∉ t := by
  induction t with
  | nil => exact List.not_mem_nil
  | cons e r ih =>
    obtain ⟨k', v'⟩ := e
    simp only [tabove, Bool.and_eq_true, decide_eq_true_eq] at h
    obtain ⟨hlt, hr⟩ := h
    rw [List.mem_cons, Prod.mk.injEq]
    rintro (⟨rfl, -⟩ | hmem)
    · omega
    · exact ih hr hmem

/-- In a canonical table every entry is the one that is found. -/
theorem tget_of_mem {α : Type} [DecidableEq α] {d v : α} {t : Tab α} {k : Nat} (h : twf d t = true) (hm : (k, v) ∈ t) : tget d t k = v := by
  induction t with
  | nil => exact absurd hm List.not_mem_nil
  | cons e r ih =>
    obtain ⟨k', v'⟩ := e
    simp only [twf, Bool.and_eq_true, decide_eq_true_eq] at h
    obtain ⟨⟨-, habove⟩, hwf⟩ := h
    obtain heq | hr := List.mem_cons.1 hm
    · cases heq
      exact if_pos rfl
    · have hne : k' ≠ k := by
        rintro rfl
        exact not_mem_of_tabove habove le_rfl hr
      exact (if_neg hne).trans (ih hwf hr)

/-- `s` with other assignments and other turns. -/
def withAssigned (s : State) (as rr : Tab Nat) : State := { s with evr := { s.evr with assigned := as, rr := rr } }

/-- Assigning a source changes its own assignment and its turn; an assigned source is pending. -/
theorem evAssign_spec (s : State) (n : Nat) : ∃ as rr, evAssign s n = withAssigned s as rr ∧
    (twf 0 s.evr.assigned = true → twf 0 as = true) ∧ (∀ m, m ≠ n → tget 0 as m = tget 0 s.evr.assigned m) ∧
    (tget 0 as n ≠ 0 → s.evPending n = true) := by
  have hset (v : Nat) (rr : Tab Nat) (hv : v ≠ 0 → s.evPending n = true) (heq : evAssign s n = withAssigned s (tset 0 s.evr.assigned n v) rr) :
      ∃ as rr, evAssign s n = withAssigned s as rr ∧ (twf 0 s.evr.assigned = true → twf 0 as = true) ∧
        (∀ m, m ≠ n → tget 0 as m = tget 0 s.evr.assigned m) ∧ (tget 0 as n ≠ 0 → s.evPending n = true) :=
    ⟨_, rr, heq, twf_tset 0 _ n v, fun m hm => tget_tset_other 0 _ n m v hm, fun h => hv (tget_tset_same 0 s.evr.assigned n v ▸ h)⟩
  by_cases hp : s.evPending n = true
  · by_cases hcur : (tget 0 s.evr.assigned n ≠ 0 && s.evEligible n (tget 0 s.evr.assigned n - 1)) = true
    · refine ⟨s.evr.assigned, s.evr.rr, ?_, id, fun _ _ => rfl, fun _ => hp⟩
      simp only [evAssign, hp, hcur, Bool.not_true, Bool.false_eq_true, if_false, if_true, withAssigned]
    · cases ht : s.evNextTarget n with
      | none =>
        refine hset 0 s.evr.rr (absurd rfl) ?_
        simp only [evAssign, hp, hcur, ht, Bool.not_true, Bool.false_eq_true, if_false, withAssigned]
      | some t =>
        refine hset (t + 1) (tset 0 s.evr.rr n (t + 1)) (fun _ => hp) ?_
        simp only [evAssign, hp, hcur, ht, Bool.not_true, Bool.false_eq_true, if_false, withAssigned]
  · refine hset 0 s.evr.rr (absurd rfl) ?_
    simp only [evAssign, hp, Bool.not_false, if_true, withAssigned]

/-- After a list of sources is assigned, each assigned source is pending, or was assigned before and is not in the list. -/
theorem foldl_evAssign_spec (l : List Nat) (s : State) : ∃ as rr, l.foldl evAssign s = withAssigned s as rr ∧
    (twf 0 s.evr.assigned = true → twf 0 as = true) ∧
    (∀ m, tget 0 as m ≠ 0 → s.evPending m = true ∨ (m ∉ l ∧ tget 0 s.evr.assigned m ≠ 0)) := by
  induction l generalizing s with
  | nil => exact ⟨s.evr.assigned, s.evr.rr, rfl, id, fun m hm => .inr ⟨List.not_mem_nil, hm⟩⟩
  | cons n r ih =>
    obtain ⟨as, rr, heq, hwf, hother, hsame⟩ := evAssign_spec s n
    obtain ⟨as', rr', heq', hwf', hrest⟩ := ih (evAssign s n)
    rw [heq] at heq' hwf' hrest
    refine ⟨as', rr', by rw [List.foldl_cons, heq, heq']; rfl, hwf' ∘ hwf, fun m hm => ?_⟩
    obtain hpend | ⟨hmem, has⟩ := hrest m hm
    · exact .inl hpend
    · by_cases hmn : m = n
      · exact .inl (hmn ▸ hsame (hmn ▸ has))
      · exact .inr ⟨fun h => (List.mem_cons.1 h).elim hmn hmem, hother m hmn ▸ has⟩

/-! ## Offers -/

/-- How an offer stands in the table: 0 for none, else its number plus 1. -/
def offerCode (o : Option Nat) : Nat := match o with
  | none => 0
  | some n => n + 1

theorem offerCode_eq_succ {o : Option Nat} {n : Nat} : offerCode o = n + 1 ↔ o = some n := by
  cases o <;> simp [offerCode]

/-- A source chosen from a list by comparing two at a time is one of the list. -/
theorem mem_of_foldl_choice {step : Option Nat → Nat → Option Nat} (hstep : ∀ acc x n, step acc x = some n → x = n ∨ acc = some n)
    (l : List Nat) (acc : Option Nat) {n : Nat} (h : l.foldl step acc = some n) : n ∈ l ∨ acc = some n := by
  induction l generalizing acc with
  | nil => exact .inr h
  | cons x r ih =>
    obtain hr | hx := ih _ h
    · exact .inl (List.mem_cons_of_mem _ hr)
    · exact (hstep acc x n hx).imp_left fun h => List.mem_cons.2 (.inl h.symm)

/-- What an offered source is: assigned to the target, and allowed over the top of its stack (16 R405, R406). -/
theorem evOffer_spec {s : State} {t n : Nat} (h : s.evOffer t = some n) : (n, t + 1) ∈ s.evr.assigned ∧
    ∀ top rest, s.evStack t = top :: rest → s.is F.EVR_CTRL_MODE = true ∧ s.evGroup n < s.evGroup top ∧ rest.length + 1 < 8 := by
  unfold State.evOffer at h
  extract_lets mine best at h
  have hbest : best = some n ∧
      ∀ top rest, s.evStack t = top :: rest → s.is F.EVR_CTRL_MODE = true ∧ s.evGroup n < s.evGroup top ∧ rest.length + 1 < 8 := by
    split at h
    · exact absurd h nofun
    · next heq hstack => exact ⟨heq.trans h, fun top rest hs => absurd (hstack.symm.trans hs) nofun⟩
    · next top' rest' heq hstack =>
      split at h
      · next hok =>
        simp only [Bool.and_eq_true, decide_eq_true_eq] at hok
        obtain ⟨⟨hmode, hgroup⟩, hlen⟩ := hok
        obtain rfl := Option.some.inj h
        refine ⟨heq, fun top rest hs => ?_⟩
        obtain ⟨rfl, rfl⟩ := List.cons.inj (hstack.symm.trans hs)
        exact ⟨hmode, hgroup, hlen⟩
      · exact absurd h nofun
  refine ⟨?_, hbest.2⟩
  have hmine : n ∈ mine := by
    refine (mem_of_foldl_choice (fun acc x n hx => ?_) mine none hbest.1).resolve_right nofun
    cases acc with
    | none => exact .inl (Option.some.inj hx)
    | some y =>
      dsimp only at hx
      split at hx
      · exact .inl (Option.some.inj hx)
      · exact .inr hx
  obtain ⟨⟨n', v⟩, hmem, rfl⟩ := List.mem_map.1 hmine
  obtain ⟨hmem, hv⟩ := List.mem_filter.1 hmem
  exact (eq_of_beq hv : v = t + 1) ▸ hmem

/-- `s` with other offers, other withdrawals, and what the messages to the PFs change. -/
def withOffers (s : State) (offer : Tab Nat) (gone : List Nat) (fns : Tab FnSt) (sent : List Out) : State :=
  { s with evr := { s.evr with offer := offer, withdrawn := gone }, fns := fns, sent := sent }

theorem raiseVector_spec (s : State) (fn v : Nat) : ∃ fns sent, raiseVector s fn v = { s with fns := fns, sent := sent } := by
  unfold raiseVector
  extract_lets
  split
  · exact ⟨s.fns, s.sent, rfl⟩
  · split
    · exact ⟨_, s.sent, rfl⟩
    · unfold hostSend
      extract_lets
      split
      · exact ⟨_, s.sent, rfl⟩
      · exact ⟨s.fns, _, rfl⟩

theorem evTarget_spec (s : State) (t : Nat) :
    ∃ gone fns sent, evTarget s t = withOffers s (tset 0 s.evr.offer t (offerCode (s.evOffer t))) gone fns sent := by
  unfold evTarget
  extract_lets old new lost evr u
  split
  · obtain ⟨fns, sent, h⟩ := raiseVector_spec u ((t - 1) * 2048) (u.get F.EVR_TCFG_VECTOR t)
    exact ⟨_, fns, sent, h⟩
  · exact ⟨_, s.fns, s.sent, rfl⟩

/-- After a list of targets is brought up to date, each of them is offered its present offer; the others keep theirs. -/
theorem foldl_evTarget_spec (l : List Nat) (s : State) : ∃ offer gone fns sent, l.foldl evTarget s = withOffers s offer gone fns sent ∧
    (∀ t ∈ l, tget 0 offer t = offerCode (s.evOffer t)) ∧ (∀ t, t ∉ l → tget 0 offer t = tget 0 s.evr.offer t) := by
  induction l generalizing s with
  | nil => exact ⟨s.evr.offer, s.evr.withdrawn, s.fns, s.sent, rfl, fun t h => absurd h List.not_mem_nil, fun _ _ => rfl⟩
  | cons x r ih =>
    obtain ⟨gone, fns, sent, heq⟩ := evTarget_spec s x
    obtain ⟨offer, gone', fns', sent', heq', hmem, hother⟩ := ih (evTarget s x)
    rw [heq] at heq' hmem hother
    refine ⟨offer, gone', fns', sent', by rw [List.foldl_cons, heq, heq']; rfl, fun t ht => ?_, fun t ht => ?_⟩
    · by_cases hr : t ∈ r
      · exact hmem t hr
      · obtain rfl := (List.mem_cons.1 ht).resolve_right hr
        exact (hother t hr).trans (tget_tset_same ..)
    · obtain ⟨hx, hr⟩ := not_or.1 (List.mem_cons.not.1 ht)
      exact (hother t hr).trans (tget_tset_other _ _ _ _ _ hx)

/-! ## Settling -/

theorem evRegroup_spec (s : State) : ∃ g wait regs,
    evRegroup s = { s with evr := { s.evr with g := g, gWait := wait }, regs := regs } := by
  unfold evRegroup
  split
  · split
    · exact ⟨_, none, _, rfl⟩
    · exact ⟨s.evr.g, s.evr.gWait, s.regs, rfl⟩
  · exact ⟨s.evr.g, s.evr.gWait, s.regs, rfl⟩

/-- The sources of the router are numbered below 2,048 (16 R398); assignments are canonical, and no stack holds more than 8. -/
structure RouterCore (s : State) : Prop where
  table : twf 0 s.evr.assigned = true
  depth : ∀ t, t < 6 → (s.evStack t).length ≤ 8
  latched : ∀ n ∈ s.evr.latched, n < 2048
  claimed : ∀ t, ∀ n ∈ s.evStack t, n < 2048

/-- The router's invariant of a router whose sources are numbered below 2,048 (16 R398). -/
structure RouterSound (s : State) : Prop where
  inv : RouterInv s
  latched : ∀ n ∈ s.evr.latched, n < 2048
  claimed : ∀ t, ∀ n ∈ s.evStack t, n < 2048

theorem RouterSound.core {s : State} (h : RouterSound s) : RouterCore s := ⟨h.inv.table, h.inv.depth, h.latched, h.claimed⟩

/-- Settling leaves the latched sources, the claims and everything outside the router but what the PFs are sent; the table is canonical again,
every assigned source is pending, and every target is offered its present offer. -/
theorem evSettle_spec (s : State) : ∃ v as rr offer gone fns sent, evSettle s = withOffers (withAssigned v as rr) offer gone fns sent ∧
    v.evr.latched = s.evr.latched ∧ v.evr.claims = s.evr.claims ∧ v.pending = s.pending ∧ v.rdata = s.rdata ∧
    (twf 0 s.evr.assigned = true → twf 0 as = true) ∧ (∀ n, tget 0 as n ≠ 0 → v.evPending n = true) ∧
    (∀ t, t < 6 → tget 0 offer t = offerCode ((withAssigned v as rr).evOffer t)) := by
  obtain ⟨g, wait, regs, hre⟩ := evRegroup_spec s
  have hlat : (evWake (evUnassign (evRegroup s))).evr.latched = s.evr.latched := by rw [hre]; rfl
  obtain ⟨as, rr, heq, hwf, hpend⟩ := foldl_evAssign_spec s.evr.latched (evWake (evUnassign (evRegroup s)))
  obtain ⟨offer, gone, fns, sent, heq', hoffer, -⟩ := foldl_evTarget_spec [0, 1, 2, 3, 4, 5] (withAssigned (evWake (evUnassign (evRegroup s))) as rr)
  have hassigned : (evWake (evUnassign (evRegroup s))).evr.assigned = s.evr.assigned.filter (fun e => s.evr.latched.contains e.1) := by
    rw [hre]; rfl
  refine ⟨_, as, rr, offer, gone, fns, sent, by rw [evSettle_eq, hlat, heq, heq'], hlat, by rw [hre]; rfl, by rw [hre]; rfl, by rw [hre]; rfl,
    fun h => hwf (hassigned ▸ twf_filter 0 _ _ h), fun n hn => ?_, fun t ht => hoffer t (by simp only [List.mem_cons]; omega)⟩
  refine (hpend n hn).resolve_right fun ⟨hmem, hne⟩ => hne ?_
  rw [hassigned, tget_filter_key, if_neg (by simpa using hmem)]

/-- Settling brings the router's invariant about. -/
theorem RouterCore.settle {s : State} (h : RouterCore s) : RouterSound (evSettle s) := by
  obtain ⟨v, as, rr, offer, gone, fns, sent, heq, hlat, hclaims, -, -, hwf, hpend, hoffer⟩ := evSettle_spec s
  have htable := hwf h.table
  have hof {t n : Nat} (ht : t < 6) (hn : tget 0 offer t = n + 1) : (withAssigned v as rr).evOffer t = some n :=
    offerCode_eq_succ.1 ((hoffer t ht).symm.trans hn)
  have hstack (t : Nat) : v.evStack t = s.evStack t := congrArg (tget [] · t) hclaims
  rw [heq]
  refine ⟨⟨htable, fun t n ht hn => ?_, fun t n top rest ht hn hs => (evOffer_spec (hof ht hn)).2 top rest hs,
    fun t ht => (congrArg List.length (hstack t)).trans_le (h.depth t ht)⟩, hlat ▸ h.latched, fun t n hn => h.claimed t n (hstack t ▸ hn)⟩
  have hassigned : tget 0 as n = t + 1 := tget_of_mem htable (evOffer_spec (hof ht hn)).1
  exact ⟨hpend n (hassigned ▸ Nat.succ_ne_zero t), hassigned⟩

theorem evSettle_pending (s : State) : (evSettle s).pending = s.pending := by
  obtain ⟨v, as, rr, offer, gone, fns, sent, heq, -, -, hp, -⟩ := evSettle_spec s
  rw [heq, ← hp]
  rfl

theorem evSettle_claims (s : State) : (evSettle s).evr.claims = s.evr.claims := by
  obtain ⟨v, as, rr, offer, gone, fns, sent, heq, -, hc, -⟩ := evSettle_spec s
  rw [heq, ← hc]
  rfl

theorem evSettle_rdata (s : State) : (evSettle s).rdata = s.rdata := by
  obtain ⟨v, as, rr, offer, gone, fns, sent, heq, -, -, -, hr, -⟩ := evSettle_spec s
  rw [heq, ← hr]
  rfl

end Sys2Proof.Machine
end

section
/-! # What every command of the router and the recorder keeps (16 R404 to R418)

A source beyond the 2,048 of 16 R398 would be routed by a register of another block: `evRoute` and `evPrio` count words from 0x5000 and 0x4800 on
without end. A state with such a source refutes O54; for routers whose sources are in range the invariant is kept (`step_routerSound`). -/

namespace Sys2Proof.Machine

open Sys2Proof

/-! ## States in which the router reads the same -/

/-- The registers whose words the router's invariant reads: EVR_CTRL, EVR_PRIO and EVR_ROUTE (21 Table 21.2). -/
def routerReg (off : Nat) : Bool := decide (off = 0x4000) || (decide (0x4800 ≤ off) && decide (off < 0x5800))

/-- Two states agree on what the router's invariant reads. -/
structure SameRouter (s t : State) : Prop where
  latched : t.evr.latched = s.evr.latched
  held : t.evr.held = s.evr.held
  assigned : t.evr.assigned = s.evr.assigned
  claims : t.evr.claims = s.evr.claims
  offer : t.evr.offer = s.evr.offer
  split : t.evr.g = s.evr.g
  regs : ∀ off, routerReg off = true → t.reg off = s.reg off

theorem SameRouter.of_eq {s t : State} (he : t.evr = s.evr) (hr : ∀ off, routerReg off = true → t.reg off = s.reg off) : SameRouter s t := by
  refine ⟨?_, ?_, ?_, ?_, ?_, ?_, hr⟩ <;> rw [he]

theorem SameRouter.poke (s : State) (f : Fld) (v i j : Nat) (h : routerReg (f.at i j) = false) : SameRouter s (s.poke f v i j) :=
  .of_eq rfl fun off ho => setReg_reg_other s (f.at i j) off _ fun heq => Bool.noConfusion (h.symm.trans (heq ▸ ho))

/-- An offered source is latched, and so is numbered below 2,048. -/
theorem RouterSound.offered_lt {s : State} (hs : RouterSound s) {k n : Nat} (hk : k < 6) (ho : tget 0 s.evr.offer k = n + 1) : n < 2048 := by
  obtain ⟨hp, -⟩ := hs.inv.offered k n hk ho
  simp only [State.evPending, Bool.and_eq_true] at hp
  exact hs.latched n (List.contains_iff_mem.1 hp.1.1.1)

section
variable {s t : State} (h : SameRouter s t)
include h

theorem SameRouter.evStack (k : Nat) : t.evStack k = s.evStack k := congrArg (tget [] · k) h.claims

theorem SameRouter.evPending {n : Nat} (hn : n < 2048) : t.evPending n = s.evPending n := by
  have hreg : t.reg (0x5000 + 4 * (n / 4)) = s.reg (0x5000 + 4 * (n / 4)) := h.regs _ (by simp [routerReg]; omega)
  rw [State.evPending, State.evRoute, State.evClaimed, hreg, h.latched, h.held, h.claims]
  rfl

theorem SameRouter.evGroup {n : Nat} (hn : n < 2048) : t.evGroup n = s.evGroup n := by
  have hreg : t.reg (0x4800 + 4 * (n / 4)) = s.reg (0x4800 + 4 * (n / 4)) := h.regs _ (by simp [routerReg]; omega)
  rw [State.evGroup, State.evPrio, hreg, h.split]
  rfl

theorem SameRouter.mode : t.is F.EVR_CTRL_MODE = s.is F.EVR_CTRL_MODE := by
  have hreg : t.reg (F.EVR_CTRL_MODE.at 0 0) = s.reg (F.EVR_CTRL_MODE.at 0 0) := h.regs _ rfl
  rw [State.is, State.get, hreg]
  rfl

theorem SameRouter.core (hs : RouterCore s) : RouterCore t where
  table := h.assigned ▸ hs.table
  depth k hk := h.evStack k ▸ hs.depth k hk
  latched := h.latched ▸ hs.latched
  claimed k := h.evStack k ▸ hs.claimed k

theorem SameRouter.sound (hs : RouterSound s) : RouterSound t := by
  refine ⟨⟨h.assigned ▸ hs.inv.table, fun k n hk ho => ?_, fun k n top rest hk ho hst => ?_, fun k hk => h.evStack k ▸ hs.inv.depth k hk⟩,
    h.latched ▸ hs.latched, fun k => h.evStack k ▸ hs.claimed k⟩
  · rw [h.offer] at ho
    rw [h.evPending (hs.offered_lt hk ho), h.assigned]
    exact hs.inv.offered k n hk ho
  · rw [h.offer] at ho
    rw [h.evStack] at hst
    rw [h.mode, h.evGroup (hs.offered_lt hk ho), h.evGroup (hs.claimed k top (hst ▸ List.mem_cons_self))]
    exact hs.inv.nested k n top rest hk ho hst

end

/-! ## What is kept -/

/-- From `s` to `t` the queue is the same, and the bounds stay. -/
structure CoreKeeps (s t : State) : Prop where
  pending : t.pending = s.pending
  core : RouterCore s → RouterCore t

/-- From `s` to `t` the queue is the same, and what holds of the router stays. -/
structure RouterKeeps (s t : State) : Prop extends CoreKeeps s t where
  sound : RouterSound s → RouterSound t

theorem CoreKeeps.trans {s t u : State} (h : CoreKeeps s t) (k : CoreKeeps t u) : CoreKeeps s u :=
  ⟨k.pending.trans h.pending, k.core ∘ h.core⟩

theorem coreKeeps_poke (s : State) (f : Fld) (v i j : Nat) : CoreKeeps s (s.poke f v i j) :=
  ⟨poke_pending s f v i j, fun h => ⟨h.table, h.depth, h.latched, h.claimed⟩⟩

theorem RouterKeeps.refl (s : State) : RouterKeeps s s := ⟨⟨rfl, id⟩, id⟩

theorem RouterKeeps.trans {s t u : State} (h : RouterKeeps s t) (k : RouterKeeps t u) : RouterKeeps s u :=
  ⟨h.toCoreKeeps.trans k.toCoreKeeps, k.sound ∘ h.sound⟩

theorem SameRouter.keeps {s t : State} (h : SameRouter s t) (hp : t.pending = s.pending) : RouterKeeps s t := ⟨⟨hp, h.core⟩, h.sound⟩

/-- The bounds are enough for the router to settle soundly. -/
theorem CoreKeeps.settle {s t : State} (h : CoreKeeps s t) : RouterKeeps s (evSettle t) :=
  ⟨⟨(evSettle_pending t).trans h.pending, fun hs => (h.core hs).settle.core⟩, fun hs => (h.core hs.core).settle⟩

theorem RouterKeeps.ite {s t u : State} {c : Prop} [Decidable c] (h : RouterKeeps s t) (k : RouterKeeps s u) :
    RouterKeeps s (if c then t else u) := by
  split
  exacts [h, k]

theorem RouterKeeps.foldl {α : Type} {f : State → α → State} (l : List α) (hf : ∀ s, ∀ a ∈ l, RouterKeeps s (f s a)) (s : State) :
    RouterKeeps s (l.foldl f s) := by
  induction l generalizing s with
  | nil => exact .refl s
  | cons a r ih => exact (hf s a List.mem_cons_self).trans (ih (fun s b hb => hf s b (List.mem_cons_of_mem a hb)) _)

theorem routerKeeps_poke (s : State) (f : Fld) (v i j : Nat) (h : routerReg (f.at i j) = false) : RouterKeeps s (s.poke f v i j) :=
  (SameRouter.poke s f v i j h).keeps rfl

theorem mem_sput {l : List Nat} {k n : Nat} (h : n ∈ sput l k) : n = k ∨ n ∈ l := by
  induction l with
  | nil => exact .inl (List.mem_singleton.1 h)
  | cons a r ih =>
    unfold sput at h
    split at h
    · exact List.mem_cons.1 h
    · split at h
      · exact .inr h
      · obtain rfl | hr := List.mem_cons.1 h
        · exact .inr List.mem_cons_self
        · exact (ih hr).imp_right (List.mem_cons_of_mem a)

theorem routerKeeps_evLatch (s : State) {n : Nat} (hn : n < 2048) : RouterKeeps s (evLatch s n) := by
  unfold evLatch
  refine .ite (.refl s) (CoreKeeps.settle ⟨rfl, fun h => ⟨h.table, h.depth, fun m hm => ?_, h.claimed⟩⟩)
  exact (mem_sput hm).elim (fun h => h ▸ hn) (h.latched m)

theorem sourceAt_lt {off n mask : Nat} (h : sourceAt off = some (n, mask)) : n < 2048 := by
  obtain ⟨r, hfind, hr⟩ := Option.map_eq_some_iff.1 h
  have hrows : ∀ r ∈ sourceRows, r.1 + r.2.2.2.1 ≤ 2048 := by decide
  have hbound := hrows r (List.mem_of_find?_eq_some hfind)
  have hhas := List.find?_some hfind
  simp only [Bool.and_eq_true, decide_eq_true_eq] at hhas
  obtain ⟨⟨-, hlt⟩, -⟩ := hhas
  obtain ⟨rfl, -⟩ := Prod.mk.inj hr
  omega

theorem routerKeeps_raise (s : State) (f : Fld) (i j : Nat) (h : routerReg (f.at i j) = false) : RouterKeeps s (s.raise f i j) := by
  unfold State.raise
  extract_lets t
  have ht : RouterKeeps s t := routerKeeps_poke s f 1 i j h
  split
  · exact ht
  · next heq => exact .ite (ht.trans (routerKeeps_evLatch t (sourceAt_lt heq))) ht

/-! ## The event recorder -/

theorem routerKeeps_log (s : State) (l : LogSt) : RouterKeeps s { s with log := l } :=
  (SameRouter.of_eq (s := s) (t := { s with log := l }) rfl fun _ _ => rfl).keeps rfl

theorem routerKeeps_logDrop (s : State) (f : Fld) (h : routerReg (f.at 0 0) = false) : RouterKeeps s (logDrop s f) := by
  unfold logDrop
  have hpoke := routerKeeps_poke s f (min 65535 (s.get f + 1)) 0 0 h
  exact .ite (hpoke.trans (routerKeeps_evLatch _ (by decide))) hpoke

theorem routerKeeps_logWrite (s : State) (r : EvRec) : RouterKeeps s (logWrite s r) := by
  unfold logWrite
  split
  · exact routerKeeps_log s _
  · exact routerKeeps_logDrop s _ (by decide)

theorem routerKeeps_logFlush (s : State) : RouterKeeps s (logFlush s) := by
  unfold logFlush
  exact (RouterKeeps.foldl _ (fun s r _ => routerKeeps_logWrite s r) s).trans (routerKeeps_log _ _)

theorem routerKeeps_logPush (s : State) (r : EvRec) : RouterKeeps s (logPush s r) := by
  unfold logPush
  refine .ite (routerKeeps_log s _) ?_
  split
  · exact routerKeeps_log s _
  · exact routerKeeps_logDrop s _ (by decide)

theorem routerKeeps_event (s : State) (sev code src o : Nat) (d : Bytes) : RouterKeeps s (event s sev code src o d) := by
  unfold event
  extract_lets fold next log pushed made raised
  have hpushed : RouterKeeps s pushed := .ite (routerKeeps_log s _) (routerKeeps_logPush s _)
  have hraised : RouterKeeps s raised := .ite (hpushed.trans (routerKeeps_raise pushed _ 0 0 (by decide))) hpushed
  exact .ite (.refl s) (.ite (hraised.trans (routerKeeps_logFlush raised)) hraised)

end Sys2Proof.Machine
end

section
/-! # The router's and the recorder's commands (16 R399 to R419) -/

namespace Sys2Proof.Machine

open Sys2Proof

/-! ## Each command keeps a sound router -/

theorem evStack_of_claims {s t : State} {k : Nat} {l : List Nat} (h : t.evr.claims = tset [] s.evr.claims k l) (j : Nat) :
    t.evStack j = if j = k then l else s.evStack j := by
  rw [State.evStack, h]
  split
  · next heq => rw [heq, tget_tset_same]
  · next hne => exact tget_tset_other _ _ _ _ _ hne

/-- Replacing one target's stack by a short one of sources in range keeps the stacks bounded. -/
theorem RouterCore.setStack {s t : State} (h : RouterCore s) {k : Nat} {l : List Nat} (ha : t.evr.assigned = s.evr.assigned)
    (hl : t.evr.latched = s.evr.latched) (hc : t.evr.claims = tset [] s.evr.claims k l) (hlen : l.length ≤ 8) (hlt : ∀ n ∈ l, n < 2048) :
    RouterCore t := by
  refine ⟨ha ▸ h.table, fun j hj => ?_, hl ▸ h.latched, fun j => ?_⟩ <;> rw [evStack_of_claims hc]
  · split
    exacts [hlen, h.depth j hj]
  · split
    exacts [hlt, h.claimed j]

theorem routerKeeps_prioFail (s : State) : RouterKeeps s (prioFail s) := by
  unfold prioFail
  extract_lets u
  have hmode : CoreKeeps s u := (coreKeeps_poke s _ _ _ _).trans (coreKeeps_poke _ _ _ _ _)
  exact (hmode.trans ((routerKeeps_raise u _ 0 0 (by decide)).trans (routerKeeps_event _ _ _ _ _ _)).toCoreKeeps).settle

/-- A write to the router or the recorder is out of reach, denied, or done. -/
theorem routerKeeps_write {s t : State} (a : Agent) (off : Nat) (h : RouterKeeps s t) :
    RouterKeeps s (if s.outOfReach a off then s else if !(s.evrWriter a) then evrDenied s else t) :=
  .ite (.refl s) (.ite (routerKeeps_event s _ _ _ _ _) h)

theorem routerKeeps_prigroup (a : Agent) (v : BitVec 3) (s : State) : RouterKeeps s (prigroup a v s) := by
  unfold prigroup
  extract_lets u evr w
  have hu : CoreKeeps s u := coreKeeps_poke s _ _ _ _
  have hw : CoreKeeps u w := ⟨rfl, fun h => ⟨h.table, h.depth, h.latched, h.claimed⟩⟩
  exact routerKeeps_write a 0x4000 ((hu.trans hw).trans (coreKeeps_poke w _ _ _ _)).settle

theorem routerKeeps_mode (s : State) (en mode : Nat) :
    RouterKeeps s (evSettle ((s.poke F.EVR_CTRL_PRIO_EN en).poke F.EVR_CTRL_MODE mode)) :=
  ((coreKeeps_poke s _ _ _ _).trans (coreKeeps_poke _ _ _ _ _)).settle

theorem routerKeeps_prioEnable (a : Agent) (s : State) : RouterKeeps s (prioEnable a s) :=
  routerKeeps_write a 0x4000 (.ite (routerKeeps_mode s 1 1) (routerKeeps_prioFail s))

theorem routerKeeps_prioDisable (a : Agent) (s : State) : RouterKeeps s (prioDisable a s) :=
  routerKeeps_write a 0x4000 (routerKeeps_mode s 0 0)

theorem routerKeeps_swSet (mask : Word) (s : State) : RouterKeeps s (swSet mask s) := by
  refine .foldl _ (fun s k hk => .ite (routerKeeps_evLatch s ?_) (.refl s)) s
  have := List.mem_range.1 hk
  omega

theorem routerKeeps_targetGone (t : Nat) (s : State) : RouterKeeps s (targetGone t s) := by
  exact CoreKeeps.settle ⟨rfl, fun h => h.setStack (k := t) (l := []) rfl rfl rfl (Nat.zero_le 8) fun _ h => absurd h List.not_mem_nil⟩

theorem routerKeeps_completeWrite (a : Agent) (t : Fin 6) (n : Nat) (s : State) : RouterKeeps s (completeWrite a t n s) := by
  unfold completeWrite
  have herr : RouterKeeps s (s.raise F.EVR_STATUS_CMPL_ERR) := routerKeeps_raise s _ 0 0 (by decide)
  refine .ite (.refl s) (.ite (routerKeeps_event s _ _ _ _ _) ?_)
  split
  · next top rest hstack =>
    refine .ite (CoreKeeps.settle ⟨rfl, fun h => h.setStack (k := t) (l := rest) rfl rfl rfl ?_ fun m hm => ?_⟩) herr
    · have hdepth := h.depth t t.isLt
      rw [hstack] at hdepth
      exact Nat.le_of_succ_le hdepth
    · exact h.claimed t m (hstack ▸ List.mem_cons_of_mem top hm)
  · exact herr

theorem routerKeeps_logSelect (v : Word) (s : State) : RouterKeeps s (logSelect v s) := by
  have hsel (u : State) (v : Nat) : RouterKeeps u (u.poke F.LOG_STATUS_SEL_VALID v) := routerKeeps_poke u _ v 0 0 (by decide)
  have hoff (k : Nat) : routerReg (F.LOG_WIN.at k 0) = false := by
    simp [routerReg, Fld.at, F.LOG_WIN]
    omega
  have hwin (u : State) (v : Nat → Nat) : RouterKeeps u ((List.range 16).foldl (fun s k => s.poke F.LOG_WIN (v k) k) u) :=
    .foldl _ (fun s k _ => routerKeeps_poke s _ _ k 0 (hoff k)) u
  unfold logSelect
  extract_lets u
  have hu : RouterKeeps s u := routerKeeps_poke s _ _ 0 0 (by decide)
  split <;> exact hu.trans ((hwin u _).trans (hsel _ _))

/-- A group's expired timer frees its held sources; with none of them held, nothing that the invariant reads has changed. -/
theorem routerKeeps_holdoff {g : Nat} {s u : State}
    (hu : u = { s with evr := { s.evr with held := s.evr.held.filter (fun x => !(decide (x / 32 = g))), timers := sdel s.evr.timers g } }) :
    RouterKeeps s (if s.evr.held.any (fun x => decide (x / 32 = g)) then evSettle u else u) := by
  subst hu
  split
  · exact CoreKeeps.settle ⟨rfl, fun h => ⟨h.table, h.depth, h.latched, h.claimed⟩⟩
  · next hnone =>
    have hheld : s.evr.held.filter (fun x => !(decide (x / 32 = g))) = s.evr.held := List.filter_eq_self.2 fun x hx => by
      simpa using fun hg => hnone (List.any_eq_true.2 ⟨x, hx, by simpa using hg⟩)
    exact SameRouter.keeps ⟨rfl, hheld, rfl, rfl, rfl, rfl, fun _ _ => rfl⟩ rfl

/-- A claim pushes an offered source on a stack that the invariant keeps below 8. -/
theorem RouterSound.claimRead {s : State} (h : RouterSound s) (a : Agent) (t : Fin 6) : RouterSound (claimRead a t s) := by
  have hsame (d : BitVec 64) (w : List Nat) : RouterSound { s with rdata := d, evr := { s.evr with withdrawn := w } } :=
    SameRouter.sound (s := s) ⟨rfl, rfl, rfl, rfl, rfl, rfl, fun _ _ => rfl⟩ h
  unfold Machine.claimRead
  extract_lets offer evr u
  split
  · exact hsame 0 s.evr.withdrawn
  split
  · exact hsame 2047 s.evr.withdrawn
  split
  · next hoffer =>
    obtain ⟨n, hn⟩ : ∃ n, tget 0 s.evr.offer t = n + 1 := Nat.exists_eq_succ_of_ne_zero hoffer
    have hnext : offer - 1 = n := by omega
    have hu : RouterCore u := by
      refine h.core.setStack (k := t) (l := (offer - 1) :: s.evStack t) rfl rfl rfl ?_ fun m hm => ?_
      · cases hstack : s.evStack t with
        | nil => exact Nat.succ_le_succ (Nat.zero_le 7)
        | cons top rest =>
          obtain ⟨-, -, hlen⟩ := h.inv.nested t n top rest t.isLt hn hstack
          exact hlen
      · obtain rfl | hm := List.mem_cons.1 hm
        · exact hnext ▸ h.offered_lt t.isLt hn
        · exact h.claimed t m hm
    exact hu.settle
  split
  · exact (SameRouter.poke _ _ _ 0 0 (by decide)).sound (hsame _ _)
  · exact hsame 2047 s.evr.withdrawn

theorem claimRead_pending (a : Agent) (t : Nat) (s : State) : (claimRead a t s).pending = s.pending := by
  unfold claimRead
  extract_lets offer evr u
  split
  · rfl
  split
  · rfl
  split
  · exact evSettle_pending u
  split
  · exact poke_pending _ _ _ _ _
  · rfl

/-- Every command of the router or the recorder completes, leaves the queue, and keeps a sound router sound. -/
theorem exec_routerCommand {i : Instr} (hi : routerCommand i = true) (s : State) :
    ∃ t, exec i s = .next t ∧ t.pending = s.pending ∧ (RouterSound s → RouterSound t) := by
  have hkeeps {t : State} (hexec : exec i s = .next t) (h : RouterKeeps s t) :
      ∃ t, exec i s = .next t ∧ t.pending = s.pending ∧ (RouterSound s → RouterSound t) := ⟨t, hexec, h.pending, h.sound⟩
  unfold routerCommand at hi
  split at hi
  · exact hkeeps rfl (routerKeeps_holdoff rfl)
  · next a t => exact ⟨_, rfl, claimRead_pending a t s, fun h => h.claimRead a t⟩
  · exact hkeeps rfl (routerKeeps_completeWrite _ _ _ s)
  · exact hkeeps rfl (routerKeeps_prigroup _ _ s)
  · exact hkeeps rfl (routerKeeps_prioEnable _ s)
  · exact hkeeps rfl (routerKeeps_prioDisable _ s)
  · next parity =>
    have hcheck : RouterKeeps s (if s.is F.EVR_CTRL_PRIO_EN && (parity || !s.prioGood) then prioFail s else s) :=
      .ite (routerKeeps_prioFail s) (.refl s)
    exact hkeeps (apply_ite Host.Outcome.next _ _ _).symm hcheck
  · exact hkeeps rfl (routerKeeps_write _ 0x4000 (routerKeeps_swSet _ s))
  · exact hkeeps rfl (routerKeeps_targetGone _ s)
  · exact hkeeps rfl (routerKeeps_logFlush s)
  · exact hkeeps rfl (routerKeeps_write _ 0x8000 (routerKeeps_logFlush s))
  · exact hkeeps rfl (routerKeeps_write _ 0x8000 (routerKeeps_logSelect _ s))
  · exact absurd hi Bool.false_ne_true

/-- A step of router and recorder commands keeps a sound router, one whose sources are numbered below 2,048. -/
theorem step_routerSound {s t : State} (hq : ∀ c ∈ s.pending, routerCommand c = true) (h : RouterSound s) (hstep : step s = .next t) :
    RouterSound t ∧ t.pending = s.pending.tail := by
  cases hp : s.pending with
  | nil =>
    rw [step_of_pending_nil hp] at hstep
    obtain rfl := Host.Outcome.next.inj hstep
    exact ⟨h, hp⟩
  | cons c rest =>
    rw [step_of_pending_cons hp] at hstep
    have hrest : RouterSound { s with pending := rest } :=
      SameRouter.sound (s := s) ⟨rfl, rfl, rfl, rfl, rfl, rfl, fun _ _ => rfl⟩ h
    obtain ⟨u, hu, hpend, hsound⟩ := exec_routerCommand (hq c (hp ▸ List.mem_cons_self)) { s with pending := rest }
    obtain rfl := Host.Outcome.next.inj (hu.symm.trans hstep)
    exact ⟨hsound hrest, hpend⟩

/-! ## A source out of range -/

/-- A router with one source, 12,324: latched, assigned and offered to the steward. The word that routes it stands at
`0x5000 + 4 * (12324 / 4)`, the offset of LOG_SEL_HI. -/
def beyondRouter (q : List Instr) : State := { State.reset.poke F.LOG_SEL_HI 1 with
  evr := { State.reset.evr with latched := [12324], assigned := [(12324, 1)], offer := [(0, 12325)] }
  pending := q }

theorem routerInv_beyondRouter (q : List Instr) : RouterInv (beyondRouter q) where
  table := (by decide +kernel : twf 0 (beyondRouter []).evr.assigned = true)
  offered t n _ h := by
    match t with
    | 0 =>
      obtain rfl : n = 12324 := (Nat.succ.inj (h : 12324 + 1 = n + 1)).symm
      exact (by decide +kernel : (beyondRouter []).evPending 12324 = true ∧ tget 0 (beyondRouter []).evr.assigned 12324 = 1)
    | t + 1 => exact Nat.noConfusion (h : 0 = n + 1)
  nested _ _ _ _ _ _ h := nomatch (h : ([] : List Nat) = _ :: _)
  depth _ _ := Nat.zero_le 8

/-- Refutes O54: the write of LOG_SEL_HI clears the word that routes source 12,324 of `beyondRouter`, which stays offered and is no longer
pending. No source of 16 R398 is numbered above 2,047; for those the invariant is kept (`step_routerSound`). -/
theorem not_routerInvariantKept : ¬ Obligations.RouterInvariantKept := by
  intro h
  obtain ⟨hinv, -⟩ := h (beyondRouter [.logSelect .steward 0]) _ (by decide) (routerInv_beyondRouter _) rfl
  obtain ⟨hpending, -⟩ := hinv.offered 0 12324 (by decide) rfl
  exact absurd hpending (by decide +kernel)

end Sys2Proof.Machine
end

section
/-! # What the router and the recorder do, command by command, and the router at reset (16 R399 to R419) -/

namespace Sys2Proof.Machine

open Sys2Proof

/-! ## Reading back a field -/

/-- A field that is written reads what was written, modulo its width. -/
theorem bitsOf_setBits (x : Word) {lo w : Nat} (h : lo + w ≤ 32) (v : Nat) : bitsOf (setBits x lo w v) lo w = v % 2 ^ w := by
  have hP : 0 < 2 ^ lo := Nat.two_pow_pos lo
  have hQ : 0 < 2 ^ w := Nat.two_pow_pos w
  have hv : v % 2 ^ w < 2 ^ w := Nat.mod_lt v hQ
  have hlow : x.toNat % 2 ^ lo < 2 ^ lo := Nat.mod_lt _ hP
  have hsplit : x.toNat = 2 ^ lo * (2 ^ w * (x.toNat / 2 ^ lo / 2 ^ w) + x.toNat / 2 ^ lo % 2 ^ w) + x.toNat % 2 ^ lo := by
    rw [Nat.div_add_mod, Nat.div_add_mod]
  have hword : x.toNat - x.toNat / 2 ^ lo % 2 ^ w * 2 ^ lo + v % 2 ^ w * 2 ^ lo =
      2 ^ lo * (2 ^ w * (x.toNat / 2 ^ lo / 2 ^ w) + v % 2 ^ w) + x.toNat % 2 ^ lo := by
    rw [Nat.mul_add] at hsplit ⊢
    rw [Nat.mul_comm _ (2 ^ lo), Nat.mul_comm _ (2 ^ lo)]
    omega
  have hfits : 2 ^ lo * (2 ^ w * (x.toNat / 2 ^ lo / 2 ^ w) + v % 2 ^ w) + x.toNat % 2 ^ lo < 2 ^ 32 := by
    have hhigh : x.toNat / 2 ^ lo / 2 ^ w < 2 ^ (32 - (lo + w)) := by
      rw [Nat.div_div_eq_div_mul, ← pow_add, Nat.div_lt_iff_lt_mul (Nat.two_pow_pos _), ← pow_add, Nat.sub_add_cancel h]
      exact x.isLt
    calc 2 ^ lo * (2 ^ w * (x.toNat / 2 ^ lo / 2 ^ w) + v % 2 ^ w) + x.toNat % 2 ^ lo
      _ < 2 ^ lo * (2 ^ w * (x.toNat / 2 ^ lo / 2 ^ w) + v % 2 ^ w + 1) := by rw [Nat.mul_add _ _ 1]; omega
      _ ≤ 2 ^ lo * (2 ^ w * (x.toNat / 2 ^ lo / 2 ^ w + 1)) := Nat.mul_le_mul_left _ (by rw [Nat.mul_add]; omega)
      _ ≤ 2 ^ lo * (2 ^ w * 2 ^ (32 - (lo + w))) := Nat.mul_le_mul_left _ (Nat.mul_le_mul_left _ hhigh)
      _ = 2 ^ 32 := by rw [← pow_add, ← pow_add]; congr 1; omega
  rw [setBits, bitsOf, bitsOf, BitVec.toNat_ofNat, hword, Nat.mod_eq_of_lt hfits, Nat.mul_add_div hP, Nat.div_eq_of_lt hlow, Nat.add_zero,
    Nat.mul_add_mod, Nat.mod_mod]

theorem reg_setReg_same (s : State) (off : Nat) (w : Word) : (s.setReg off w).reg off = w := tget_tset_same _ _ _ _

theorem get_poke_same (s : State) {f : Fld} (h : f.lo + f.w ≤ 32) (v i j : Nat) : (s.poke f v i j).get f i j = v % 2 ^ f.w := by
  rw [State.get, State.poke, reg_setReg_same, bitsOf_setBits _ h]

/-! ## A read of EVR_CLAIM (16 R407) -/

section
variable {a : Agent} {t : Nat} {s : State} (hr : s.outOfReach a 0x6000 = false)
include hr

theorem claimRead_of_other (ha : evOwner t a = false) : claimRead a t s = { s with rdata := 2047 } := by
  simp [claimRead, hr, ha]

variable (ha : evOwner t a = true)
include ha

theorem claimRead_of_offer {n : Nat} (hn : tget 0 s.evr.offer t = n + 1) : claimRead a t s = evSettle { s with
    rdata := BitVec.ofNat 64 n
    evr := { s.evr with claims := tset [] s.evr.claims t (n :: s.evStack t), withdrawn := sdel s.evr.withdrawn t } } := by
  simp [claimRead, hr, ha, hn]

theorem claimRead_of_withdrawn (hn : tget 0 s.evr.offer t = 0) (hw : s.evr.withdrawn.contains t = true) : claimRead a t s =
    ({ s with rdata := 2047, evr := { s.evr with withdrawn := sdel s.evr.withdrawn t } }.incSat F.EVR_STATUS_SPURIOUS) := by
  simp only [claimRead, hr, ha, hn, hw, Bool.not_true, Bool.false_eq_true, if_false, if_true, ne_eq, not_true_eq_false]

theorem claimRead_of_none (hn : tget 0 s.evr.offer t = 0) (hw : s.evr.withdrawn.contains t = false) :
    claimRead a t s = { s with rdata := 2047 } := by
  simp only [claimRead, hr, ha, hn, hw, Bool.not_true, Bool.false_eq_true, if_false, ne_eq, not_true_eq_false]

end

theorem exec_evrClaimRead (a : Agent) (t : Fin 6) (s : State) : exec (.evrClaimRead a t) s = .next (claimRead a t s) := rfl

theorem evOwner_iff {t : Nat} {a : Agent} : evOwner t a = true ↔
    (t = 0 ∧ a = .steward) ∨ (∃ f : FnId, a = .fn f ∧ f.vf = none ∧ t = f.port.val + 1) ∨ (t = 5 ∧ a = .psc) := by
  cases a with
  | steward => simp [evOwner]
  | psc => simp [evOwner]
  | fn f => simp [evOwner, and_comm]

/-- An entry that is not the default value stands in the table. -/
theorem mem_of_tget {α : Type} {d v : α} {t : Tab α} {k : Nat} (h : tget d t k = v) (hv : v ≠ d) : (k, v) ∈ t := by
  induction t with
  | nil => exact absurd h.symm hv
  | cons e r ih =>
    obtain ⟨k', v'⟩ := e
    by_cases hk : k' = k
    · rw [tget, if_pos hk] at h
      exact hk ▸ h ▸ List.mem_cons_self
    · rw [tget, if_neg hk] at h
      exact List.mem_cons_of_mem _ (ih h)

theorem evClaimed_of_mem_evStack {s : State} {t n : Nat} (h : n ∈ s.evStack t) : s.evClaimed n = true :=
  List.any_eq_true.2 ⟨_, mem_of_tget rfl (List.ne_nil_of_mem h), List.contains_iff_mem.2 h⟩

/-- Settles O59: the four ways of a read of EVR_CLAIM, the target's own agent being `evOwner`. -/
theorem claimReadsAsStated : Obligations.ClaimReadsAsStated := by
  intro a t s hr own
  have hown : evOwner t a = true ↔ own := evOwner_iff
  simp only [exec_evrClaimRead]
  refine ⟨fun ho n hn hoffer => ⟨_, rfl, ?claim⟩, fun ho hoffer hgone => ⟨_, rfl, ?spurious⟩, fun ho hoffer hgone => congrArg _ ?none,
    fun ho => congrArg _ (claimRead_of_other hr (Bool.eq_false_iff.2 fun h => ho (hown.1 h)))⟩
  case claim =>
    have hstack : (claimRead a t s).evStack t = n :: s.evStack t := by
      rw [claimRead_of_offer hr (hown.2 ho) hoffer, State.evStack, evSettle_claims]
      exact tget_tset_same [] s.evr.claims t (n :: s.evStack t)
    refine ⟨?_, hstack, evClaimed_of_mem_evStack (hstack ▸ List.mem_cons_self)⟩
    rw [claimRead_of_offer hr (hown.2 ho) hoffer, evSettle_rdata]
    exact Nat.mod_eq_of_lt (by omega)
  case spurious =>
    rw [claimRead_of_withdrawn hr (hown.2 ho) hoffer (List.contains_iff_mem.2 hgone)]
    refine ⟨rfl, rfl, ?_⟩
    rw [State.incSat, get_poke_same _ (by decide)]
    exact Nat.mod_eq_of_lt (by simp only [F.EVR_STATUS_SPURIOUS]; omega)
  case none => exact claimRead_of_none hr (hown.2 ho) hoffer (by simpa using hgone)

/-! ## Completions, writes of the primary PF, and the log's window -/

theorem completeWrite_of_top {a : Agent} {t n : Nat} {s : State} {r : List Nat} (hr : s.outOfReach a 0x6000 = false) (ha : evOwner t a = true)
    (hn : n ≠ 2047) (hs : s.evStack t = n :: r) :
    completeWrite a t n s = evSettle { s with evr := { s.evr with claims := tset [] s.evr.claims t r, held := sdel s.evr.held n } } := by
  simp [completeWrite, hr, ha, hs, hn]

theorem completeWrite_of_other {a : Agent} {t n : Nat} {s : State} (hr : s.outOfReach a 0x6000 = false) (ha : evOwner t a = true)
    (hs : (s.evStack t).head? ≠ some n) : completeWrite a t n s = s.raise F.EVR_STATUS_CMPL_ERR := by
  simp only [completeWrite, hr, ha, Bool.not_true, Bool.false_eq_true, if_false]
  cases hst : s.evStack t with
  | nil => rfl
  | cons top rest => exact if_neg fun h => hs (by rw [hst, List.head?_cons, h.1])

theorem logSelect_of_found {v : Word} {s : State} {b : Bytes}
    (h : logFind (s.poke F.LOG_SEL_HI v.toNat) ((s.poke F.LOG_SEL_HI v.toNat).get F.LOG_SEL_LO + v.toNat * 4294967296) = some b) :
    logSelect v s = ((List.range 16).foldl (fun s k => s.poke F.LOG_WIN (leNat (sliceBytes b (4 * k) 4)) k)
      (s.poke F.LOG_SEL_HI v.toNat)).poke F.LOG_STATUS_SEL_VALID 1 := by
  simp only [logSelect, h]

theorem logSelect_of_missing {v : Word} {s : State}
    (h : logFind (s.poke F.LOG_SEL_HI v.toNat) ((s.poke F.LOG_SEL_HI v.toNat).get F.LOG_SEL_LO + v.toNat * 4294967296) = none) :
    logSelect v s = ((List.range 16).foldl (fun s k => s.poke F.LOG_WIN 0 k) (s.poke F.LOG_SEL_HI v.toNat)).poke F.LOG_STATUS_SEL_VALID 0 := by
  simp only [logSelect, h]

theorem exec_prioTableCheck (parity : Bool) (s : State) : exec (.prioTableCheck parity) s =
    .next (if s.is F.EVR_CTRL_PRIO_EN && (parity || !s.prioGood) then prioFail s else s) :=
  (apply_ite Host.Outcome.next _ _ _).symm

theorem exec_evrSwsetWrite {a : Agent} {s : State} (hr : s.outOfReach a 0x4000 = false) (hw : s.isPrimary a = true) (mask : Word) :
    exec (.evrSwsetWrite a mask) s =
      .next (((List.range 32).filter (fun k => mask.getLsbD k)).foldl (fun s k => evLatch s (1984 + k)) s) := by
  rw [List.foldl_filter]
  exact congrArg _ (ite_primary hr hw)

/-- Settles O43: the ways of each command of the router and the recorder. -/
theorem routerAndRecorderCommandsComplete : Obligations.RouterAndRecorderCommandsComplete := by
  intro s
  refine ⟨fun g hheld => congrArg Host.Outcome.next (if_pos hheld), fun a t hr ha => ⟨?claim, ?withdrawn, ?unoffered, ?complete, ?mismatch⟩,
    fun a hr hw => ⟨?prigroup, ?enable, ?refuse, ?disable, exec_evrSwsetWrite hr hw⟩, fun hen => ⟨?bad, ?parity, ?good⟩, fun t => rfl, rfl,
    fun a hr hw => ⟨congrArg Host.Outcome.next (ite_primary hr hw), fun v => ⟨?found, ?missing⟩⟩⟩
  case claim => exact fun n hn => congrArg Host.Outcome.next (claimRead_of_offer hr ha hn)
  case withdrawn => exact fun hn hgone => congrArg Host.Outcome.next (claimRead_of_withdrawn hr ha hn hgone)
  case unoffered => exact fun hn hgone => congrArg Host.Outcome.next (claimRead_of_none hr ha hn hgone)
  case complete => exact fun x r hx hs => congrArg Host.Outcome.next (completeWrite_of_top hr ha hx hs)
  case mismatch => exact fun x hs => congrArg Host.Outcome.next (completeWrite_of_other hr ha hs)
  case prigroup => exact fun v => congrArg Host.Outcome.next (ite_primary hr hw)
  case enable => exact fun hgood => congrArg Host.Outcome.next ((ite_primary hr hw).trans (if_pos hgood))
  case refuse => exact fun hbad => congrArg Host.Outcome.next ((ite_primary hr hw).trans (if_neg (ne_true_of_eq_false hbad)))
  case disable => exact congrArg Host.Outcome.next (ite_primary hr hw)
  case bad => exact fun hbad => by simp [exec_prioTableCheck, hen, hbad]
  case parity => simp [exec_prioTableCheck, hen]
  case good => exact fun hgood => by simp [exec_prioTableCheck, hgood]
  case found => exact fun b hb => congrArg Host.Outcome.next ((ite_primary hr hw).trans (logSelect_of_found hb))
  case missing => exact fun hnone => congrArg Host.Outcome.next ((ite_primary hr hw).trans (logSelect_of_missing hnone))

/-! ## The router at reset -/

/-- At reset no source is latched, offered or claimed, so the router is sound. -/
theorem routerSound_reset : RouterSound State.reset where
  inv :=
    { table := rfl
      offered := fun _ n _ h => Nat.noConfusion (h : 0 = n + 1)
      nested := fun _ n _ _ _ h => Nat.noConfusion (h : 0 = n + 1)
      depth := fun _ _ => Nat.zero_le 8 }
  latched := fun _ h => absurd h List.not_mem_nil
  claimed := fun _ _ h => absurd h List.not_mem_nil

/-- Settles O53: the tables of the reset state are empty, and its registers hold their reset values. -/
theorem resetStateIsSound : Obligations.ResetStateIsSound :=
  ⟨rfl, rfl, rfl, fun _ => rfl, fun _ => rfl, rfl, fun _ => ⟨rfl, rfl⟩, routerSound_reset.inv, by decide +kernel, by decide +kernel⟩

end Sys2Proof.Machine
end

section
/-! # The aperture units' floor and barriers, and the arbiters (15 R388 to R397)

The floor of 15 Table 15.7 is checked before any descriptor, so no descriptor lifts it; and no other cause of Table 15.10 is FLOOR. -/

namespace Sys2Proof.Machine

open Sys2Proof

/-! ## The floor -/

/-- One of `n` bytes lies in a range. -/
theorem exists_byte_between {a n lo hi : Nat} (hn : 1 ≤ n) (hrange : lo ≤ hi) :
    (∃ x, a ≤ x ∧ x < a + n ∧ lo ≤ x ∧ x ≤ hi) ↔ a < hi + 1 ∧ lo < a + n := by
  refine ⟨fun ⟨x, h1, h2, h3, h4⟩ => ⟨by omega, by omega⟩, fun ⟨h1, h2⟩ => ⟨max a lo, ?_⟩⟩
  omega

/-- The floor is the ranges of 15 Table 15.7. -/
theorem aptFloor_iff {u a n : Nat} {write served : Bool} (hu : u < 12) (hn : 1 ≤ n) : aptFloor u a n write served = true ↔
    let hit := fun (lo hi : Nat) => ∃ x, a ≤ x ∧ x < a + n ∧ lo ≤ x ∧ x ≤ hi
    (u = 0 ∧ (hit 0 0x313FFFFFF ∨ hit 0x340000000 0x37FFFFFFF ∨ hit 0x400000000 0x47FFFFFFF ∨ (write = true ∧ hit 0x380000000 0x3BFFFFFFF))) ∨
      (u = 1 ∧ hit 0x900000000 0xBFFFFFFFF) ∨ u = 2 ∨ u = 5 ∨ u = 7 ∨ (8 ≤ u ∧ served = false) := by
  dsimp only
  simp (disch := norm_num) only [exists_byte_between hn]
  interval_cases u <;> simp [aptFloor, or_assoc]

theorem aptCause_of_floor {s : State} {u a n m : Nat} {write served : Bool} (h : aptFloor u a n write served = true) :
    aptCause s u a n m false write served = (3, 0, 0) := by
  simp only [aptCause, h, Bool.not_false, Bool.and_self, if_true]

/-- Past the floor, a refusal has another cause: no descriptor, no right, the operand slot, or an overlap. -/
theorem aptCause_ne_floor {s : State} {u a n m : Nat} {inWorld write served : Bool} (h : (!inWorld && aptFloor u a n write served) = false) :
    (aptCause s u a n m inWorld write served).1 ≠ 3 := by
  simp only [aptCause, h, Bool.false_eq_true, if_false]
  split
  · decide
  · split_ifs <;> decide
  · exact (by decide : (5 : Nat) ≠ 3)

/-- Settles O60: `aptFloor` is the table, and the first condition of `aptCause`. -/
theorem floorAsStated : Obligations.FloorAsStated := by
  intro s u a len master write served hu hlen hit floor
  have hfloor : aptFloor u a len write served = true ↔ floor := aptFloor_iff hu hlen
  refine ⟨fun h => ?_, fun h => aptCause_ne_floor ?_, aptCause_ne_floor rfl⟩
  · have hcause := aptCause_of_floor (s := s) (m := master) (hfloor.2 h)
    exact ⟨hcause, aptCheck_of_refused (hcause ▸ by decide)⟩
  · exact Bool.eq_false_iff.2 fun hf => h (hfloor.1 hf)

/-! ## Barriers and locks -/

/-- One unit at a barrier: it takes up its staged set, or is noted as refused (15 R388). -/
theorem barrierStep_eq (s : State) (u : Nat) :
    (if (aptApply s u).1 then (aptApply s u).2
      else { (aptApply s u).2 with apt := { (aptApply s u).2.apt with refused := (aptApply s u).2.apt.refused ||| 2 ^ u } }) =
    (match aptApply s u with
      | (true, t) => t
      | (false, t) => { t with apt := { t.apt with refused := t.apt.refused ||| 2 ^ u } }) := by
  obtain ⟨_ | _, t⟩ := aptApply s u <;> rfl

section
variable {a : Agent} {s : State} (hr : s.outOfReach a 0x200000 = false)
include hr

theorem exec_aptBarRead : exec (.aptBarRead a) s = .next { s with rdata := BitVec.ofNat 64 s.apt.refused } := by
  have hread : exec (.aptBarRead a) s =
      .next { s with rdata := BitVec.ofNat 64 (if s.outOfReach a 0x200000 then 0 else s.apt.refused) } := rfl
  rw [hread, ite_reach hr]

variable (hp : s.isPrimary a = true)
include hp

theorem aptBar_of_primary (units : BitVec 12) : aptBar a units s = (List.range 12).foldl (fun s u =>
    if units.getLsbD u then (match aptApply s u with
      | (true, t) => t
      | (false, t) => { t with apt := { t.apt with refused := t.apt.refused ||| 2 ^ u } })
    else s) { s with apt := { s.apt with refused := 0 } } := by
  unfold aptBar
  rw [ite_primary hr hp]
  exact congrArg (fun f => List.foldl f _ _) (funext fun s => funext fun u => ite_congr rfl (fun _ => barrierStep_eq s u) fun _ => rfl)

theorem aptLock_of_primary {u : Nat} {mask : Word} (hm : mask ≠ 0) {b : Bool} {t : State}
    (h : aptApply { s with apt := { s.apt with refused := 0 } } u = (b, t)) :
    aptLock a u mask s = if b then t.poke F.APT_LOCK (t.get F.APT_LOCK u ||| mask.toNat) u
      else { t with apt := { t.apt with refused := 2 ^ u } } := by
  unfold aptLock
  rw [ite_primary hr hp, if_neg hm, h]

end

/-! ## Arbiters -/

theorem exec_arbHoldCut_of_held {a : Fin 8} {m : Nat} {s : State} (h : (s.arbiter a).holder = some m) (now : BitVec 16) (l : List ArbArrival) :
    exec (.arbHoldCut a now l) s = .next (arbRestamp (event
      (((arbArrive s a l).raise F.ARB_STATUS_HOLD_SEEN a).incSat F.ARB_STATUS_CUTS a) 2 evArbHold (108 + a) 0xFFFF (leBytes 1 a ++ leBytes 2 m))
      a now.toNat) := by
  have hexec : exec (.arbHoldCut a now l) s = execArbHoldCut a now l s := rfl
  rw [hexec, execArbHoldCut, h]

theorem exec_arbHoldCut_of_free {a : Fin 8} {s : State} (h : (s.arbiter a).holder = none) (now : BitVec 16) (l : List ArbArrival) :
    exec (.arbHoldCut a now l) s = .next (arbArrive s a l) := by
  have hexec : exec (.arbHoldCut a now l) s = execArbHoldCut a now l s := rfl
  rw [hexec, execArbHoldCut, h]

theorem exec_arbBurstEnd (a : Fin 8) (now : BitVec 16) (l : List ArbArrival) (s : State) : exec (.arbBurstEnd a now l) s =
    .next (if (s.arbiter a).holder.isNone then arbArrive s a l else arbRestamp (arbArrive s a l) a now.toNat) := rfl

theorem exec_arbSaturation_of_waiting {a : Fin 8} {m : BitVec 10} {l : List ArbArrival} {s : State} {x : ArbReq}
    (h : arbOldest ((arbArrive s a l).arbiter a) m.toNat = some x) :
    exec (.arbSaturation a m l) s = .next (((arbArrive s a l).setArb a { (arbArrive s a l).arbiter a with
      waiting := ((arbArrive s a l).arbiter a).waiting.map (fun (r : ArbReq) =>
        if r.stamp = x.stamp ∧ r.sat.isNone then { r with sat := some ((arbArrive s a l).arbiter a).satNext } else r)
      satNext := ((arbArrive s a l).arbiter a).satNext + 1 }).raise F.ARB_STATUS_SAT_SEEN a) := by
  have hexec : exec (.arbSaturation a m l) s = execArbSaturation a m l s := rfl
  rw [hexec, execArbSaturation]
  dsimp only
  rw [h]

/-- Settles O42: a barrier's unit takes up its set or refuses; an arbiter is held or free. -/
theorem apertureAndArbiterCommandsComplete : Obligations.ApertureAndArbiterCommandsComplete := by
  intro s
  refine ⟨fun c hr => ⟨exec_aptBarRead hr, fun hp => ⟨fun units => ?barrier, fun u mask t hm h => ?locked, fun u mask t hm h => ?refused⟩⟩,
    fun a now l => ⟨fun m hm => ⟨?burst, exec_arbHoldCut_of_held hm now l⟩, fun hm => ⟨?free, exec_arbHoldCut_of_free hm now l⟩,
      fun m x h => exec_arbSaturation_of_waiting h⟩⟩
  case barrier => exact congrArg Host.Outcome.next (aptBar_of_primary hr hp units)
  case locked => exact congrArg Host.Outcome.next (aptLock_of_primary hr hp hm h)
  case refused => exact congrArg Host.Outcome.next (aptLock_of_primary hr hp hm h)
  case burst => rw [exec_arbBurstEnd, hm]; rfl
  case free => rw [exec_arbBurstEnd, hm]; rfl

end Sys2Proof.Machine
end

section
/-! # Facets that do not issue (03 R56, 17 R428, 18 R457)

Every instruction of a facet has its effect behind `issue`, whatever else it waits for first. A facet that debug halted, or whose power domain is
off, issues nothing; one behind a taken branch discards the instruction. -/

namespace Sys2Proof.Machine

open Sys2Proof

/-- `t` is what an instruction of slot `h` makes of `s` where the facet does not issue it. -/
structure Withheld (h : Slot) (s t : State) : Prop where
  halted : (s.facet h.p).halt = 1 → t = s
  dark : s.domainOn h.p = false → t = s
  squashed : (s.facet h.p).halt = 0 → s.domainOn h.p = true → (s.facet h.p).squash = true →
    t = s.modFacet h.p (fun f => { f with squash := false })

section
variable (h : Slot) (s : State)

theorem Withheld.issue (regs : List Nat) (k : State → State) : Withheld h s (issue h s regs k) where
  halted hh := by simp [Machine.issue, hh]
  dark hd := by simp [Machine.issue, hd]
  squashed hh hp hs := by simp [Machine.issue, hh, hp, hs]

theorem Withheld.ite {t u : State} {c : Prop} [Decidable c] (ht : Withheld h s t) (hu : Withheld h s u) : Withheld h s (if c then t else u) := by
  split
  exacts [ht, hu]

/-- A wait that a discarded instruction does not wait out. -/
theorem Withheld.wait {t : State} (ht : Withheld h s t) (c : Bool) : Withheld h s (if (!(s.facet h.p).squash && c) = true then s else t) where
  halted hh := by rw [ht.halted hh, ite_self]
  dark hd := by rw [ht.dark hd, ite_self]
  squashed hh hp hs := by rw [hs, Bool.not_true, Bool.false_and, if_neg Bool.false_ne_true, ht.squashed hh hp hs]

theorem Withheld.issueLens (regs : List Nat) (k : State → State) : Withheld h s (issueLens h s regs k) :=
  .wait h s (.issue h s regs _) _

theorem Withheld.issueK (regs : List Nat) (k : KReg → State → State) : Withheld h s (issueK h s regs k) :=
  .wait h s (.issue h s regs _) _

theorem Withheld.issueKey (k : State → State) : Withheld h s (issueKey h s k) :=
  .wait h s (.issueLens h s [] k) _

theorem Withheld.gateRun (n : Nat) (body : State → State) : Withheld h s (gateRun h n body s) :=
  .ite h s (.issue h s [] body) (.issueLens h s [] _)

end

/-- Every instruction of a facet completes behind `issue`. -/
theorem exec_slot {i : Instr} {h : Slot} (hi : slotOf i = some h) (s : State) : ∃ t, exec i s = .next t ∧ Withheld h s t := by
  cases i with
  | add | sub | addc | subb | and | or | xor | shl | shr | sar | slt | sltu | mul | mulh | jr | addi | andi | ori | xori | slti | lui
  | beq | bne | blt | bge | j
  | ldb | ldh | ldw | ldd | stb | sth | stw | std | vld | vst | amoswap | amoadd | amocas | fenceSl | fenceSs | fenceFull
  | vxor | vand | vadd | vperm | vmovg | hsave | hrest | cvinit | cvupd | cvfin | rngld =>
    cases hi
    exact ⟨_, rfl, .issue _ s _ _⟩
  | bld | bst | bxor | band | bshl | bshr | bmovb | bmovn | bctr | bmulx | bcmp | bins | bext | pext | pins | pchk | ppan | gmul | ghash | tag
  | seqld | fld | fst | fdone | cmdin | cmdout | done | wcall | wret | ecall | eret | ff1 =>
    cases hi
    exact ⟨_, rfl, .issueLens _ s _ _⟩
  | hset | seqgo | kcommit =>
    cases hi
    exact ⟨_, rfl, .issueK _ s _ _⟩
  | kset | kvar =>
    cases hi
    exact ⟨_, rfl, .issueKey _ s _⟩
  | gateKeyInfo | gateOwnerInfo | auditNote | kcv =>
    cases hi
    exact ⟨_, rfl, .gateRun _ s _ _⟩
  | lens =>
    cases hi
    exact ⟨_, rfl, .ite _ s (.issue _ s _ _) (.issueK _ s _ _)⟩
  | seqwait | ldk =>
    cases hi
    exact ⟨_, rfl, .wait _ s (.issue _ s _ _) _⟩
  | hinit =>
    cases hi
    exact ⟨_, rfl, .ite _ s (.ite _ s (.issue _ s _ _) (.issueK _ s _ _)) (.issue _ s _ _)⟩
  | hupd h src =>
    cases hi
    cases src with
    | mem => exact ⟨_, rfl, .issue _ s _ _⟩
    | blk => exact ⟨_, rfl, .issueLens _ s _ _⟩
  | hfin h dst =>
    cases hi
    cases dst with
    | mem => exact ⟨_, rfl, .issue _ s _ _⟩
    | blk => exact ⟨_, rfl, .issueLens _ s _ _⟩
  | _ => cases hi

/-- Settles O57: what an instruction does where the facet does not issue it is the same for all of them. -/
theorem haltedOrSquashedExecutesNothing : Obligations.HaltedOrSquashedExecutesNothing := by
  intro i h s hi
  obtain ⟨t, ht, hheld⟩ := exec_slot hi s
  rw [ht]
  exact ⟨fun hh => congrArg _ (hheld.halted hh), fun hd => congrArg _ (hheld.dark hd),
    fun hh hp hs => congrArg _ (hheld.squashed hh hp hs)⟩

end Sys2Proof.Machine
end

section
/-! # Huxel arrays (11 R297 to R312, 21 R504)

An array takes a unit past five conditions, and ends one past two; each lemma is the way on which all of them hold. -/

namespace Sys2Proof.Machine

open Sys2Proof

theorem slotAccess_eq_of_true {s : State} {a slot : Nat} {write : Bool} (h : (slotAccess s a slot write).1 = true) :
    slotAccess s a slot write = (true, s) := by
  unfold slotAccess at h ⊢
  extract_lets at h ⊢
  split at h
  · next hc => exact if_pos hc
  · exact absurd h Bool.false_ne_true

theorem unitWrite_eq_of_true {s : State} {a : Nat} {x : HxOp} (h : (unitWrite s a x).1 = true) : unitWrite s a x = (true, s) := by
  unfold unitWrite at h ⊢
  extract_lets at h ⊢
  split at h
  · next hk => exact if_pos hk
  · next hk => exact (if_neg hk).trans (slotAccess_eq_of_true h)

/-- A free, online, powered array takes the arbiter's unit once its operand is delivered and its slot admitted. -/
theorem unitDispatch_of_admitted {a : Nat} {s t u : State} {x : HxOp} (hbusy : s.is F.HX_ASTAT_BUSY a = false)
    (hoff : s.is F.HX_ASTAT_OFFLINE a = false) (hzero : s.hx.zeroing.contains a = false) (hpower : s.domainOn (72 + a) = true)
    (harb : hxArbiter (1400 * (s.own.length + 1)) (hxClear s) = (some x, t)) (hmark : t.marked.any (slotWord x) = false)
    (hrng : hxDraws x = true → t.rngStopped = false) (hdeliver : hxDeliver t x = some (sOk, u))
    (hslot : (slotAccess u a x.slot false).1 = true) :
    let v := if hxDraws x then u.poke F.HX_AENT (u.get F.HX_AENT a + unitRequests x) a else u
    let w := modOp v x (fun y => { y with array := a + 1 })
    unitDispatch a s = hxSettle ((({ w with apt := { w.apt with
      slots := tset 0 w.apt.slots (0x090 + a) (x.slot + 1) } }.poke F.HX_ASTAT_BUSY 1 a).poke F.HX_ASTAT_OWNER x.owner a).poke
        F.HX_ASTAT_ALG x.alg a) := by
  have hdraws : ¬ (hxDraws x = true ∧ t.rngStopped = true) := fun ⟨hd, hs⟩ => Bool.false_ne_true ((hrng hd).symm.trans hs)
  simp only [unitDispatch, hbusy, hoff, hzero, hpower, harb, hmark, hdeliver, slotAccess_eq_of_true hslot, if_neg hdraws, Bool.not_true,
    Bool.false_eq_true, or_self, if_false, ne_eq, not_true_eq_false]

/-- The end of a unit whose result its slot admits, with no offline request waiting: the three outcomes. -/
theorem unitEnd_of_admitted {a : Nat} {ok seedOk passed : Bool} {s : State} {x : HxOp}
    (hx : s.hx.ops.find? (fun x => decide (x.array = a + 1)) = some x) (hwrite : (unitWrite s a x).1 = true)
    (hoff : (unitCounted s a x (ok && seedOk)).is F.HX_ACTRL_OFFLINE_REQ a = false) :
    unitEnd a ok seedOk passed s = if ok = false then invariantFails (unitCounted s a x false) a x
      else if seedOk = false then hxResult (event ((unitCounted s a x false).incWrap F.HX_ASAMP a) 3 evHxSeed (72 + a) x.owner
        (leBytes 1 x.alg)) x sInternal
      else unitReleased (unitCounted s a x true) a x passed := by
  have hacc : (if (ok && seedOk) = true then unitWrite s a x else (true, s)) = (true, s) := by
    rw [unitWrite_eq_of_true hwrite, ite_self]
  have hdue : offlineDue (unitCounted s a x (ok && seedOk)) a = unitCounted s a x (ok && seedOk) :=
    if_neg fun ⟨h, _⟩ => ne_true_of_eq_false hoff h
  simp only [unitEnd, hx, hacc, Bool.and_true, hdue]
  cases ok with
  | false => simp only [Bool.not_false, Bool.false_and, if_true]
  | true => cases seedOk <;> simp

/-- An idle array goes offline with the request, a busy one keeps it. -/
theorem offlineReq_of_primary {c : Agent} {a : Nat} {s : State} (hr : s.outOfReach c 0x60000 = false) (hp : s.isPrimary c = true) :
    let t := s.poke F.HX_ACTRL_OFFLINE_REQ 1 a
    offlineReq c a s = if t.is F.HX_ASTAT_BUSY a = true ∨ t.is F.HX_ASTAT_OFFLINE a = true then t
      else event (arrayOffline t a) 2 evHxReq (72 + a) 0xFFFF (leBytes 1 a) := by
  intro t
  have hreq : t.is F.HX_ACTRL_OFFLINE_REQ a = true := by
    rw [State.is, get_poke_same s (by decide)]
    decide
  rw [offlineReq, ite_primary hr hp]
  change (if t.is F.HX_ASTAT_BUSY a = true then t else offlineDue t a) = _
  cases hb : t.is F.HX_ASTAT_BUSY a <;> cases ho : t.is F.HX_ASTAT_OFFLINE a <;> simp [offlineDue, hreq, ho]

/-- Settles O34: a unit's dispatch, its end, the end of the zeroing, and an offline request. -/
theorem huxelCommandsComplete : Obligations.HuxelCommandsComplete :=
  fun _ _ =>
    ⟨fun _ _ _ hbusy hoff hzero hpower harb hmark hrng hdeliver hslot => congrArg Host.Outcome.next
      (unitDispatch_of_admitted hbusy hoff hzero hpower harb hmark hrng hdeliver hslot),
    fun _ _ _ _ hx hwrite hoff => congrArg Host.Outcome.next (unitEnd_of_admitted hx hwrite hoff), rfl,
    fun _ hr hp => congrArg Host.Outcome.next (offlineReq_of_primary hr hp)⟩

end Sys2Proof.Machine
end

section
/-! # Noise sources, conditioner blocks, entropy requests and the check-value unit (12 R314 to R329) -/

namespace Sys2Proof.Machine

open Sys2Proof

/-! ## Sources -/

theorem srcFailure_of_active {n : Nat} {apt : Bool} {s : State} (h : (s.source n).st = .active) :
    let t := countFail s apt
    srcFailure n apt s = rngUpdate (replaceSource (event (excludeSource { t with rng := { t.rng with fifo := [] } } n) 3 evSrcFail 130 0xFFFF
      (leBytes 1 n ++ leBytes 1 (b2n apt))) (srcKind n)) := by
  simp only [srcFailure, h]

theorem startupEnd_of_pass {n : Nat} (apt : Bool) {s : State} (h : (s.source n).st = .testing true) :
    startupEnd n true apt s = rngUpdate (s.setSource n { s.source n with st := .active }) := by
  simp [startupEnd, h]

theorem startupEnd_of_failure {n : Nat} (apt : Bool) {s : State} (h : (s.source n).st = .testing true) :
    startupEnd n false apt s = rngUpdate (replaceSource (excludeSource (countFail s apt) n) (srcKind n)) := by
  simp [startupEnd, h]

theorem exec_sourceRetest (n : Fin 28) (s : State) :
    exec (.sourceRetest n) s = .next (if (s.source n).st == .excluded then s.beginTest n false else s) := rfl

/-! ## Conditioner blocks -/

/-- The health tests of a block's samples change the tests' own state alone. -/
theorem testChunks_health (s : State) (chunks : List Chunk) :
    ∃ health, (testChunks s chunks).1 = { s with rng := { s.rng with health := health } } := by
  unfold testChunks
  generalize ([] : List (Nat × Bool)) = failed
  induction chunks generalizing s failed with
  | nil => exact ⟨s.rng.health, rfl⟩
  | cons x r ih =>
    obtain ⟨health, h⟩ := ih { s with rng := { s.rng with
      health := tset Health.zero s.rng.health x.source.val (chunkTest (tget Health.zero s.rng.health x.source.val) x).1 } } _
    exact ⟨health, h⟩

/-- A block may close when its chunks are whole ones of ACTIVE sources and hold the entropy of 12 R318. -/
structure BlockCloses (s : State) (chunks : List Chunk) : Prop where
  whole : ∀ x ∈ chunks, s.srcActive x.source.val = true ∧ x.data.length = 64
  total :
    let sum := fun (k : Nat) => ((chunks.filter (fun x => srcKind x.source.val == k)).length) * kindChunk k
    512 ≤ sum 0 + sum 1 + sum 2
  mixed :
    let sum := fun (k : Nat) => ((chunks.filter (fun x => srcKind x.source.val == k)).length) * kindChunk k
    320 ≤ sum 0 + sum 1 + sum 2 - max (sum 0) (max (sum 1) (sum 2))

section
variable {s : State} {c : Nat} {chunks : List Chunk} (h : BlockCloses s chunks)
include h

theorem blockClose_tests : blockClose c chunks s =
    if (testChunks s chunks).2 ≠ [] then (testChunks s chunks).2.foldl (fun s e => srcFailure e.1 e.2 s) (testChunks s chunks).1
    else
      let u := (testChunks s chunks).1
      { u with rng := { u.rng with
        counters := tset 0 u.rng.counters c ((tget 0 u.rng.counters c + 1) % 2 ^ 56)
        fifo := if u.rng.fifo.length + 32 ≤ 16384 then u.rng.fifo ++
            sha256 (leBytes 1 c ++ beBytes 7 (tget 0 u.rng.counters c) ++ chunks.flatMap (fun x => x.data)) else u.rng.fifo } } := by
  have hall : chunks.all (fun x => s.srcActive x.source.val && decide (x.data.length = 64)) = true :=
    List.all_eq_true.2 fun x hx => by simpa using h.whole x hx
  have htotal := decide_eq_true h.total
  have hmixed := decide_eq_true h.mixed
  simp only [blockClose, hall, htotal, hmixed, Bool.and_self, Bool.not_true, Bool.false_eq_true, if_false]

theorem blockClose_of_healthy (hfail : (testChunks s chunks).2 = []) (hroom : s.rng.fifo.length + 32 ≤ 16384) :
    let n := tget 0 s.rng.counters c
    let u := (testChunks s chunks).1
    blockClose c chunks s = { u with rng := { u.rng with
      counters := tset 0 s.rng.counters c ((n + 1) % 2 ^ 56)
      fifo := s.rng.fifo ++ sha256 (leBytes 1 c ++ beBytes 7 n ++ chunks.flatMap (fun x => x.data)) } } := by
  obtain ⟨health, hu⟩ := testChunks_health s chunks
  rw [blockClose_tests h, hfail, if_neg (not_not_intro rfl)]
  simp only [hu, hroom, if_true]

theorem blockClose_of_failure {n : Nat} {apt : Bool} (hfail : (testChunks s chunks).2 = [(n, apt)]) :
    blockClose c chunks s = srcFailure n apt (testChunks s chunks).1 := by
  rw [blockClose_tests h, hfail, if_pos (List.cons_ne_nil _ _), List.foldl_cons, List.foldl_nil]

end

theorem exec_conditionerBlockClose (c : Fin 8) (chunks : List Chunk) (s : State) : exec (.conditionerBlockClose c chunks) s =
    .next (rngServe (blockClose c chunks s).rng.waiting.length (blockClose c chunks s)) := rfl

/-! ## Entropy requests -/

theorem exec_entropyRequest_of_stopped {s : State} (h : s.rngStopped = true) (consumer : Nat) (bits : Fin 257) :
    exec (.entropyRequest consumer bits) s = .next { s with out := leBytes 2 0x42 } := by
  have hexec : exec (.entropyRequest consumer bits) s = execEntropyRequest consumer bits s := rfl
  rw [hexec, execEntropyRequest, if_pos h]

theorem exec_entropyRequest_of_running {s : State} (h : s.rngStopped = false) (consumer : Nat) (bits : Fin 257) :
    exec (.entropyRequest consumer bits) s = .next (rngServe (s.rng.waiting.length + 1)
      { s with rng := { s.rng with waiting := s.rng.waiting ++ [(consumer, bits.val)] } }) := by
  have hexec : exec (.entropyRequest consumer bits) s = execEntropyRequest consumer bits s := rfl
  have hlen : (s.rng.waiting ++ [(consumer, bits.val)]).length = s.rng.waiting.length + 1 := List.length_append
  rw [hexec, execEntropyRequest, if_neg (ne_true_of_eq_false h)]
  dsimp only
  rw [hlen]

/-! ## The check-value unit -/

section
variable {a : Agent} {s : State} (hr : s.outOfReach a 0x70800 = false) (hp : s.isPrimary a = true)
include hr hp

theorem cvuStart_of_primary :
    let poly := s.get F.CVU_CTRL_POLY
    let start := cvStart poly (if s.is F.CVU_CTRL_CTX then some (s.get64 F.CVU_CTX_LO) else none)
    cvuStart a s = ({ s with cv := some ⟨poly, start⟩ }).put64 F.CVU_RESULT_LO (cvFinish poly start) := ite_primary hr hp

theorem cvuData_of_open {x : CvSt} (hx : s.cv = some x) (v : Word) :
    let reg := cvFeed x.poly x.reg (leBytes (if s.get F.CVU_CTRL_NBYTES = 0 then 4 else s.get F.CVU_CTRL_NBYTES) v.toNat)
    cvuData a v s = ({ s with cv := some { x with reg := reg } }).put64 F.CVU_RESULT_LO (cvFinish x.poly reg) := by
  rw [cvuData, ite_primary hr hp, hx]
  rfl

end

/-- Settles O32: sources, blocks, requests and the check-value unit, each on its ways. -/
theorem entropyCommandsComplete : Obligations.EntropyCommandsComplete := by
  intro s
  refine ⟨fun n apt h => ?failure, fun n apt h => ⟨?pass, ?fail⟩, fun n h => ?retest, fun c chunks => ?block,
    fun consumer bits => ⟨fun h => exec_entropyRequest_of_stopped h consumer bits, fun h => exec_entropyRequest_of_running h consumer bits⟩,
    fun a hr hp => ⟨congrArg Host.Outcome.next (cvuStart_of_primary hr hp),
      fun v x hx => congrArg Host.Outcome.next (cvuData_of_open hr hp hx v)⟩⟩
  case failure => exact congrArg Host.Outcome.next (srcFailure_of_active h)
  case pass => exact congrArg Host.Outcome.next (startupEnd_of_pass apt h)
  case fail => exact congrArg Host.Outcome.next (startupEnd_of_failure apt h)
  case retest =>
    rw [exec_sourceRetest, h]
    rfl
  case block =>
    intro sum tot hwhole htotal hmixed hroom n u t
    have hcloses : BlockCloses s chunks := ⟨hwhole, htotal, hmixed⟩
    have hwaiting : u.rng.waiting = s.rng.waiting := by
      obtain ⟨health, hu⟩ := testChunks_health s chunks
      exact congrArg (fun s => s.rng.waiting) hu
    rw [exec_conditionerBlockClose]
    refine ⟨fun hfail => ?_, fun n apt hfail => by rw [blockClose_of_failure hcloses hfail]⟩
    have ht : blockClose c chunks s = t := blockClose_of_healthy hcloses hfail hroom
    rw [ht, ← hwaiting]

end Sys2Proof.Machine
end

section
/-! # Frames of the ring (13 R337)

A frame of an authenticated port is discarded with LINK_NAK, or taken off the link; one that is taken ends here, acts here, goes on, or both. -/

namespace Sys2Proof.Machine

open Sys2Proof

section
variable {h : RHead} {s : State} (hauth : (s.rlink h.port.val).auth = true)
include hauth

theorem linkTake_of_bad (hbad : h.good = false ∨ h.seq ≠ (s.rlink h.port.val).rxSeq) :
    linkTake s h = (false, linkMsg s h.port.val rkNak (leBytes 8 (s.rlink h.port.val).rxSeq)) := by
  have hbad' : (!h.good) = true ∨ h.seq ≠ (s.rlink h.port.val).rxSeq := hbad.imp_left (congrArg not)
  simp only [linkTake, hauth, Bool.not_true, Bool.false_eq_true, if_false, if_pos hbad']

theorem ringTake_of_bad (hbad : h.good = false ∨ h.seq ≠ (s.rlink h.port.val).rxSeq) (kind : Nat) (content : Bytes) (act : State → State) :
    ringTake s h kind content act = linkMsg s h.port.val rkNak (leBytes 8 (s.rlink h.port.val).rxSeq) := by
  rw [ringTake, linkTake_of_bad hauth hbad]

variable (hgood : h.good = true) (hseq : h.seq = (s.rlink h.port.val).rxSeq)
include hgood hseq

theorem linkTake_of_good : linkTake s h = (true, framed h s) := by
  simp [linkTake, hauth, hgood, hseq]

/-- A frame that is taken: what it does depends on its source and its destination alone. -/
theorem ringTake_of_good (kind : Nat) (content : Bytes) (act : State → State) : ringTake s h kind content act =
    if h.src.val = s.nodeId then framed h s
    else if h.dst.val = s.nodeId then act (framed h s)
    else if h.dst.val = 255 then act (forwarded h kind content (framed h s))
    else forwarded h kind content (framed h s) := by
  have hnode : (framed h s).nodeId = s.nodeId := rfl
  rw [ringTake, linkTake_of_good hauth hgood hseq]
  simp only [hnode, decide_eq_true_eq]
  by_cases hown : h.dst.val = s.nodeId
  · simp only [hown, true_or, if_true]
  · simp only [hown, false_or, if_false]

theorem exec_linkAck (acked : Nat) (rekey : Option Nat) : exec (.linkAck h acked rekey) s = .next (linkAcked h.port.val acked rekey (framed h s)) := by
  have hexec : exec (.linkAck h acked rekey) s = execLinkAck h acked rekey s := rfl
  rw [hexec, execLinkAck, linkTake_of_good hauth hgood hseq]

theorem exec_linkNak (first : Nat) : exec (.linkNak h first) s = .next (linkResend h.port.val first (framed h s)) := by
  have hexec : exec (.linkNak h first) s = execLinkNak h first s := rfl
  rw [hexec, execLinkNak, linkTake_of_good hauth hgood hseq]

end

/-- Settles O39: every message kind is its effect behind `ringTake`. -/
theorem ringMessagesComplete : Obligations.RingMessagesComplete := by
  intro h s hauth
  refine ⟨fun i kind content act hkind => ?message, fun hgood hseq => ⟨exec_linkAck hauth hgood hseq, exec_linkNak hauth hgood hseq⟩⟩
  have hexec : exec i s = .next (ringTake s h kind content act) := by
    rcases hkind with ⟨m, rfl, rfl, rfl, rfl⟩ | ⟨order, mem, ver, cmds, homes, l, hs, rfl, rfl, rfl, rfl, rfl, rfl⟩ |
      ⟨home, n, k, key, data, rfl, rfl, rfl, rfl⟩ | ⟨n, rfl, rfl, rfl, rfl⟩ | ⟨home, rfl, rfl, rfl, rfl⟩ | ⟨rfl, rfl, rfl, rfl⟩ |
      ⟨n, rfl, rfl, rfl, rfl⟩ | ⟨taker, node, owners, l, rfl, rfl, rfl, rfl, rfl⟩ | ⟨home, epoch, k, key, data, rfl, rfl, rfl, rfl⟩ |
      ⟨home, epoch, n, digest, rfl, rfl, rfl, rfl⟩ | ⟨epoch, rfl, rfl, rfl, rfl⟩ | ⟨epoch, d, rfl, rfl, rfl, rfl⟩ |
      ⟨sp, n, rfl, rfl, rfl, rfl⟩ | ⟨sp, n, data, rfl, rfl, rfl, rfl⟩ | ⟨m, rfl, rfl, rfl, rfl⟩
    all_goals rfl
  rw [hexec]
  refine ⟨fun hgood hseq => ?_, fun hbad => congrArg _ (ringTake_of_bad hauth hbad kind content act)⟩
  rw [ringTake_of_good hauth hgood hseq]
  exact ⟨fun hsrc => by rw [if_pos hsrc], fun hsrc hdst => by rw [if_neg hsrc, if_pos hdst],
    fun hsrc hdst hall => by rw [if_neg hsrc, if_neg hdst, if_pos hall], fun hsrc hdst hall => by rw [if_neg hsrc, if_neg hdst, if_neg hall]⟩

end Sys2Proof.Machine
end

section
/-! # What the ring's messages do at the node that takes them (13 R342 to R351, 04 R107) -/

namespace Sys2Proof.Machine

open Sys2Proof

/-! ## Leases -/

theorem leaseReq_of_sealed {src : Nat} {s : State} (hst : s.ringState = 2) (hpf : s.rst.pfail = false)
    (hhalf : halvesOf s (fun h => h.sealed_ && decide (h.src = src) && decide (h.home = some src)) ≠ []) :
    leaseReq src s = ringBoth (setRing s { s.ring with granted := src + 1, grants := s.ring.grants + 1 }) rkLeaseGrant src
      (leBytes 8 (s.ring.grants + 1)) :=
  if_pos ⟨hst, congrArg not hpf, hhalf⟩

/-- A member is not fenced: a grant of its holder leases and does no more. -/
theorem leaseGrant_of_member {src : Nat} {s : State} (hh : s.ring.holder = src + 1) (hst : s.ringState = 2) :
    leaseGrant src s = setRing s { s.ring with leased := true } := by
  have hleased : (setRing s { s.ring with leased := true }).ringState ≠ 3 := fun h => by
    have hsame : (setRing s { s.ring with leased := true }).ringState = 2 := hst
    omega
  rw [leaseGrant, if_pos ⟨.inl hh, hst.ge⟩, unfence, if_neg hleased]

/-! ## Mirror entries and copies -/

section
variable {src home : Nat} {s : State}

theorem mirrorIn_of_none (h : halvesOf s (fun h => decide (h.src = src) && decide (h.home = some home)) = []) (n kind key : Nat) (data : Bytes) :
    mirrorIn src home n kind key data s = s := by
  rw [mirrorIn, h]

theorem mirrorIn_of_held {k : Nat} (h : halvesOf s (fun h => decide (h.src = src) && decide (h.home = some home)) = [k]) (n kind key : Nat)
    (data : Bytes) : mirrorIn src home n kind key data s =
      ringSend (setHalf s k { halfStore (s.half k) kind key data with mseq := n + 1 }) 1 rkMirrorAck src (leBytes 8 n) := by
  rw [mirrorIn, h]
  rfl

theorem copyData_of_unsealed {k epoch : Nat} {r : List Nat} (kind key : Nat) (data : Bytes)
    (h : halvesOf s (fun h => decide (h.src = src) && decide (h.home = some home) && !h.sealed_) = k :: r) (he : (s.half k).epoch = epoch) :
    copyData src home epoch kind key data s = setHalf s k (halfStore (s.half k) kind key data) := by
  simp only [copyData, h, if_pos he]

section
variable (h : halvesOf s (fun h => decide (h.src = src) && decide (h.home = some home) && !h.sealed_) = [])
include h

theorem copyData_of_free {k : Nat} (epoch kind key : Nat) (data : Bytes) (hk : [0, 1].find? (fun k => (s.half k).home.isNone) = some k) :
    copyData src home epoch kind key data s =
      setHalf s k (halfStore { Half.zero with home := some home, src := src, epoch := epoch } kind key data) := by
  simp only [copyData, h, hk]

theorem copyData_of_full (epoch kind key : Nat) (data : Bytes) (h0 : (s.half 0).home.isSome) (h1 : (s.half 1).home.isSome) :
    copyData src home epoch kind key data s = ringSend s 1 rkCopyAbort src (leBytes 4 epoch ++ [0]) := by
  have hk : [0, 1].find? (fun k => (s.half k).home.isNone) = none := by simp [Option.isSome_iff_ne_none.1 h0, Option.isSome_iff_ne_none.1 h1]
  simp only [copyData, h, hk]

end

theorem copyAbortMsg_of_unsealed {k epoch : Nat} {r : List Nat} (d : Bool)
    (h : halvesOf s (fun h => decide (h.src = src) && decide (h.epoch = epoch) && !h.sealed_) = k :: r) :
    copyAbortMsg src epoch d s = freeHalf s k false := by
  rw [copyAbortMsg, h]

/-- The acknowledged seal of the copy of the node's own set: the target is its holder, and there was none before to tell. -/
theorem copySealed_of_own (ht : s.get F.VR_COPY_TARGET = src) (hst : s.get F.VR_COPY_STATE = 2) (hset : s.ring.copySet = 0)
    (hold : holderOf s s.nodeId = 0) :
    let t := s.put F.VR_COPY_STATE 3
    let u := (setRing t { s.ring with
      copyFails := 0
      holder := src + 1
      taken := s.ring.taken.map (fun x => if x.home + 1 = 0 then { x with holder := src + 1 } else x) }).put F.VR_STATE_HELD 1
    copySealed src s.ring.copyEpoch s = copyStart (versionStep ((u.jr.queues.map Prod.fst).foldl showQueue u)) := by
  have hmine : ¬ (s.get F.VR_COPY_TARGET ≠ src ∨ s.ring.copyEpoch ≠ s.ring.copyEpoch ∨ s.get F.VR_COPY_STATE ≠ 2) := by
    simp [ht, hst]
  simp only [copySealed, if_neg hmine, hset, if_true, hold]

end

/-! ## Takeovers and record requests -/

/-- A takeover that names this node. -/
theorem takeoverMsg_of_self {taker : Nat} {owners : List Nat} {s : State}
    (hnode : (owners.foldl (fun (s : State) o => ownerHome s o taker) s).nodeId = s.nodeId) :
    let u := (owners.foldl (fun (s : State) o => ownerHome s o taker) s).raise F.VR_EVENTS_TAKEN_OVER
    takeoverMsg taker s.nodeId owners s =
      unfence (openWaiting (if u.ringState = 2 then setRing u { u.ring with fenceReset := true } else u)) := by
  simp only [takeoverMsg, hnode, if_true]

theorem recordReq_of_sealed {src sp i k : Nat} {r : List Nat} {s : State}
    (h : halvesOf s (fun h => h.sealed_ && decide (h.src = src) && decide (h.home = some (if sp = 0 then src else sp - 1))) = k :: r)
    (hv : s.get F.VR_VERSION_IN_USE ≠ 1) : recordReq src sp i s = ringSend s 1 rkRecordData src (leBytes 1 sp ++ leBytes 4 i ++
      (List.range 32).flatMap (fun j => fitBytes 128 (tget [] (s.half k).store (storeKey 3 (i / 32 * 32 + j))))) := by
  simp only [recordReq, h, if_neg hv]
  rfl

/-- Settles O40: each message on the way that its conditions name. -/
theorem ringMessageEffects : Obligations.RingMessageEffects := by
  intro src s
  refine ⟨leaseReq_of_sealed, leaseGrant_of_member, fun home n kind key data => ⟨?unheld, ?held⟩,
    fun home epoch kind key data => ⟨?unsealed, ?free, ?full⟩, fun epoch d k r h => copyAbortMsg_of_unsealed d h, copySealed_of_own,
    fun taker owners => ?takeover, fun sp i k r h hv => recordReq_of_sealed h hv⟩
  case unheld => exact fun h => mirrorIn_of_none h n kind key data
  case held => exact fun k h => mirrorIn_of_held h n kind key data
  case unsealed => exact fun k r h he => copyData_of_unsealed kind key data h he
  case free => exact fun k h hk => copyData_of_free h epoch kind key data hk
  case full => exact fun h h0 h1 => copyData_of_full h epoch kind key data h0 h1
  case takeover =>
    intro t u hnode
    have htake := takeoverMsg_of_self hnode
    exact ⟨fun hst => htake.trans (by rw [if_neg hst]), fun hst => htake.trans (by rw [if_pos hst])⟩

end Sys2Proof.Machine
end

section
/-! # Markers, links, time blocks, leases and the registers of the ring (13 R332 to R354) -/

namespace Sys2Proof.Machine

open Sys2Proof

/-! ## Lanes and links -/

/-- A marker that leaves its port up, or down. -/
theorem alignMarker_of_kept {p k pos : Nat} {m : Option Marker} {s u : State}
    (hu : u = ((setRing s { s.ring with lanes := tset Lane.zero s.ring.lanes (p * 4 + k) (laneStep (s.lane p k) pos m) }).poke F.VR_LINK_LOCK
      ((List.range 4).foldl (fun a j => a + (if ((setRing s { s.ring with
        lanes := tset Lane.zero s.ring.lanes (p * 4 + k) (laneStep (s.lane p k) pos m) }).lane p j).locked then 2 ^ j else 0)) 0) p))
    (h : portUp u p = u.is F.VR_LINK_UP p) :
    alignMarker p k pos m s = if portUp u p = true ∧ (u.lane p 0).node < 16 then peerSeen u p (u.lane p 0).node else u := by
  subst hu
  exact congrArg (fun v => if portUp _ p = true ∧ (State.lane v p 0).node < 16 then peerSeen v p (State.lane v p 0).node else v) (if_pos h)

section
variable {p : Nat} {serial cert digest secrets : Bytes} {s : State} (hup : s.is F.VR_LINK_UP p = true) (hauth : (s.rlink p).auth = false)
  (hm : s.mirror = 2) (hstage : s.get F.DEV_START_STAGE ≠ 4)
include hup hauth hm hstage

theorem linkUp_of_agreed {m : Bytes × Nat × Bytes} (hst : s.ringState ≠ 3) (hcert : Config.certChains cert s.ring.root = true)
    (hmember : memberOf s (fun x => decide (x = serial)) = some m) (hdigest : digest = s.ring.digest) :
    let serials := if p = 0 then Config.serial ++ serial else serial ++ Config.serial
    let key := fun (d : Nat) => kdf secrets "PH64-LINK" (serials ++ leBytes 1 d)
    linkUp p serial cert digest secrets s =
      copyStart (joinStart (setRLink s p { RLink.zero with auth := true, serial := serial, txKey := key p, rxKey := key (1 - p) })) := by
  intro serials key
  have hfence : ¬ (p = 1 ∧ (setRLink s p { RLink.zero with auth := true, serial := serial, txKey := key p, rxKey := key (1 - p) }).ringState = 3) :=
    fun ⟨_, h⟩ => hst h
  simp only [linkUp, hup, hauth, hm, hstage, hcert, hmember, hdigest, Bool.not_true, Bool.false_eq_true, ne_eq, not_true_eq_false, or_self,
    if_false, Option.isNone_some]
  rw [if_neg hfence]

theorem linkUp_of_unchained (hcert : Config.certChains cert s.ring.root = false) :
    linkUp p serial cert digest secrets s = event s 5 evLinkAuth 134 := by
  simp only [linkUp, hup, hauth, hm, hstage, hcert, Bool.not_true, Bool.false_eq_true, ne_eq, not_true_eq_false, or_self, if_false, Bool.not_false,
    true_or, if_true]

end

theorem exec_linkRekey_of_later {p : Fin 2} {n : Nat} {s : State} (ha : (s.rlink p).auth = true) (hn : (s.rlink p).txSeq < n)
    (hr : (s.rlink p).rekeyAt = none) :
    let t := linkMsg s p rkAck (leBytes 8 (s.rlink p).rxSeq ++ leBytes 8 n)
    exec (.linkRekey p n) s = .next (setRLink t p { t.rlink p with rekeyAt := some n, sinceAck := 0 }) := by
  have hok : ¬ ((!(s.rlink p).auth) = true ∨ n ≤ (s.rlink p).txSeq ∨ (s.rlink p).rekeyAt.isSome = true) := by
    simp [ha, hn, hr]
  exact congrArg Host.Outcome.next (if_neg hok)

/-! ## Ring time -/

/-- A block of the elected source by the shorter path is a sample; the additions in transit stand. -/
theorem timeBlock_of_source {b : TimeBlock} {s : State} (hok : b.ok = true) (hlock : (s.lane b.port b.lane).locked = true)
    (hauth : (s.rlink b.port).auth = true) (hst : s.ringState ≠ 0) (hnode : b.node.val ≠ s.nodeId)
    (hbefore : before3 (timeRank s.foc.own) (s.get F.FOC_TCFG_PRIORITY) s.nodeId (timeRank b.disc) b.prio b.node = false)
    (hring : s.is F.FOC_TSTAT_RING_SRC = false) (hsource : sourceNode s = b.node.val) (hother : tget none s.foc.src (1 - b.port.val) = none) :
    timeBlock b s = ringSample (setFoc (s.poke F.FOC_TSTAT_RING_SRC 0) { s.foc with
      src := tset none s.foc.src b.port.val (some (b.node.val, b.disc.val, b.hops, b.prio.val)) })
      b.arrival ((b.depart : Int) + b.corr + b.delay) b.disc := by
  have hport : 1 - b.port.val ≠ b.port.val := by omega
  have hpath : tget none (tset none s.foc.src b.port.val (some (b.node.val, b.disc.val, b.hops, b.prio.val))) (1 - b.port.val) = none := by
    rw [tget_tset_other _ _ _ _ _ hport, hother]
  have hsame : (s.is F.FOC_TSTAT_RING_SRC || decide (sourceNode s ≠ b.node.val)) = false := by simp [hring, hsource]
  simp only [timeBlock, hok, hlock, hauth, hst, hnode, hbefore, hsame, Bool.not_true, Bool.false_eq_true, or_self, if_false]
  rw [setFoc_foc, hpath, if_pos rfl]

/-! ## Leases, timers and copies -/

theorem leaseEnd_of_leased {s : State} (hl : s.ring.leased = true) (hst : s.ringState = 2) : leaseEnd s = dropHalves (copyAbort
    (event ((setRingState (setRing s { s.ring with leased := false }) 3).raise F.VR_EVENTS_LEASE_LOST) 4 evFenced 134) false) :=
  if_pos ⟨hl, hst⟩

theorem exec_grantedLeaseExpiry_of_leased {s : State} (hg : s.ring.granted ≠ 0) (hst : s.ringState = 2) (hl : s.ring.leased = true) :
    exec .grantedLeaseExpiry s = .next (takeOver s (s.ring.granted - 1)) :=
  congrArg Host.Outcome.next ((if_neg hg).trans (if_pos ⟨hst, hl⟩))

theorem exec_takeoverResealDone_of_durable {home : Fin 16} {s : State}
    (h : ∀ x ∈ spacePages s (home.val + 1), (s.leaf x).pend = false ∧ s.ks.toSeal.contains x = false) :
    exec (.takeoverResealDone home) s = .next (copyStart (setRing s { s.ring with
      taken := s.ring.taken.map (fun t => if t.home = home.val then { t with resealed := true } else t) })) := by
  refine congrArg Host.Outcome.next (if_pos (List.all_eq_true.2 fun x hx => ?_))
  obtain ⟨hpend, hseal⟩ := h x hx
  rw [hpend, hseal]
  rfl

theorem exec_copyLinkTimeout_of_east {s : State} (h0 : (s.rlink 0).auth = false) (h1 : (s.rlink 1).auth = true)
    (hkept : (copyAbort s false).rlink 1 = s.rlink 1) : exec .copyLinkTimeout s = .next (copyAbort s false) := by
  have heast : (if (s.rlink 0).auth = true then s else copyAbort s false) = copyAbort s false := if_neg (ne_true_of_eq_false h0)
  have hwest : ((copyAbort s false).rlink 1).auth = true := hkept ▸ h1
  have hexec : exec .copyLinkTimeout s = execCopyLinkTimeout s := rfl
  rw [hexec, execCopyLinkTimeout, heast, if_pos hwest]

/-! ## The registers -/

section
variable {a : Agent} {s : State} (hr : s.outOfReach a 0xA0000 = false) (hp : s.isPrimary a = true)
include hr hp

theorem ringEnable_of_set {v : Word} (hv : v.getLsbD 31 = true) (ht : (if v.getLsbD 30 then openWaiting s else s).ring.table ≠ []) :
    ringEnable a v s = ringInsert ((if v.getLsbD 30 then openWaiting s else s).poke F.VR_CFG_ENABLE 1) :=
  (ite_primary hr hp).trans ((if_pos hv).trans (if_neg ht))

theorem ringEnable_of_clear {v : Word} (hv : v.getLsbD 31 = false) :
    ringEnable a v s = mirrorRelease (leaveRing ((if v.getLsbD 30 then openWaiting s else s).poke F.VR_CFG_ENABLE 0)) :=
  (ite_primary hr hp).trans (if_neg (ne_true_of_eq_false hv))

end

/-- Settles O41: each event on the way that its conditions name. -/
theorem ringEventsComplete : Obligations.RingEventsComplete := by
  intro p s
  refine ⟨fun k pos m => ?marker, rfl, fun serial cert digest secrets m hup hauth hm hstage hst => ?link,
    fun n ha hn hr => exec_linkRekey_of_later ha hn hr, fun hack => congrArg Host.Outcome.next (if_neg hack), fun b => ?time,
    fun hl hst => congrArg Host.Outcome.next (leaseEnd_of_leased hl hst), fun hst hs hpf => ?request,
    fun hg hst hl => exec_grantedLeaseExpiry_of_leased hg hst hl, fun home h => exec_takeoverResealDone_of_durable h,
    fun h => congrArg Host.Outcome.next (if_neg (ne_true_of_eq_false h)), fun h0 h1 hk => exec_copyLinkTimeout_of_east h0 h1 hk, rfl,
    fun hm => ⟨congrArg Host.Outcome.next (if_pos hm), congrArg Host.Outcome.next (if_pos (.inl hm))⟩,
    fun hm => congrArg Host.Outcome.next (if_pos hm), fun a v hr hp => ?registers⟩
  case marker =>
    intro t u
    have hmark (h : portUp u p = u.is F.VR_LINK_UP p) := alignMarker_of_kept (m := m) (pos := pos) (k := k) (s := s) (u := u) rfl h
    refine ⟨fun hdown his => congrArg Host.Outcome.next ?_, fun hup his hn => congrArg Host.Outcome.next ?_⟩
    · exact (hmark (hdown.trans his.symm)).trans (if_neg fun h => ne_true_of_eq_false hdown h.1)
    · exact (hmark (hup.trans his.symm)).trans (if_pos ⟨hup, hn⟩)
  case link =>
    exact ⟨fun hcert hmember hdigest => congrArg Host.Outcome.next (linkUp_of_agreed hup hauth hm hstage hst hcert hmember hdigest),
      fun hcert => congrArg Host.Outcome.next (linkUp_of_unchained hup hauth hm hstage hcert)⟩
  case time =>
    intro hok hlock hauth hst hnode hbefore hring hsource hother t
    have hfoc : t.foc = s.foc := poke_foc s _ _ _ _
    rw [hfoc]
    exact congrArg Host.Outcome.next (timeBlock_of_source hok hlock hauth hst hnode hbefore hring hsource hother)
  case request => exact congrArg Host.Outcome.next (if_pos ⟨hst, hs, congrArg not hpf⟩)
  case registers =>
    exact ⟨fun hv ht => congrArg Host.Outcome.next (ringEnable_of_set hr hp hv ht),
      fun hv => congrArg Host.Outcome.next (ringEnable_of_clear hr hp hv), congrArg Host.Outcome.next (ite_primary hr hp)⟩

end Sys2Proof.Machine
end

section
/-! # Owner commands (14 R359 to R376, 05 R143, R144)

Each command runs its own meaning behind the checks of its fields; where they pass, the command is one change of the owner. -/

namespace Sys2Proof.Machine

open Sys2Proof

section
variable {w : Work} {s : State}

/-- OWNER_SAVE to a member with a certificate: the owner's pages are re-sealed, and their page set waits with the sealed blob. -/
theorem ownerSave_of_checks {e : Bytes × Nat × Bytes} (hr : Runs 0x0C04 w s) (ho : w.o = 0)
    (hf : (w.unused 0 && decide (w.f 48 2 < 4096) && w.z 50 52 && w.z 60 64 && decide (w.len = 0) && w.fits (blobLen s (w.f 48 2))) = true)
    (hst : (s.owner (w.f 48 2)).state = oFrozen ∨ (s.owner (w.f 48 2)).state = oSaved) (hne : w.f 48 2 ≠ 0)
    (he : memberOf s (fun b => decide (sliceBytes b 8 8 = sliceBytes w.inl 4 8)) = some e) (hself : e.1 ≠ Config.serial) (hcert : e.2.2 ≠ [])
    (hfocus : (s.foc.table.any (fun e => e.2.any (fun f => decide (f.st = fArmed) && decide (f.owner = w.f 48 2) &&
      (decide (f.typ = 1) || decide (f.typ = 5))))) = false)
    (hwork : (unreleased s (w.f 48 2)).length ≤ 32768) (hrng : s.rngStopped = false) :
    let o := w.f 48 2
    let n := drawBytes s 16
    let u := setOwner n.2 o { s.owner o with nonce := n.1, saveSec := s.nowSec }
    let t := deriveOwnerKey u o
    let r := resealAll t (t.ownerPages o)
    let b := sealBlob r.2 o e (blobBody r.2 o (saveKey u o n.1))
    ownerSave w s = releaseFacet (setKs b.2 { b.2.ks with sets := b.2.ks.sets ++ [⟨0, o, w.o, w.t, r.1, b.1⟩] }) w := by
  have hdest : ((memberOf s (fun b => decide (sliceBytes b 8 8 = sliceBytes w.inl 4 8))).bind (fun e =>
      if e.1 ≠ Config.serial ∧ e.2.2 ≠ [] then some e else none)) = some e := by
    rw [he, Option.bind_some, if_pos ⟨hself, hcert⟩]
  refine (command_runs _ _ _ _ hr).trans ((withChecks_pass _ _ _ _ ?_).trans ?_)
  · simp only [firstFail_cons_eq_none, firstFail_nil, and_true, hdest, hfocus, hrng]
    exact ⟨decide_eq_true ho, hf, by simp [hst, hne], rfl, rfl, decide_eq_true hwork, rfl⟩
  · simp only [hdest]

/-- A blob that passes the checks of 14 R374: its header, its sections under its tag, its signer, its age, and a free owner with room. -/
structure BlobPasses (w : Work) (s : State) (e : Bytes × Nat × Bytes) (l : List Bytes) : Prop where
  head : blobHead w.input = true
  tag : gcmTag 3 (blobKey s w.input) (sliceBytes w.input 50 8 ++ [0, 0, 0, 0]) (w.input.take 1736)
    ((w.input.drop 1736).take (leNat (sliceBytes w.input 58 4))) = sliceBytes w.input (1736 + leNat (sliceBytes w.input 58 4)) 16
  body : sections 7 1 (gcmCrypt 3 (blobKey s w.input) (sliceBytes w.input 50 8 ++ [0, 0, 0, 0])
    ((w.input.drop 1736).take (leNat (sliceBytes w.input 58 4)))) = some l
  parts : sectionsOk l = true
  here : sliceBytes w.input 24 16 = Config.serial
  owner : leNat (sliceBytes w.input 6 2) = w.f 48 2
  member : memberOf s (fun x => decide (x = sliceBytes w.input 8 16)) = some e
  signed : certSigns e.2.2 (w.input.drop (1752 + leNat (sliceBytes w.input 58 4))) (w.input.take (1752 + leNat (sliceBytes w.input 58 4))) = true
  young : s.now ≤ leNat (sliceBytes w.input 40 6) * secNs + leNat (sliceBytes w.input 46 4) + 3600 * secNs
  past : leNat (sliceBytes w.input 40 6) * secNs + leNat (sliceBytes w.input 46 4) ≤ s.now + 60 * secNs
  fresh : s.blobIds.contains (sliceBytes w.input 50 8) = false

/-- The owner that a blob is restored into: ACTIVE, without keys, work or flows, and with room for the blob. -/
structure BlobFits (o : Nat) (s : State) (l : List Bytes) : Prop where
  active : (s.owner o).state = oActive
  notZero : o ≠ 0
  keyless : keysHeld s o = 0
  idle : (unreleased s o).isEmpty = true
  flowless : s.str.flows.all (fun e => !(e.2.any (fun f => decide (f.owner = o)))) = true
  queues : (pieces 32 (l.getD 5 [])).length ≤ (s.ownerCtxs o).length
  pages : (blobPages l).all (fun p => decide (p.1 < 1048576) && decide (128 ≤ p.1) &&
    decide ((s.leaf (spaceOf s o * 1048576 + p.1)).owner = 0xFFFF)) = true
  store : protectedBytes s + ((blobPages l).map (fun p => p.2.1)).foldl (fun a k => a + k) 0 * 128 ≤ 6442450944
  quota : ((blobPages l).map (fun p => p.2.1)).foldl (fun a k => a + k) 0 ≤ leNat (sliceBytes (l.getD 0 []) 32 4)
  slots : s.slots.length < 16

theorem exec_ownerRestore_of_checks {e : Bytes × Nat × Bytes} {l : List Bytes} (hr : Runs 0x0C05 w s) (ho : w.o = 0)
    (hf : (w.unused 0 && decide (w.f 48 2 < 4096) && w.z 50 64 && w.fits 0 && blobHead w.input) = true) (hp : BlobPasses w s e l)
    (hfit : BlobFits (w.f 48 2) s l) : exec (.ownerRestore w) s = .next (endChange (restoreOwner s (w.f 48 2) w.input l) w sOk) := by
  refine exec_command_of_checks (l := fun _ => _) rfl hr (firstFail_pair (decide_eq_true ho) hf) ((withChecks_pass _ _ _ _ ?_).trans ?_)
  · simp only [firstFail_cons_eq_none, firstFail_nil, and_true, hp.body, hp.member, Option.getD_some]
    refine ⟨?_, ?_, ?_, ?_, decide_eq_true hfit.queues, ?_⟩
    · simp [hp.parts]
    · simp only [hp.tag, hp.here, hp.owner, hp.signed, decide_true, Bool.and_self]
    · simp only [hp.young, hp.past, hp.fresh, decide_true, Bool.and_self, Bool.not_false]
    · simp [hfit.active, hfit.notZero, hfit.keyless, hfit.idle, hfit.flowless]
    · simp only [hfit.pages, hfit.store, hfit.quota, hfit.slots, decide_true, Bool.and_self]
  · simp only [hp.body, Option.getD_some]

/-- OWNER_THAW of a frozen owner, and of a saved one whose save is 3,660 s old. -/
theorem ownerThaw_of_checks (hr : Runs 0x0C06 w s) (ho : w.o = 0)
    (hf : (w.unused 0 && decide (w.f 48 2 < 4096) && w.z 50 64 && decide (w.len = 0) && w.fits 0) = true)
    (hst : (s.owner (w.f 48 2)).state = oFrozen ∨ ((s.owner (w.f 48 2)).state = oSaved ∧ (s.owner (w.f 48 2)).saveSec + 3660 ≤ s.nowSec)) :
    let o := w.f 48 2
    let t := modOwner s o (fun y => { y with nonce := [] })
    let r := if (s.owner o).nonce = [] then ([], t) else resealAll (deriveOwnerKey t o) (t.ownerPages o)
    ownerThaw w s = if (s.owner o).state = oFrozen then endChange (ownerTo r.2 o oActive) w sOk
      else releaseFacet (setKs r.2 { r.2.ks with sets := r.2.ks.sets ++ [⟨1, o, w.o, w.t, r.1, []⟩] }) w := by
  refine (command_runs _ _ _ _ hr).trans (withChecks_pass _ _ _ _ ?_)
  simp only [firstFail_cons_eq_none, firstFail_nil, and_true]
  exact ⟨decide_eq_true ho, hf, by simpa using hst⟩

end

/-- Settles O25: the hypotheses of each command are its checks. -/
theorem ownerCommandsComplete : Obligations.OwnerCommandsComplete := by
  intro w s
  dsimp only
  refine ⟨fun hr ho hf hst => ?set, fun hr hmay hf hst => ?reset, fun hr hq hbody hmay hf hne hst => ?erase,
    fun hr hq hbody ho hf => ?device, fun hr ho hf hne hst => ?freeze,
    fun e hr ho hf hst hne he hself hcert hfocus hwork hrng => congrArg (fun t => Host.Outcome.next (setsSettle t))
      (ownerSave_of_checks hr ho hf hst hne he hself hcert hfocus hwork hrng),
    fun e l hr ho hf htag hbody hparts hhere howner hmember hsigned hyoung hpast hfresh hst hne hkeys hidle hflows hqueues hpages hstore hquota
      hslots => ?restore,
    fun hr ho hf => ⟨fun hst => ?frozen, fun hst hold => ?saved⟩⟩
  case set =>
    refine exec_command_of_checks rfl hr ?_ rfl
    simp only [firstFail_cons_eq_none, firstFail_nil, and_true]
    exact ⟨decide_eq_true ho, hf, decide_eq_true hst⟩
  case reset =>
    refine exec_command_of_checks rfl hr ?_ rfl
    simp only [firstFail_cons_eq_none, firstFail_nil, and_true]
    exact ⟨hmay, hf, by simpa using hst⟩
  case erase =>
    refine exec_quorum_of_checks rfl hr rfl hq ?_ rfl
    simp only [firstFail_cons_eq_none, firstFail_nil, and_true]
    exact ⟨hmay, by simpa [hbody] using hf, by simp [hne, hst]⟩
  case device =>
    exact exec_quorum_of_checks rfl hr rfl hq (firstFail_pair (decide_eq_true ho) (by simpa [hbody] using hf)) rfl
  case freeze =>
    refine exec_command_of_checks rfl hr ?_ rfl
    simp only [firstFail_cons_eq_none, firstFail_nil, and_true]
    exact ⟨decide_eq_true ho, hf, by simp [hne, hst]⟩
  case restore =>
    have hhead : blobHead w.input = true := (Bool.and_eq_true_iff.1 hf).2
    exact exec_ownerRestore_of_checks hr ho hf
      ⟨hhead, htag, hbody, hparts, hhere, howner, hmember, hsigned, hyoung, hpast, hfresh⟩
      ⟨hst, hne, hkeys, hidle, hflows, hqueues, hpages, hstore, hquota, hslots⟩
  case frozen =>
    have hthaw := ownerThaw_of_checks hr ho hf (.inl hst)
    exact congrArg (fun t => Host.Outcome.next (setsSettle t)) (hthaw.trans (if_pos hst))
  case saved =>
    have hthaw := ownerThaw_of_checks hr ho hf (.inr ⟨hst, hold⟩)
    exact congrArg (fun t => Host.Outcome.next (setsSettle t)) (hthaw.trans (if_neg (hst ▸ by decide)))

end Sys2Proof.Machine
end

section
/-! # The ends of resets, freezes and restores, programs and roles (14 R368, R371, R375, 03 R66 to R69, 01 R16) -/

namespace Sys2Proof.Machine

open Sys2Proof

theorem firstFail_eq_none_of_forall {l : List (Bool × Nat)} (h : ∀ c ∈ l, c.1 = true) : firstFail l = none := by
  induction l with
  | nil => exact firstFail_nil
  | cons c l ih => exact firstFail_cons_eq_none.2 ⟨h c (.head l), ih fun d hd => h d (.tail c hd)⟩

section
variable {o : Nat} {s : State}

theorem resetComplete_of_resetting (hst : (s.owner o).state = oResetting) (he : (s.owner o).erasing = false) (hd : resetDrained s o = true) :
    resetComplete o s = resetEnd s o := by
  simp [resetComplete, hst, he, hd]

theorem resetComplete_of_erasing (he : (s.owner o).erasing = true) (hd : resetDrained s o = true)
    (hset : s.ks.sets.any (fun y => decide (y.what = 2) && decide (y.target = o)) = false) :
    resetComplete o s = eraseOwner s o := by
  simp only [resetComplete, he, hd, hset, Bool.or_true, Bool.not_true, Bool.or_self, Bool.false_eq_true, if_false]

theorem freezeDrained_of_idle (hst : (s.owner o).state = oFrozen) (he : (s.owner o).erasing = false) (hi : frozenIdle s o = true) :
    freezeDrained o s = endWaiters s o := by
  simp [freezeDrained, hst, he, hi]

/-- A restore whose pages are all live, and whose page set does not wait already. -/
theorem restorePagesLive_guard (hst : (s.owner o).state = oRestoring) (hlive : s.ks.await.any (fun p => decide ((s.leaf p).owner = o)) = false)
    (hset : s.ks.sets.any (fun x => decide (x.what = 3) && decide (x.target = o)) = false) :
    ¬ ((s.owner o).state ≠ oRestoring ∨ s.ks.await.any (fun p => decide ((s.leaf p).owner = o)) ∨
      s.ks.sets.any (fun x => decide (x.what = 3) && decide (x.target = o))) := by
  rw [hst, hlive, hset]
  simp

end

/-- Settles O26: the ends by the guards of their steps, the commands by their checks. -/
theorem ownerEventsAndProgramsComplete : Obligations.OwnerEventsAndProgramsComplete := by
  intro w o s
  dsimp only
  refine ⟨fun hd => ⟨fun hst he => ?reset, fun he hset => ?erase⟩, fun hst he hi => ?frozen, fun hst hlive hset => ?live, rfl,
    fun hr hq hown hf hall => ?install, fun hr hq hbody hkeys hf => ?remove, fun hr ho hf hrem hcust => ?role,
    fun op g i r hr hg hrun hfacet => ?entry⟩
  case reset => exact congrArg Host.Outcome.next (resetComplete_of_resetting hst he hd)
  case erase => exact congrArg Host.Outcome.next (resetComplete_of_erasing he hd hset)
  case frozen => exact congrArg Host.Outcome.next (freezeDrained_of_idle hst he hi)
  case live => exact congrArg Host.Outcome.next (if_neg (restorePagesLive_guard hst hlive hset))
  case install =>
    refine exec_quorum_of_checks rfl hr rfl hq ?_ rfl
    simp only [List.cons_append, List.nil_append, firstFail_cons_eq_none]
    exact ⟨decide_eq_true hown, hf, firstFail_eq_none_of_forall hall⟩
  case remove =>
    exact exec_quorum_of_checks rfl hr rfl hq (firstFail_pair (by simpa using hkeys) (by simpa [hbody] using hf)) rfl
  case role =>
    refine exec_command_of_checks rfl hr ?_ rfl
    simp only [firstFail_cons_eq_none, firstFail_nil, and_true]
    exact ⟨decide_eq_true ho, hf, by simp only [hrem, hcust, decide_true, Bool.not_false, Bool.and_self]⟩
  case entry =>
    refine exec_command_of_runs rfl hr ?_
    simp only [hg, hrun, if_neg hfacet]

end Sys2Proof.Machine
end

section
/-! # Functions, SPDM sessions, IDE streams and TDIs (14 R357, R358, R378 to R380) -/

namespace Sys2Proof.Machine

open Sys2Proof

theorem flr_of_present {port : Fin 4} {v : Fin 1024} {s : State} (h : s.fnPresent (fnNum ⟨port, some v⟩) = true) :
    flr ⟨port, some v⟩ s = flrOne s (fnNum ⟨port, some v⟩) :=
  if_pos ⟨h, v.isLt⟩

section
variable {p : Nat} {s : State}

/-- IDE_KM within a session: a stream whose six keys are all programmed becomes secure in FLIT mode. -/
theorem ideKm_setGo {stream : Fin 65} (hs : (s.hport p).session = true) (hflit : (s.hport p).flit = true)
    (hkeys : ∀ sub < 3, ∀ tx, tget [] (s.hport p).ideKeys (ideKey stream.val sub tx) ≠ []) :
    ideKm p (.setGo stream) s = ([6, 0], setHport s p { s.hport p with ide := sput (s.hport p).ide stream.val }) := by
  have hfull : (List.range 3).all (fun k => [true, false].all (fun tx =>
      tget [] (s.hport p).ideKeys (ideKey stream.val k tx) ≠ [])) = true := by
    simp only [List.all_eq_true, List.mem_range, decide_eq_true_eq]
    exact fun k hk tx _ => hkeys k hk tx
  simp only [ideKm, hs, hflit, hfull, Bool.not_true, Bool.false_eq_true, if_false, and_self, if_true]

theorem exec_ideKm_of_eq {port : Fin 4} {m : IdeMsg} {b : Bytes} {t : State} (h : ideKm port m s = (b, t)) :
    exec (.ideKm port m) s = .next { t with out := b } := by
  have hexec : exec (.ideKm port m) s = .next { (ideKm port m s).2 with out := (ideKm port m s).1 } := rfl
  rw [hexec, h]

theorem lockInterface_of_secure {vf stream : Nat} (htdi : (s.fn (p * 2048 + vf + 1)).tdi = 0) (hpres : s.fnPresent (p * 2048 + vf + 1) = true)
    (hact : (s.owner (s.fn (p * 2048 + vf + 1)).owner).state = oActive) (hne : stream ≠ 0) (hsec : (s.hport p).ide.contains stream = true) :
    let f := s.fn (p * 2048 + vf + 1)
    lockInterface p vf stream s = { setFn (drawBytes s 32).2 (p * 2048 + vf + 1) { f with
      tdi := 1, stream := stream + 1, mode := (s.owner f.owner).mode } with out := (drawBytes s 32).1 } :=
  if_pos ⟨htdi, hpres, hact, hne, hsec⟩

end

/-- Settles O27: the resets by their guards, IDE_KM within a session, and the TDI of a secure stream. -/
theorem functionCommandsComplete : Obligations.FunctionCommandsComplete := by
  intro port s
  dsimp only
  refine ⟨fun n hn => ?numvfs, fun v hv => ?flrVf, rfl, ?hotReset, fun m => ⟨rfl, fun hvaux hmain => ?periscope⟩,
    fun hs => ⟨?query, fun stream sub tx key hlen => ?keyProg, fun stream hflit hkeys => ?setGo, fun stream => ?setStop⟩,
    fun vf stream => ⟨fun htdi hpres hact hne hsec => ?lock, rfl⟩⟩
  case numvfs => exact congrArg Host.Outcome.next (if_neg (Nat.not_lt.2 hn))
  case flrVf => exact congrArg Host.Outcome.next ((flr_of_present hv).trans (congrArg (flrOne s) (Nat.add_assoc _ _ _).symm))
  case hotReset =>
    have hport : (⟨port.val % 4, Nat.mod_lt _ (by decide)⟩ : Fin 4) = port := Fin.ext (Nat.mod_eq_of_lt port.isLt)
    have hexec : exec (.portHotReset port) s = .next (hotReset port.val s) := rfl
    rw [hexec, hotReset, hport]
  case periscope =>
    have hexec : exec (.spdmRequest port true m) s = execSpdmRequest port true m s := rfl
    rw [hexec, execSpdmRequest, hvaux, hmain]
    rfl
  case query => exact exec_ideKm_of_eq (by simp only [ideKm, hs, Bool.not_true, Bool.false_eq_true, if_false])
  case keyProg => exact exec_ideKm_of_eq (by simp only [ideKm, hs, hlen, Bool.not_true, Bool.false_eq_true, if_false, ne_eq, not_true])
  case setGo => exact exec_ideKm_of_eq (ideKm_setGo hs hflit hkeys)
  case setStop => exact exec_ideKm_of_eq (by simp only [ideKm, hs, Bool.not_true, Bool.false_eq_true, if_false])
  case lock => exact congrArg Host.Outcome.next (lockInterface_of_secure htdi hpres hact hne hsec)

end Sys2Proof.Machine
end

section
/-! # The Loupe port with the main rails up (17 R424 to R431) -/

namespace Sys2Proof.Machine

open Sys2Proof

section
variable {s : State} (hmain : s.mainPower = true)
include hmain

/-- With the main rails up an instruction of the port does its own work. -/
theorem exec_loupe {i : Instr} {k : State → State} {t : State} (hi : exec i s = .next (loupe s k)) (ht : k s = t) : exec i s = .next t :=
  hi.trans (congrArg Host.Outcome.next ((if_pos hmain).trans ht))

/-! ## DBG_ACCESS (17 R427, R428) -/

section
variable {q : Fin 72} {r : DbgReg} {data : BitVec 64} (hright : (loupeLeave s).right (haltRight (loupeLeave s) q) = true)
  (hhalt : ((loupeLeave s).facet q).halt = 1)
include hright hhalt

theorem exec_loupeDbgAccess_reg (write : Bool) : exec (.loupeDbgAccess (.reg q r) write data) s =
    .next (if write then loupeOut (dbgRegWrite (loupeLeave s) q r data) 0x44 (List.replicate 8 0 ++ [0])
      else loupeOut (loupeLeave s) 0x44 (dbgRegRead (loupeLeave s) q r ++ [0])) := by
  have hgate : ¬ ((!(loupeLeave s).right (haltRight (loupeLeave s) q)) = true ∨ ((loupeLeave s).facet q).halt ≠ 1) := by
    simp [hright, hhalt]
  exact exec_loupe hmain rfl (if_neg hgate)

end

theorem exec_loupeDbgAccess_reg_refused {q : Fin 72} {r : DbgReg} {write : Bool} {data : BitVec 64}
    (h : (loupeLeave s).right (haltRight (loupeLeave s) q) = false ∨ ((loupeLeave s).facet q).halt ≠ 1) :
    exec (.loupeDbgAccess (.reg q r) write data) s = .next (loupeOut (loupeLeave s) 0x44 (List.replicate 8 0 ++ [1])) :=
  exec_loupe hmain rfl (if_pos (h.imp_left fun h => by rw [h]; rfl))

section
variable {a : BitVec 64} {write : Bool} {data : BitVec 64}

theorem exec_loupeDbgAccess_log
    (hlog : ((loupeLeave s).right 4 && !(loupeLeave s).right 0 && !write && within a.toNat 8 logBase (logBase + 0xFFFFF)) = true) :
    exec (.loupeDbgAccess (.mem a) write data) s = .next (loupeOut (loupeLeave s) 0x44 ((loupeLeave s).devRead a.toNat 8 ++ [0])) :=
  exec_loupe hmain rfl (if_pos hlog)

variable (hlog : ((loupeLeave s).right 4 && !(loupeLeave s).right 0 && !write && within a.toNat 8 logBase (logBase + 0xFFFFF)) = false)
include hlog

/-- Without a right of either world an access outside EVENT_READ's is refused. -/
theorem exec_loupeDbgAccess_mem_refused (hin : (loupeLeave s).right 0 = false) (hout : (loupeLeave s).right 2 = false) :
    exec (.loupeDbgAccess (.mem a) write data) s = .next (loupeOut (loupeLeave s) 0x44 (List.replicate 8 0 ++ [1])) := by
  refine exec_loupe hmain rfl ((if_neg (ne_true_of_eq_false hlog)).trans (if_pos ?_))
  rw [hin, hout]
  rfl

/-- An access that the aperture unit admits for master 0xB8 is made. -/
theorem exec_loupeDbgAccess_mem {un d : Nat} (hworld : (loupeLeave s).right 0 = true ∨ (loupeLeave s).right 2 = true)
    (hplace : place ((loupeLeave s).right 0) write a.toNat 8 = .glob un d)
    (hapt : (aptCause (loupeLeave s) un d 8 0xB8 ((loupeLeave s).right 0) write false).1 = 0) :
    exec (.loupeDbgAccess (.mem a) write data) s = .next (if write then
        loupeOut { visible (loupeLeave s) with gmem := memWrite (visible (loupeLeave s)).gmem a.toNat (leBytes 8 data.toNat) } 0x44
          (List.replicate 8 0 ++ [0])
      else loupeOut (visible (loupeLeave s)) 0x44 ((visible (loupeLeave s)).devRead a.toNat 8 ++ [0])) := by
  refine exec_loupe hmain rfl ((if_neg (ne_true_of_eq_false hlog)).trans ((if_neg ?_).trans ?_))
  · obtain hin | hout := hworld
    · simp [hin]
    · simp [hout]
  · simp only [hplace, aptCheck_of_admitted hapt]
    rfl

end

/-! ## DBG_CTRL (17 R427, R428) -/

section
variable {unit : Fin 73} {op : Fin 4} {sel : Nat}

theorem exec_loupeDbgCtrl_trace
    (hright : (loupeOut (loupeLeave s) 0x45 []).right (haltRight (loupeOut (loupeLeave s) 0x45 []) unit + 1) = true) :
    exec (.loupeDbgCtrl unit 3 sel) s =
      .next { loupeOut (loupeLeave s) 0x45 [] with lc := { (loupeOut (loupeLeave s) 0x45 []).lc with trace := sel } } :=
  exec_loupe hmain rfl (if_pos hright)

variable (hop : op.val ≠ 3)
include hop

theorem exec_loupeDbgCtrl_refused
    (hright : (loupeOut (loupeLeave s) 0x45 []).right (haltRight (loupeOut (loupeLeave s) 0x45 []) unit) = false) :
    exec (.loupeDbgCtrl unit op sel) s = .next (loupeOut (loupeLeave s) 0x45 []) :=
  exec_loupe hmain rfl ((if_neg hop).trans (if_pos (congrArg not hright)))

variable (hright : (loupeOut (loupeLeave s) 0x45 []).right (haltRight (loupeOut (loupeLeave s) 0x45 []) unit) = true)
include hright

theorem exec_loupeDbgCtrl_steward (hu : unit.val = 72) : exec (.loupeDbgCtrl unit op sel) s =
    .next { loupeOut (loupeLeave s) 0x45 [] with
      lc := { (loupeOut (loupeLeave s) 0x45 []).lc with stewardHalt := decide (op.val = 0) } } :=
  exec_loupe hmain rfl ((if_neg hop).trans ((if_neg (ne_true_of_eq_false (congrArg not hright))).trans (if_pos hu)))

/-- DBG_CTRL of a facet under the right that halts it: 0 halts, 1 steps, 2 resumes. -/
theorem exec_loupeDbgCtrl_facet (hu : unit.val ≠ 72) : exec (.loupeDbgCtrl unit op sel) s =
    .next (if op.val = 0 then haltFacet (loupeOut (loupeLeave s) 0x45 []) unit
      else if op.val = 1 then (loupeOut (loupeLeave s) 0x45 []).modFacet unit (fun f => { f with halt := if f.halt = 0 then 0 else 2 })
      else (loupeOut (loupeLeave s) 0x45 []).modFacet unit (fun f => { f with halt := 0 })) :=
  exec_loupe hmain rfl ((if_neg hop).trans ((if_neg (ne_true_of_eq_false (congrArg not hright))).trans (if_neg hu)))

end

end

/-- Settles O45: every instruction does its own work under its right. -/
theorem loupeCommandsComplete : Obligations.LoupeCommandsComplete := by
  intro s hmain
  refine ⟨fun pads drive => ⟨exec_loupe hmain rfl rfl, exec_loupe hmain rfl rfl, exec_loupe hmain rfl rfl⟩,
    exec_loupe hmain rfl rfl, exec_loupe hmain rfl rfl, exec_loupe hmain rfl rfl, exec_loupe hmain rfl rfl,
    fun target token => ⟨fun hbusy => exec_loupe hmain rfl (if_neg (ne_true_of_eq_false hbusy)), fun hbusy => exec_loupe hmain rfl (if_pos hbusy)⟩,
    ⟨fun hst => exec_loupe hmain rfl (if_pos hst), fun hst => exec_loupe hmain rfl (if_neg (not_not_intro hst))⟩,
    fun cert => ⟨fun hst => exec_loupe hmain rfl (if_neg (not_not_intro hst)), fun hst => exec_loupe hmain rfl (if_pos hst)⟩,
    fun q r data => ⟨fun hright hhalt => ⟨exec_loupeDbgAccess_reg hmain hright hhalt false, exec_loupeDbgAccess_reg hmain hright hhalt true⟩,
      fun h wr => exec_loupeDbgAccess_reg_refused hmain h⟩,
    fun a wr data => ⟨exec_loupeDbgAccess_log hmain, exec_loupeDbgAccess_mem_refused hmain,
      fun un d hlog hworld hplace hapt => ⟨?write, ?read⟩⟩,
    fun unit sel => ⟨exec_loupeDbgCtrl_trace hmain, fun hright hu => ⟨?halt, ?step, ?resume⟩,
      fun hright hu => ⟨?hold, ?free⟩, fun op hop hright => exec_loupeDbgCtrl_refused hmain hop hright⟩⟩
  case write | read =>
    rintro rfl
    exact exec_loupeDbgAccess_mem hmain hlog hworld hplace hapt
  case halt => exact exec_loupeDbgCtrl_facet hmain (op := 0) (by decide) hright hu
  case step => exact exec_loupeDbgCtrl_facet hmain (op := 1) (by decide) hright hu
  case resume => exact exec_loupeDbgCtrl_facet hmain (op := 2) (by decide) hright hu
  case hold => exact exec_loupeDbgCtrl_steward hmain (op := 0) (by decide) hright hu
  case free => exact exec_loupeDbgCtrl_steward hmain (op := 2) (by decide) hright hu

end Sys2Proof.Machine
end

section
/-! # Reset sources and reset levels (18 R440 to R450, 17 R435) -/

namespace Sys2Proof.Machine

open Sys2Proof

section
variable {s : State}

/-- PERST_N of H0 asks for the level that RST_CTRL.PERST0 gives; that of another port resets the port alone. -/
theorem perst_of_h0 {c : Nat} (hc : s.get F.RST_CTRL_PERST0 = c) (hlv : c = 1 ∨ c = 2) : perst 0 s = requestReset s 3 (c + 1) := by
  subst hc
  exact if_pos ⟨rfl, hlv⟩

theorem perst_of_other {p : Nat} (hp : p ≠ 0) : perst p s = hotReset p s := if_neg fun h => hp h.1

theorem softReset_of_primary {a : Agent} (hr : s.outOfReach a 0x1000 = false) (hp : s.isPrimary a = true) (lv : Nat) :
    softReset a lv s = requestReset s 7 lv :=
  ite_primary hr hp

/-- A reset of level `lv` waits: it is asked for, has not begun, and no power-fail sequence runs. -/
structure ResetWaits (s : State) (lv : Nat) : Prop where
  level : s.rst.level = lv
  begun : s.rst.begun = false
  pfail : s.rst.pfail = false

theorem ResetWaits.guard {lv : Nat} (h : ResetWaits s lv) : ¬ (s.rst.level ≠ lv ∨ s.rst.begun = true ∨ s.rst.pfail = true) := by
  simp [h.level, h.begun, h.pfail]

/-- The state after an S-reset's work, before the start goes on or is held. -/
def sResetDone (pass : Bool) (s : State) : State :=
  let t := resetDie 1 pass (beforeReset2 (decide (s.rst.src ≠ 5)) (decide (s.rst.src ≠ 4) && !s.rst.noFlush) s)
  otpLowStart (setRst (t.poke F.RST_CAUSE_LEVEL 2) { t.rst with escStart := false, recovery := true })

theorem sReset_of_waits {pass : Bool} (h : ResetWaits s 2) : sReset pass s =
    if (sResetDone pass s).lc.loupeHold then sResetDone pass s
    else if (sResetDone pass s).lc.alarms ≠ [] ∨ (sResetDone pass s).lcState = 3 ∨ (sResetDone pass s).counterSpent then
      (((sResetDone pass s).poke F.TMP_STATUS_HOLD (b2n (decide ((sResetDone pass s).lc.alarms ≠ [])))).poke
        F.DEV_START_STAGE 1).poke F.DEV_START_FAIL 12
    else (sResetDone pass s).poke F.DEV_START_STAGE (if s.is F.CLK_STATUS_LOCK then 3 else 2) :=
  if_neg h.guard

/-- Without a hold, an alarm, End-of-life or a spent counter the start goes on. -/
theorem sReset_goes_on {pass : Bool} (h : ResetWaits s 2) (hhold : (sResetDone pass s).lc.loupeHold = false)
    (ha : (sResetDone pass s).lc.alarms = []) (hlc : (sResetDone pass s).lcState ≠ 3) (hspent : (sResetDone pass s).counterSpent = false) :
    sReset pass s = (sResetDone pass s).poke F.DEV_START_STAGE (if s.is F.CLK_STATUS_LOCK then 3 else 2) := by
  have hgo : ¬ ((sResetDone pass s).lc.alarms ≠ [] ∨ (sResetDone pass s).lcState = 3 ∨ (sResetDone pass s).counterSpent = true) :=
    fun h => h.elim (· ha) fun h => h.elim hlc (ne_true_of_eq_false hspent)
  rw [sReset_of_waits h, if_neg (ne_true_of_eq_false hhold), if_neg hgo]

/-- The state after a P-reset's work, before the pads are looked at; `pf` goes to RST_CAUSE.PFAIL. -/
def pResetDone (pass pf : Bool) (s : State) : State :=
  let soft := decide (s.rst.src = 3) || decide (s.rst.src = 7) || decide (s.rst.src = 8)
  let t := powerCount soft (resetDie 2 pass (beforeReset2 soft soft s))
  let u := ((t.poke F.RST_CAUSE_SOURCES s.rst.joined).poke F.RST_CAUSE_ESCALATED (b2n s.rst.esc)).poke F.RST_CAUSE_PFAIL (b2n pf)
  { u with
    lc := { u.lc with challenge := none, certBuf := [], mismatches := [], trace := 0, stewardHalt := false }
    rst := { u.rst with escStart := s.rst.esc, recovery := false, pfail := false, pfEnd := false } }

theorem pReset_of_waits {pass : Bool} (h : ResetWaits s 3) : pReset pass s =
    let t := pResetDone pass s.rst.pfEnd s
    if t.rst.padsHold then t else (sampleStraps t).poke F.DEV_START_STAGE 1 := by
  have hguard : ¬ (s.rst.level ≠ 3 ∨ s.rst.begun = true ∨ (s.rst.pfail = true ∧ s.rst.src ≠ 0)) := by
    simp [h.level, h.begun, h.pfail]
  have hdone : pReset pass s = if (pResetDone pass (s.rst.pfEnd || s.rst.pfail) s).rst.padsHold then
      pResetDone pass (s.rst.pfEnd || s.rst.pfail) s
      else (sampleStraps (pResetDone pass (s.rst.pfEnd || s.rst.pfail) s)).poke F.DEV_START_STAGE 1 := if_neg hguard
  rw [hdone, h.pfail, Bool.or_false]

theorem pwrgoodRise_of_held {straps : Nat} (hp : s.rst.padsHold = true) (hv : s.vaux = true) :
    let t := ({ s with mainPower := true, rst := { s.rst with padsHold := false, straps := straps } }.poke F.PWR_STATUS_VIN_OK 1).poke
      F.PWR_STATUS_VHOLD_READY 1
    pwrgoodRise straps s = if t.rst.level = 3 ∧ t.rst.begun then (sampleStraps t).poke F.DEV_START_STAGE 1 else t :=
  if_neg (by simp [hp, hv])

end

/-- Settles O46: the sources by their guards, the levels in wait by `ResetWaits`. -/
theorem resetCommandsComplete : Obligations.ResetCommandsComplete := by
  intro s
  refine ⟨⟨rfl, rfl, fun hp => ?porRuns, fun hp => ?porMasked⟩,
    fun p => ⟨fun h0 hc => ?perstS, fun h0 hc => ?perstP, fun hne => ?perstPort⟩, fun hst => ?watchdog, fun hf => ?fencing,
    fun a hr hw => ⟨?softC, ?softS, ?softP⟩, fun row => rfl, fun pass hl hb hp => ⟨fun hhold => ?sHeld, fun hhold ha hlc hspent => ?sGoes⟩,
    fun pass hl hb hp => ⟨fun hhold => ?pHeld, fun hhold => ?pGoes⟩, fun ok hl hb hp => ⟨fun hok => ?cAgrees, fun hok => ?cFails⟩,
    fun straps hp hv => ?rise⟩
  case porRuns => exact congrArg Host.Outcome.next (if_neg (ne_true_of_eq_false hp))
  case porMasked => exact congrArg Host.Outcome.next (if_pos hp)
  case perstS => exact congrArg Host.Outcome.next ((congrArg (perst · s) h0).trans (perst_of_h0 hc (.inl rfl)))
  case perstP => exact congrArg Host.Outcome.next ((congrArg (perst · s) h0).trans (perst_of_h0 hc (.inr rfl)))
  case perstPort => exact congrArg Host.Outcome.next (perst_of_other hne)
  case watchdog => exact congrArg Host.Outcome.next (if_pos hst)
  case fencing => exact congrArg Host.Outcome.next (if_pos hf)
  case softC => exact congrArg Host.Outcome.next (softReset_of_primary hr hw 1)
  case softS => exact congrArg Host.Outcome.next (softReset_of_primary hr hw 2)
  case softP => exact congrArg Host.Outcome.next (softReset_of_primary hr hw 3)
  case sHeld => exact congrArg Host.Outcome.next ((sReset_of_waits ⟨hl, hb, hp⟩).trans (if_pos hhold))
  case sGoes => exact congrArg Host.Outcome.next (sReset_goes_on ⟨hl, hb, hp⟩ hhold ha hlc hspent)
  case pHeld => exact congrArg Host.Outcome.next ((pReset_of_waits ⟨hl, hb, hp⟩).trans (if_pos hhold))
  case pGoes => exact congrArg Host.Outcome.next ((pReset_of_waits ⟨hl, hb, hp⟩).trans (if_neg (ne_true_of_eq_false hhold)))
  case cAgrees => exact congrArg Host.Outcome.next ((if_neg (ResetWaits.guard ⟨hl, hb, hp⟩)).trans (if_pos hok))
  case cFails => exact congrArg Host.Outcome.next ((if_neg (ResetWaits.guard ⟨hl, hb, hp⟩)).trans (if_neg (ne_true_of_eq_false hok)))
  case rise => exact congrArg Host.Outcome.next (pwrgoodRise_of_held hp hv)

end Sys2Proof.Machine
end

section
/-! # The release order and the image sources (17 R422, R437, R438, 18 R443, R451 to R456, 05 R145, 04 R102, 11 R306) -/

namespace Sys2Proof.Machine

open Sys2Proof

section
variable {s : State}

theorem atStep_guard {n : Nat} (h : s.atStep n = true) : ¬ (!(s.atStep n)) = true := by
  rw [h]
  decide

theorem atStep_guard_or {n : Nat} {p : Prop} (h : s.atStep n = true) (hp : ¬ p) : ¬ ((!(s.atStep n)) = true ∨ p) :=
  fun hor => hor.elim (atStep_guard h) hp

/-! ## Step 1 (17 R422, R437, R438) -/

/-- The life-cycle copies have decoded without a forced or an interrupted state, and the clock mode is chosen. -/
def decoded (st dis : Nat) (s : State) : State :=
  let t := (((s.poke F.LC_STATE_STATE st).poke F.LC_STATE_FORCED 0).poke F.LC_STATE_INTERRUPTED 0).poke F.LC_STATE_DISAGREE dis
  t.poke F.CLK_STATUS_MODE (if t.get F.STRAP_CAPTURE_CLKMODE = 3 ∧ 2 ≤ st then 2 else t.get F.STRAP_CAPTURE_CLKMODE)

/-- The pending tamper count has moved to the counter. -/
def counted (u : State) : State :=
  (u.poke F.TMP_OTP_COUNT_COUNT (min 1024 (u.get F.TMP_OTP_COUNT_COUNT + u.get F.TMP_OTP_COUNT_PENDING))).poke F.TMP_OTP_COUNT_PENDING 0

/-- The counter check, and the end of step 1. -/
def step1End (st : Nat) (u : State) : State :=
  let c := if u.get F.TMP_OTP_COUNT_PENDING = 15 then event (counted u) 4 evPendingFull tmpSrc else counted u
  let l := otpLowStart c
  let v := l.poke F.TMP_STATUS_HOLD (b2n (decide (l.lc.alarms ≠ [])))
  if v.lc.alarms ≠ [] ∨ st = 3 ∨ v.counterSpent then v.poke F.DEV_START_FAIL 12 else setStage v 2

theorem startStep1_of_decode {st dis : Nat} (hstep : s.atStep 1 = true) (hfail : s.get F.DEV_START_FAIL ≠ 12)
    (hdec : lcDecode s.lc.copies = (st, false, none, dis)) : startStep1 0 s = step1End st (decoded st dis s) := by
  simp only [startStep1, if_neg (atStep_guard_or hstep hfail), hdec, Bool.false_eq_true, if_false, if_true, reduceCtorEq, Option.isSome_none]
  rfl

theorem otpLowStart_of_lt (h : s.get F.TMP_OTP_COUNT_COUNT < 960) : otpLowStart s = s := if_neg (Nat.not_le.2 h)

theorem counted_of_none {u : State} (h : u.get F.TMP_OTP_COUNT_PENDING = 0) :
    counted u = (u.poke F.TMP_OTP_COUNT_COUNT (min 1024 (u.get F.TMP_OTP_COUNT_COUNT))).poke F.TMP_OTP_COUNT_PENDING 0 := by
  rw [counted, h, Nat.add_zero]

theorem step1End_of_sound {u : State} {st : Nat} (hst : st ≠ 3) (hpend : u.get F.TMP_OTP_COUNT_PENDING = 0) (ha : u.lc.alarms = [])
    (hlow : (counted u).get F.TMP_OTP_COUNT_COUNT < 960) (hspent : ((counted u).poke F.TMP_STATUS_HOLD 0).counterSpent = false) :
    step1End st u = setStage ((counted u).poke F.TMP_STATUS_HOLD 0) 2 := by
  have hnone : (counted u).lc.alarms = [] := ha
  have hhold : b2n (decide ((counted u).lc.alarms ≠ [])) = 0 := by rw [hnone]; rfl
  have hgo : ¬ (((counted u).poke F.TMP_STATUS_HOLD 0).lc.alarms ≠ [] ∨ st = 3 ∨
      ((counted u).poke F.TMP_STATUS_HOLD 0).counterSpent = true) :=
    fun h => h.elim (· (by rw [poke_lc, hnone])) fun h => h.elim hst (ne_true_of_eq_false hspent)
  have hfull : ¬ u.get F.TMP_OTP_COUNT_PENDING = 15 := by rw [hpend]; decide
  rw [step1End, if_neg hfull, otpLowStart_of_lt hlow, hhold]
  exact if_neg hgo

theorem startStep1_of_sound {st dis : Nat} {u : State} (hstep : s.atStep 1 = true) (hfail : s.get F.DEV_START_FAIL ≠ 12)
    (hdec : lcDecode s.lc.copies = (st, false, none, dis)) (hst : st ≠ 3) (hu : decoded st dis s = u)
    (hpend : u.get F.TMP_OTP_COUNT_PENDING = 0) (ha : u.lc.alarms = []) :
    let c := (u.poke F.TMP_OTP_COUNT_COUNT (min 1024 (u.get F.TMP_OTP_COUNT_COUNT))).poke F.TMP_OTP_COUNT_PENDING 0
    c.get F.TMP_OTP_COUNT_COUNT < 960 → (c.poke F.TMP_STATUS_HOLD 0).counterSpent = false →
      startStep1 0 s = setStage (c.poke F.TMP_STATUS_HOLD 0) 2 := by
  rw [← counted_of_none hpend]
  intro c hlow hspent
  rw [startStep1_of_decode hstep hfail hdec, hu]
  exact step1End_of_sound hst hpend ha hlow hspent

/-! ## Step 4 -/

theorem bootGo_of_h0 {f : FnId} {image : Bytes} (hport : f.port.val = 0) (hvf : f.vf = none) (hl : s.loads = true)
    (hsrc : s.is F.DEV_START_RECOVERY = true ∨ s.get F.STRAP_CAPTURE_BOOTSRC = 1) :
    bootGo (.fn f) image s = bootImage (image.take (s.get F.DEV_BOOT_LEN)) 1 s := by
  refine if_neg ?_
  simp only [hport, hvf, hl, Bool.not_or, Bool.and_eq_true, Bool.not_eq_true']
  obtain h | h := hsrc <;> simp [h]

/-! ## Step 5 (05 R145, 04 R102) -/

theorem startStep5_of_share {ok : Bool} (hstep : s.atStep 5 = true) (hrel : s.get F.KS_STATUS_RELOAD = 0) (hshare : s.sec.share.isSome) :
    startStep5 ok s =
      let t := formKeys s
      if kekCheckOf t = t.ks.kekCheck ∧ !(ok && rootGood t) then critical t 3
      else
        let u := if kekCheckOf t = t.ks.kekCheck then rootAdvance (setEpoch t 0 (t.ks.epoch + 1)) 0 else treeEmpty t
        let u := if u.ks.tree.any (fun e => decide (e.1 < 65536)) then u else rootDraw u
        u.poke F.KS_STATUS_RELOAD (if (List.range 8).all (groupLive u) then 2 else 1) := by
  have hfresh : s.sec.share.isNone = false := by
    obtain ⟨d, hd⟩ := Option.isSome_iff_exists.1 hshare
    rw [hd]
    rfl
  have hguard : ¬ ((!(s.atStep 5)) = true ∨ s.get F.KS_STATUS_RELOAD ≠ 0 ∨ (s.sec.share.isNone = true ∧ s.rngStopped = true)) := by
    simp [hstep, hrel, hfresh]
  rw [startStep5, if_neg hguard]
  simp only [hfresh, Bool.not_false, true_and, Bool.false_eq_true, if_false]

/-! ## Step 6 (11 R306) -/

/-- Without a ring the node runs alone. -/
theorem startStep6_of_alone {late : Bool} {kat : Bytes} (hstep : s.atStep 6 = true)
    (hoff : ((arraysTested kat s).rst.ringEnable && decide ((arraysTested kat s).ring.table ≠ [])) = false) :
    startStep6 late kat s = setStage (focusDefaults (mirrorRelease (setDomains ((arraysTested kat s).poke F.VR_CFG_ENABLE 0) 102 103 false))) 7 := by
  rw [startStep6, if_neg (atStep_guard hstep)]
  simp only [hoff, Bool.not_false, true_or, if_true, Bool.false_eq_true, if_false]
  rfl

end

/-- Settles O47: each step by its guard. -/
theorem startCommandsComplete : Obligations.StartCommandsComplete := by
  intro s
  dsimp only
  refine ⟨fun st dis hstep hfail hdec hst ha hpend hclk hpend' ha' hlow hspent => ?step1, fun hstep hfail => ?locked,
    fun hstep hlock => ⟨fun htries => ?again, fun htries => ?third⟩, fun hlock => ?lost,
    fun hstep => ⟨?up, fun mram => ?hbm, ?mram⟩, fun image hl hrec hsrc => ?flash, fun f image hport hvf hl hsrc => ?host,
    fun hl hrec hbuf => ?timeout, fun hstep hrel hshare => ⟨fun hkek => ?stop, fun hkek hroot hany => ?reload, fun hkek hany ok => ?fresh⟩,
    fun late kat hstep hoff => congrArg Host.Outcome.next (startStep6_of_alone hstep hoff), fun bad hstep hpin => ?run⟩
  case step1 =>
    refine congrArg Host.Outcome.next (startStep1_of_sound hstep hfail hdec hst ?_ hpend' ha' hlow hspent)
    rw [decoded, hclk]
  case locked => exact congrArg Host.Outcome.next (if_neg (atStep_guard_or hstep hfail))
  case again =>
    exact congrArg Host.Outcome.next ((if_neg (atStep_guard_or hstep (ne_true_of_eq_false hlock))).trans (if_neg (by omega)))
  case third =>
    exact congrArg Host.Outcome.next ((if_neg (atStep_guard_or hstep (ne_true_of_eq_false hlock))).trans (if_pos (by omega)))
  case lost => exact congrArg Host.Outcome.next (if_neg (by rw [hlock]; decide))
  case up => exact congrArg Host.Outcome.next (if_neg (atStep_guard hstep))
  case hbm => exact congrArg Host.Outcome.next (if_neg (atStep_guard hstep))
  case mram => exact congrArg Host.Outcome.next (if_neg (atStep_guard hstep))
  case flash =>
    exact congrArg Host.Outcome.next ((if_neg (by simp [hl, hrec])).trans (if_pos hsrc))
  case host => exact congrArg Host.Outcome.next (bootGo_of_h0 hport hvf hl hsrc)
  case timeout => exact congrArg Host.Outcome.next (if_pos ⟨hl, by rw [hrec]; rfl, hbuf⟩)
  case stop =>
    exact congrArg Host.Outcome.next ((startStep5_of_share hstep hrel hshare).trans (if_pos ⟨hkek, rfl⟩))
  case reload =>
    have hgood : ¬ (kekCheckOf (formKeys s) = (formKeys s).ks.kekCheck ∧ (!(true && rootGood (formKeys s))) = true) := by
      simp [rootGood, hroot]
    refine congrArg Host.Outcome.next ((startStep5_of_share hstep hrel hshare).trans ((if_neg hgood).trans ?_))
    simp only [if_pos hkek, hany, if_true]
  case fresh =>
    refine congrArg Host.Outcome.next ((startStep5_of_share hstep hrel hshare).trans ((if_neg fun h => hkek h.1).trans ?_))
    simp only [if_neg hkek, hany, Bool.false_eq_true, if_false]
  case run => exact congrArg Host.Outcome.next ((if_neg (atStep_guard hstep)).trans (if_neg (ne_true_of_eq_false hpin)))

end Sys2Proof.Machine
end

section
/-! # Power failure, the hold-up supply, VAUX, host links and management ticks (18 R452, R457 to R462, 19 R466, 01 R12, R13) -/

namespace Sys2Proof.Machine

open Sys2Proof

section
variable {s : State}

theorem powerFailTrigger_vin (hm : s.mainPower = true) : powerFailTrigger true s = powerFail (s.poke F.PWR_STATUS_VIN_OK 0) := by
  simp only [powerFailTrigger, hm, Bool.not_true, Bool.false_eq_true, if_false, if_true, true_or]

/-- PFAIL_N shows, and acts from step 7 on. -/
theorem powerFailTrigger_pin (hm : s.mainPower = true) : powerFailTrigger false s =
    if 7 ≤ (s.put F.PWR_STATUS_PFAIL_PIN 1).stage then powerFail (s.put F.PWR_STATUS_PFAIL_PIN 1) else s.put F.PWR_STATUS_PFAIL_PIN 1 := by
  simp only [powerFailTrigger, hm, Bool.not_true, Bool.false_eq_true, if_false, false_or]

end

/-- Settles O48: each command by its guard; the tick is its counters and the time that passes. -/
theorem powerCommandsComplete : Obligations.PowerCommandsComplete := by
  intro s
  refine ⟨fun hm => ⟨?vin, fun hst => ?pinActs, fun hst => ?pinShows⟩, fun hp collapse => ?ends, fun hst => ?holdLow,
    fun hv => ?fall, fun hv => ?rise, fun p hon hup => ?link, rfl⟩
  case vin => exact congrArg Host.Outcome.next (powerFailTrigger_vin hm)
  case pinActs => exact congrArg Host.Outcome.next ((powerFailTrigger_pin hm).trans (if_pos hst))
  case pinShows => exact congrArg Host.Outcome.next ((powerFailTrigger_pin hm).trans (if_neg (Nat.not_le.2 hst)))
  case ends => exact congrArg Host.Outcome.next (if_neg (by rw [hp]; decide))
  case holdLow => exact congrArg Host.Outcome.next (if_neg (not_not_intro hst))
  case fall => exact congrArg Host.Outcome.next (if_pos hv)
  case rise => exact congrArg Host.Outcome.next (if_neg (ne_true_of_eq_false hv))
  case link => exact congrArg Host.Outcome.next (if_neg (by simp [hon, hup]))

end Sys2Proof.Machine
end

section
/-! # The Periscope port: its bus, MCTP, PLDM and alerts (19 R464 to R478) -/

namespace Sys2Proof.Machine

open Sys2Proof

section
variable {s : State} (hv : s.vaux = true)
include hv

/-- With VAUX a command of the island does its own work. -/
theorem exec_onIsland {i : Instr} {k : State → State} {t : State} (hi : exec i s = .next (onIsland s k)) (ht : k s = t) : exec i s = .next t :=
  hi.trans (congrArg Host.Outcome.next ((if_pos hv).trans ht))

theorem exec_cccRead {i : Instr} {a : BitVec 7} {b : State → Bytes} {d : Bytes} (hhit : s.cccHits (some a) = true)
    (hi : exec i s = .next (cccRead s a b)) (hb : b s = d) : exec i s = .next (pscSend s d) :=
  hb ▸ exec_onIsland hv hi (if_pos hhit)

theorem receive_of_whole {p : Packet} {k : State → State} (hpec : s.i3c = true ∨ p.pecOk = true) (hsize : p.size ≤ 1088)
    (hothers : p.others < 4) : receive p s k = k s := by
  refine (if_pos hv).trans ((if_neg ?_).trans (if_neg (by omega)))
  obtain h | h := hpec <;> simp [h]

theorem exec_receive {i : Instr} {p : Packet} {k : State → State} {t : State} (hpec : s.i3c = true ∨ p.pecOk = true) (hsize : p.size ≤ 1088)
    (hothers : p.others < 4) (hi : exec i s = .next (receive p s k)) (ht : k s = t) : exec i s = .next t :=
  hi.trans (congrArg Host.Outcome.next ((receive_of_whole hv hpec hsize hothers).trans ht))

end

section
variable {s : State}

/-- A broadcast CCC, or one to the dynamic address, reaches a port in I3C mode. -/
theorem cccHits_of_addressed {to_ : Option (BitVec 7)} (hm : s.i3c = true)
    (h : to_ = none ∨ to_.map (fun x => x.toNat) = some s.dynAddr) : s.cccHits to_ = true := by
  obtain rfl | h := h
  · simp [State.cccHits, hm]
  · obtain ⟨a, rfl, ha⟩ := Option.map_eq_some_iff.1 h
    simp [State.cccHits, hm, ha]

theorem alertOffer_of_offer {src : Nat} (lost : Bool) (h : tget 0 s.evr.offer 5 = src + 1) :
    alertOffer lost s = announce (claimRead .psc 5 s) src lost := by
  rw [alertOffer, h]
  rfl

theorem pldmServe_of_served {typ cmd inst : Nat} {d : Bytes} (h : typ = 0 ∨ typ = 2) : pldmServe typ cmd inst none d s =
    pscSend s.free.2 ([0x01] ++ leBytes 1 (inst % 32) ++ leBytes 1 typ ++ leBytes 1 cmd ++ [0x00] ++ Config.pldmData typ cmd d s.freeCtr) :=
  if_neg fun hne => h.elim hne.1 hne.2

end

/-- Settles O49: each command behind the guards of its mode. -/
theorem periscopeBusCommandsComplete : Obligations.PeriscopeBusCommandsComplete := by
  intro s hv
  refine ⟨fun hsm => ⟨fun d => ⟨?entdaa, fun st hst => ?setdasa⟩, ?timeout⟩, exec_onIsland hv rfl rfl,
    fun hm => ⟨fun o n ho => exec_onIsland hv rfl (if_pos ⟨hm, ho⟩),
      fun to_ hto => ⟨fun ev hev => ⟨?enec, ?disec⟩, fun n => ?setmrl⟩, fun a ha => ?reads⟩,
    fun p hpec hsize hothers => ?messages, fun n hen hheld => exec_onIsland hv rfl (if_pos ⟨hen, hheld⟩),
    fun lost src hoffer => exec_onIsland hv rfl (alertOffer_of_offer lost hoffer), fun lost src n hn => ?retry,
    fun ha hsm => ?response, fun lost => exec_onIsland hv rfl rfl⟩
  case entdaa => exact exec_onIsland hv rfl (if_neg (ne_true_of_eq_false hsm))
  case setdasa => exact exec_onIsland hv rfl (if_neg fun h => h.elim (ne_true_of_eq_false hsm) (· hst))
  case timeout => exact exec_onIsland hv rfl (if_neg (ne_true_of_eq_false hsm))
  case enec | disec => exact exec_onIsland hv rfl (if_pos ⟨cccHits_of_addressed hm hto, hev⟩)
  case setmrl => exact exec_onIsland hv rfl (if_pos (cccHits_of_addressed hm hto))
  case reads =>
    have hhit : s.cccHits (some a) = true := cccHits_of_addressed hm (.inr (congrArg some ha))
    exact ⟨exec_cccRead hv hhit rfl rfl, exec_cccRead hv hhit rfl rfl, exec_cccRead hv hhit rfl rfl, exec_cccRead hv hhit rfl rfl,
      exec_cccRead hv hhit rfl rfl⟩
  case messages =>
    refine ⟨fun op eid hop h0 hff => exec_receive hv hpec hsize hothers rfl (if_neg ?_), exec_receive hv hpec hsize hothers rfl rfl,
      exec_receive hv hpec hsize hothers rfl rfl, fun sel hsel => exec_receive hv hpec hsize hothers rfl (if_pos ?_),
      exec_receive hv hpec hsize hothers rfl rfl, exec_receive hv hpec hsize hothers rfl rfl,
      fun typ cmd inst d htyp => exec_receive hv hpec hsize hothers rfl (pldmServe_of_served ?_)⟩
    · exact fun h => h.elim (fun h => by omega) fun h => h.elim h0 hff
    · exact hsel.imp_right fun h => List.contains_iff_mem.2 h
    · exact htyp.imp (congrArg BitVec.toNat) (congrArg BitVec.toNat)
  case retry => exact exec_onIsland hv rfl (by rw [hn])
  case response => exact exec_onIsland hv rfl (if_pos ⟨ha, by rw [hsm]; rfl⟩)

end Sys2Proof.Machine
end

section
/-! # The vendor messages of the Periscope port (19 R473 to R479, 17 R429) -/

namespace Sys2Proof.Machine

open Sys2Proof

/-- A vendor request that arrives whole, of version 1, with flags and status 0. -/
structure VendorArrives (h : VendorHead) (s : State) : Prop where
  vaux : s.vaux = true
  pec : s.i3c = true ∨ h.pkt.pecOk = true
  size : h.pkt.size ≤ 1088
  others : h.pkt.others < 4
  version : h.version = 1
  flags : h.flags = 0
  status : h.status = 0

section
variable {h : VendorHead} {s : State} {op len : Nat} {main good : Bool} {k : State → Nat × Bytes × State}
  (ha : VendorArrives h s) (hlen : h.bodyLen.toNat = len) (hgood : good = true)
include ha hlen hgood

/-- Behind the checks of version and body, the side decides whether the opcode is served. -/
theorem vendor_of_arrives : vendor op main len good h s k =
    if main = true ∧ s.mainUp = false then vendorReply s op h sDenied [] else vendorReply (k s).2.2 op h (k s).1 (k s).2.1 := by
  refine (receive_of_whole ha.vaux ha.pec ha.size ha.others).trans ((if_neg (not_not_intro ha.version)).trans ((if_neg ?_).trans ?_))
  · simp [ha.flags, ha.status, hlen, hgood]
  · simp only [Bool.not_eq_true']

/-- An opcode whose side is up is answered once, with the status and the body that its work gives. -/
theorem vendor_served (hside : ¬ (main = true ∧ s.mainUp = false)) {st : Nat} {b : Bytes} {t : State} (ht : k s = (st, b, t)) :
    vendor op main len good h s k = vendorReply t op h st b := by
  rw [vendor_of_arrives ha hlen hgood, if_neg hside, ht]

theorem exec_vendor {i : Instr} {st : Nat} {b : Bytes} {t : State} (hi : exec i s = .next (vendor op false len good h s k))
    (ht : k s = (st, b, t)) : exec i s = .next (vendorReply t op h st b) :=
  hi.trans (congrArg Host.Outcome.next (vendor_served ha hlen hgood (fun h => Bool.false_ne_true h.1) ht))

theorem exec_vendor_main {i : Instr} {st : Nat} {b : Bytes} {t : State} (hup : s.mainUp = true)
    (hi : exec i s = .next (vendor op true len good h s k)) (ht : k s = (st, b, t)) : exec i s = .next (vendorReply t op h st b) :=
  hi.trans (congrArg Host.Outcome.next (vendor_served ha hlen hgood (fun h => ne_true_of_eq_false h.2 hup) ht))

theorem exec_vendor_dark {i : Instr} (hdark : s.mainUp = false) (hi : exec i s = .next (vendor op true len good h s k)) :
    exec i s = .next (vendorReply s op h sDenied []) :=
  hi.trans (congrArg Host.Outcome.next ((vendor_of_arrives ha hlen hgood).trans (if_pos ⟨rfl, hdark⟩)))

end

section
variable {s : State} {off : Nat} {d : Bytes}

theorem certPart_next (h : off = s.lc.certBuf.length) :
    certPart off false d s = (sOk, [], { s with lc := { s.lc with certBuf := s.lc.certBuf ++ d } }) :=
  if_neg (not_not_intro h)

theorem certPart_final (h : off = s.lc.certBuf.length) :
    let t := presentCert { s with lc := { s.lc with certBuf := [] } } (s.lc.certBuf ++ d)
    certPart off true d s = (sOk, leBytes 1 (t.get F.LC_DEBUG_LAST), t) :=
  if_neg (not_not_intro h)

theorem certPart_other {final : Bool} (h : off ≠ s.lc.certBuf.length) :
    certPart off final d s = (sMalformed, [], { s with lc := { s.lc with certBuf := [] } }) :=
  if_pos h

/-- A chunk in its turn, while the loader takes images from Periscope. -/
theorem imageChunk_of_turn {final : Bool} (hl : s.loads = true) (hsrc : s.is F.DEV_START_RECOVERY = true ∨ s.get F.STRAP_CAPTURE_BOOTSRC = 2)
    (h : off = s.rst.imageBuf.length) : imageChunk off final d s =
      if final then (sOk, [], bootImage (s.rst.imageBuf ++ d) 2 (setRst s { s.rst with imageBuf := [] }))
      else (sOk, [], setRst s { s.rst with imageBuf := s.rst.imageBuf ++ d }) := by
  refine (if_neg ?_).trans (if_neg (not_not_intro h))
  obtain hr | hr := hsrc <;> simp [hl, hr]

theorem alertAck_of_top {src : Nat} {r : List Nat} (h : s.evStack 5 = src :: r) :
    let t := completeWrite .psc 5 src s
    alertAck src s = (sOk, [], setPsc t { t.psc with alertN := false, named := none, notify := none }) := by
  rw [alertAck, h]
  exact if_pos rfl

theorem alertAck_of_other {src : Nat} (h : (s.evStack 5).head? ≠ some src) : alertAck src s = (sMalformed, [], s) := by
  unfold alertAck
  cases hstack : s.evStack 5 with
  | nil => rfl
  | cons top r =>
    have hne : top ≠ src := fun he => h (by rw [hstack, he]; rfl)
    exact if_neg hne

end

/-- Settles O50: each opcode served or denied by its side. -/
theorem periscopeVendorCommandsComplete : Obligations.PeriscopeVendorCommandsComplete := by
  intro h s hvaux hpec hsize hothers hversion hflags hstatus
  have ha : VendorArrives h s := ⟨hvaux, hpec, hsize, hothers, hversion, hflags, hstatus⟩
  refine ⟨fun hl => ⟨exec_vendor ha hl rfl rfl rfl, exec_vendor ha hl rfl rfl rfl⟩, fun q n hl h1 h16 => ?log,
    fun r off len hl h1 h1024 hin => ?region, fun v hl => exec_vendor ha hl rfl rfl rfl, fun lv hl h1 h3 => ?reset,
    fun t token hl htok => ?transition,
    fun hl => ⟨fun hup => exec_vendor_main ha hl rfl hup rfl rfl, fun hdark => exec_vendor_dark ha hl rfl hdark rfl⟩,
    fun off d hl hd hup => ⟨fun hoff => ⟨?part, ?final⟩, fun hoff => ?other, fun hloads hsrc hoff => ⟨?chunk, ?last⟩⟩,
    fun src hl hup => ⟨fun r hr => ?ack, fun hne => ?nack⟩⟩
  case log => exact exec_vendor ha hl (by simp [h1, h16]) rfl rfl
  case region => exact exec_vendor ha hl (by simp [h1, h1024, hin]) rfl rfl
  case reset =>
    have hgood : (decide (1 ≤ lv.toNat) && decide (lv.toNat ≤ 3)) = true := by simp [h1, h3]
    exact ⟨fun hup hen => exec_vendor_main ha hl hgood hup rfl (if_pos hen),
      fun hup hen => exec_vendor_main ha hl hgood hup rfl (if_neg (ne_true_of_eq_false hen)),
      fun hdark => exec_vendor_dark ha hl hgood hdark rfl⟩
  case transition =>
    have hgood : (decide ((0 : BitVec 24) = 0) && decide (token.length = 32)) = true := by simp [htok]
    refine ⟨fun hup hbusy => exec_vendor_main ha hl hgood hup rfl (if_neg (ne_true_of_eq_false hbusy)), fun hor => ?_⟩
    cases hup : s.mainUp with
    | false => exact exec_vendor_dark ha hl hgood hup rfl
    | true => exact exec_vendor_main ha hl hgood hup rfl (if_pos (hor.resolve_left (by simp [hup])))
  case part => exact exec_vendor_main ha hl (by simp [hd]) hup rfl (certPart_next hoff)
  case final => exact exec_vendor_main ha hl (by simp [hd]) hup rfl (certPart_final hoff)
  case other => exact exec_vendor_main ha hl (by simp [hd]) hup rfl (certPart_other hoff)
  case chunk => exact exec_vendor_main ha hl (by simp [hd]) hup rfl (imageChunk_of_turn hloads hsrc hoff)
  case last => exact exec_vendor_main ha hl (by simp [hd]) hup rfl (imageChunk_of_turn hloads hsrc hoff)
  case ack => exact exec_vendor_main ha hl rfl hup rfl (alertAck_of_top hr)
  case nack => exact exec_vendor_main ha hl rfl hup rfl (alertAck_of_other hne)

end Sys2Proof.Machine
end
